-- ==== Sys2Proof/Word.lean ====
section
/-! DEFINITION. The word types of the engine (R3, R7, R9) and their plainest arithmetic. -/

namespace Sys2Proof

/-- One byte. -/
abbrev Byte := BitVec 8
/-- A halfword: part-table fields, template halfwords, CV codes. -/
abbrev Half := BitVec 16
/-- A register or a 32-bit audio sample (R3, R9). -/
abbrev Word := BitVec 32
/-- A 64-bit value: a counter, a register pair, an SRAM word (R7). -/
abbrev Long := BitVec 64
/-- A shuttle accumulator, Q9.63 (R9). -/
abbrev Acc := BitVec 72

/-- The low word of a 64-bit value. -/
def Long.lo (x : Long) : Word := x.setWidth 32
/-- The high word of a 64-bit value. -/
def Long.hi (x : Long) : Word := (x >>> 32).setWidth 32
/-- A 64-bit value from its high and its low word. -/
def Long.mk (hi lo : Word) : Long := hi ++ lo

end Sys2Proof
end

