-- ==== Sys2Proof/Machine/Slots.lean ====
section
/-! DEFINITION. The shuttle's slot instructions (chapter 09): the operations of slots M0 and M1, X and C with their fields. -/

namespace Sys2Proof.Machine

/-- What the SECDED check finds in the word that an access reads (R318): nothing, a corrected single-bit error, or an uncorrectable
error, each with its syndrome. -/
inductive Ecc where
  | clean
  | corrected (syndrome : Byte)
  | uncorrectable (syndrome : Byte)
deriving DecidableEq, Repr

/-- The fields of Format A (R238). -/
structure FmtA where
  d : BitVec 5
  p : BitVec 4
  m : BitVec 4
  a : Bool
  post : BitVec 2
  imm : BitVec 11
deriving DecidableEq, Repr

/-- The loads of slot M. -/
inductive Load where
  | word
  | half
  | halfU
  | byte
  | pair
deriving DecidableEq, Repr

/-- The stores of slot M. -/
inductive StoreKind where
  | word
  | half
  | byte
  | pair
deriving DecidableEq, Repr

/-- Bytes of a load. -/
def Load.size : Load → Nat
  | .word => 4
  | .half => 2
  | .halfU => 2
  | .byte => 1
  | .pair => 8

/-- Bytes of a store. -/
def StoreKind.size : StoreKind → Nat
  | .word => 4
  | .half => 2
  | .byte => 1
  | .pair => 8

/-- Slots M0 and M1 (R237–R243). -/
inductive MOp where
  | nop
  | load (k : Load) (f : FmtA) (e : Ecc)
  | store (k : StoreKind) (f : FmtA) (e : Ecc)
  | srd (d f : BitVec 5) (w inc : Bool) (e : Ecc)
  | ldl (l : BitVec 5) (p : BitVec 4) (size : BitVec 2) (e : Ecc)
  | stl (l : BitVec 5) (p : BitVec 4) (size : BitVec 2) (e : Ecc)
  | snd (v t : BitVec 5) (lane : BitVec 4) (inc : Bool)
  | padd (k j : BitVec 4) (cls : Bool) (imm : BitVec 18)
  | pmov (d : BitVec 5) (k : BitVec 4) (dir : BitVec 2)
  | pli (k : BitVec 4) (cls : Bool) (imm : BitVec 22)
deriving DecidableEq, Repr

/-- Slot X (R244). -/
inductive XOp where
  | nop
  | cmac (pair acc neg conj : Bool) (zx zy : BitVec 4)
  | rmac (a : BitVec 2) (acc neg : Bool) (x y : BitVec 5)
  | rmac2 (a b : BitVec 2) (negA negB acc : Bool) (x y u v : BitVec 5)
  | ext (d : BitVec 5) (a : BitVec 2) (s : BitVec 4) (z : Bool)
  | accset (a : BitVec 2) (x : BitVec 5)
deriving DecidableEq, Repr

/-- The ALU functions (R245). -/
inductive AluFn where
  | add
  | sub
  | adds
  | subs
  | and
  | or
  | xor
  | shl
  | shr
  | asr
  | min
  | max
  | abs
  | mul16
deriving DecidableEq, Repr

/-- The shaper functions (R221). -/
inductive ShpFn where
  | exp2
  | sin
  | tanh
  | sclip
  | blep
  | blamp
  | win
  | reserved
deriving DecidableEq, Repr

/-- Slot C (R245–R253). -/
inductive COp where
  | nop
  | alu (fn : AluFn) (d a b : BitVec 5)
  | cmp (a b : BitVec 5)
  | mov (d a : BitVec 5)
  | addi (d a : BitVec 5) (imm : BitVec 16)
  | andi (d a : BitVec 5) (imm : BitVec 16)
  | ori (d a : BitVec 5) (imm : BitVec 16)
  | xori (d a : BitVec 5) (imm : BitVec 16)
  | shi (d a : BitVec 5) (kind : BitVec 2) (amount : BitVec 5)
  | cmpi (a : BitVec 5) (imm : BitVec 16)
  | ldi (d : BitVec 5) (imm : BitVec 21)
  | ldhi (d : BitVec 5) (imm : BitVec 16)
  | sel (d a b : BitVec 5) (cond : BitVec 4)
  | shp (fn : ShpFn) (d x : BitVec 5)
  | movx (dst src : BitVec 5) (dcls scls : BitVec 4)
  | setbl (k : BitVec 3) (len : Bool) (imm : BitVec 22)
  | br (cond : BitVec 4) (target : BitVec 13)
  | call (d : BitVec 5) (target : BitVec 13)
  | brd (a : BitVec 5)
  | rep (n : BitVec 11)
  | repd (a : BitVec 5)
  | loop (n : BitVec 16) (off : BitVec 10)
  | loopd (a : BitVec 5) (off : BitVec 10)
  | waitl (n : BitVec 3)
  | done (e : Bool)
  | draw
  | rte
deriving DecidableEq, Repr

end Sys2Proof.Machine
end

