-- ==== Sys2Proof/Machine/Legal.lean ====
section
/-! DEFINITION. The reserved field values of the slot instructions (R237, R238, R241, R244, R247, R251, R254). -/

namespace Sys2Proof.Machine

/-- A Format A word: post 3 is reserved, and imm is zero unless post is 2 (R238); a pair names an even register (R237). -/
def FmtA.ok (f : FmtA) (pair : Bool) : Bool :=
  f.post != 3 && (f.post == 2 || f.imm == 0) && (!pair || f.d.toNat % 2 == 0)

/-- The legal fields of slots M0 and M1. -/
def MOp.ok : MOp → Bool
  | .load k f _ => f.ok (k == .pair)
  | .store k f _ => f.ok (k == .pair)
  | .ldl _ _ size _ => size != 3
  | .stl _ _ size _ => size != 3
  | .nop | .srd .. | .snd .. | .padd .. | .pmov .. | .pli .. => true

/-- The legal fields of slot X. -/
def XOp.ok : XOp → Bool
  | .rmac2 a b .. => a != b
  | .ext d a s z => s.toNat ≤ 8 && (!z || (d.toNat % 2 == 0 && a.toNat % 2 == 0))
  | .nop | .cmac .. | .rmac .. | .accset .. => true

/-- Whether a MOVX class has a register of an index (R247). -/
def movxIndex (cls ix : Nat) : Bool :=
  match cls with
  | 0 => ix < 32
  | 1 | 2 => ix < 16
  | 3 | 4 => ix < 8
  | 5 => ix < 6
  | 6 => ix == 0
  | 7 => ix < 4
  | 8 => ix < 32
  | _ => false

/-- The legal fields of slot C. -/
def COp.ok : COp → Bool
  | .shi _ _ kind _ => kind != 3
  | .movx dst src dcls scls => movxIndex dcls.toNat dst.toNat && movxIndex scls.toNat src.toNat && dcls != 7
  | .br _ target => 64 ≤ target.toNat
  | .call _ target => 64 ≤ target.toNat
  | .rep n => n.toNat ≤ 1024
  | _ => true

/-- Branches, REP, loops, DONE, DRAW and RTE: what a delay slot may not hold (R254). -/
def COp.control : COp → Bool
  | .br .. | .call .. | .brd _ | .rep _ | .repd _ | .loop .. | .loopd .. | .done _ | .draw | .rte => true
  | _ => false

/-- Branches and REP: what the last bundle of a body may not hold. -/
def COp.branching : COp → Bool
  | .br .. | .call .. | .brd _ | .rep _ | .repd _ => true
  | _ => false

/-- LOOP and LOOPD. -/
def COp.looping : COp → Bool
  | .loop .. | .loopd .. => true
  | _ => false

/-- What a repeated bundle may not hold. -/
def COp.unrepeatable (c : COp) : Bool := c.control || (match c with | .waitl _ => true | _ => false)

end Sys2Proof.Machine
end

