-- ==== Sys2Proof/Syntax.lean ====
section
/-! DEFINITION. The commands of the engine: one constructor per row of spec/opcode_table.json, with what the step is told from
outside (who, where, which data, when). The table gives no bits, so the operands are the model's (notes/assumptions). A time
operand `t` is the value of CYCLE_CNT at the step (R27). -/

namespace Sys2Proof

/-- A matrix master's number (R328): 0 MP, 1 SPI bridge, 2 PCIe bridge, 3 legacy bridge, 4 system DMA, 5 weft engine, 6 Dealer,
7–10 loom gateways, 11 debug. -/
abbrev Master := Fin 12

/-- The sources that carry UMP (R74). -/
inductive UmpSrc where
  | spi
  | pcie
  | weft
deriving DecidableEq, Repr

/-- The source number of a UMP source (R50). -/
def UmpSrc.num : UmpSrc → Nat
  | .spi => 4
  | .pcie => 5
  | .weft => 7

/-- What a MIDI input discards and counts (R67). -/
inductive ParseError where
  /-- a framing error -/
  | framing
  /-- a data byte without running status -/
  | strayData
  /-- a message cut short by a status byte -/
  | cutMessage
  /-- an 0xF7 that ends no SysEx -/
  | strayEox
  /-- 0xF4 or 0xF5 -/
  | undefinedCommon
  /-- 0xF9 or 0xFD, which disturb nothing -/
  | undefinedRealTime
deriving DecidableEq, Repr

/-- A transaction of a master on the matrix (R329): a read of `n` bytes, or a write of bytes, those whose strobe is on. -/
inductive Xact where
  | read (n : Nat)
  | write (data : List (Option Byte))
deriving DecidableEq, Repr

/-- The capture registers (R314). -/
inductive CapReg where
  /-- MEM_ECC_CAP_INFO -/
  | ecc
  /-- MEM_NOCAP_INFO -/
  | nonOwner
  /-- MEM_XCOLL_INFO -/
  | collision
  /-- BMX_DEFCAP_INFO -/
  | decode
  /-- DRC_ECC_CAP -/
  | dramEcc
  /-- DRC_PCAP -/
  | dramProt
deriving DecidableEq, Repr

/-- A read or a write of a PCIe TLP (R395, R397): the DWORDs' byte enables, with their data for a write. -/
inductive Tlp where
  | read (enables : List (BitVec 4))
  | write (dwords : List (Word × BitVec 4))
deriving DecidableEq, Repr

/-- A request of the hardware or of the resident firmware for a housekeeping card (R81, R82): the deck (harness 0–31, loom 32 + L), the
flow, the program, the task code and its data, and the cost that a ROM program's task declares (R95). -/
structure HkRequest where
  deck : Fin 36
  flow : BitVec 14
  prog : Byte
  task : Half
  data : BitVec 48
  cost : BitVec 20
deriving DecidableEq, Repr

/-- What a weft frame's header says of its way (R340): source and destination node, broadcast, on the wrapped path, hops left; whether its
CRC holds; and whether it arrives at WB, over the secondary (R337), and not at WA. -/
structure WHdr where
  src : Fin 1024
  dst : Fin 1024
  bcast : Bool
  wrapped : Bool
  ttl : Half
  crcOk : Bool
  leg : Bool
deriving DecidableEq, Repr

/-- The fields of a PASS payload (R350). -/
structure PassMsg where
  tag : Half
  origin : Fin 1024
  part : Byte
  key : Byte
  noteId : Byte
  layers : Byte
  vel : Half
  pool : Byte
  t : Long
deriving DecidableEq, Repr

/-- What a compute-die reset release finds (R320, R323, R376, R377, R438): the three samples of the straps
(R453: BOOTSEL in bits 2:0, WEFT_ROOT in bit 3), the arrays that fail boot
BIST, the trained DRAM (rate code, two ranks, density code; none: training fails), whether a TRNG health failure lasts 10 ms,
whether TEST_EN is high (R451), and whether a fuse that is burned in this start-up fails its read-back (R448). -/
structure Release where
  straps : Fin 16 × Fin 16 × Fin 16
  bist : List (Fin 512)
  dram : Option (Fin 5 × Bool × Fin 5)
  trngBad : Bool
  testEn : Bool
  burnBad : Bool
deriving DecidableEq, Repr
/-- The commands, in the order of the table. -/
inductive Instr where
  /-- MATRIX_TRANSACTION (R329): master, whether system DMA acts for the host or a loom gateway for a stream engine (R310), address, ID, what it
  does, what the ECC check of
  the word finds, the RC or W1C bits that hardware sets in the same cycle (R6), a write of the other exchange port in the same cycle
  (R316), and whether parity or an ID fails on the matrix (R431). -/
  | matrixTransaction (m : Master) (host : Bool) (a : BitVec 40) (id : BitVec 4) (x : Xact) (e : Machine.Ecc) (hw : Word)
      (also : Option (Master × BitVec 40 × List (Option Byte))) (parity : Bool)
  /-- REGISTER_WRITE (R5): master, address, word; the W1C and RC bits or W1S clears that hardware makes in the same cycle (R6). -/
  | registerWrite (m : Master) (a : BitVec 40) (v : Word) (hw : Word)
  /-- RC_FIELD_READ (R5): master, address; the bits that hardware sets in the same cycle (R6). -/
  | rcFieldRead (m : Master) (a : BitVec 40) (hw : Word)
  /-- WIDE_LOW_READ (R7). -/
  | wideLowRead (m : Master) (a : BitVec 40)
  /-- WIDE_LOW_WRITE (R7). -/
  | wideLowWrite (m : Master) (a : BitVec 40) (v : Word)
  /-- WIDE_HIGH_WRITE (R7): the address is the high word's. -/
  | wideHighWrite (m : Master) (a : BitVec 40) (v : Word)
  /-- CAPTURE_REGISTER_READ (R314). -/
  | captureRegisterRead (m : Master) (r : CapReg)
  /-- REFERENCE_FRAME_EDGE (R30). -/
  | referenceFrameEdge (t : Long)
  /-- HOLDOVER_ENTRY (R30). -/
  | holdoverEntry (t : Long)
  /-- HOLDOVER_FRAME (R30). -/
  | holdoverFrame (t : Long)
  /-- HOLDOVER_TIMEOUT (R30). -/
  | holdoverTimeout (t : Long)
  /-- REF_CFG_WRITE (R29). -/
  | refCfgWrite (m : Master) (v : Word)
  /-- TEMPO_EDGE (R36): an edge of TEMPO_IN at `t`; `next` is the reference frame edge that follows it. -/
  | tempoEdge (t next : Long)
  /-- TEMPO_TIMEOUT (R38). -/
  | tempoTimeout
  /-- COMPARE_ARM (R43): the high word of TBU_CMPn_VAL. -/
  | compareArm (m : Master) (n : Fin 16) (v : Word)
  /-- COMPARE_FIRE (R43). -/
  | compareFire (n : Fin 16)
  /-- COMPARE_CFG_WRITE (R43). -/
  | compareCfgWrite (m : Master) (n : Fin 16) (v : Word)
  /-- CAPTURE_EDGE (R45): an active edge of capture unit `n`'s source. -/
  | captureEdge (n : Fin 8)
  /-- CAPTURE_READ (R45): a read of TBU_CAPn_VAL_LO; `edge`: the source's active edge falls in the same cycle (R46). -/
  | captureRead (m : Master) (n : Fin 8) (edge : Bool)
  /-- TIMER_UNDERFLOW (R47). -/
  | timerUnderflow (n : Fin 8)
  /-- TIMER_RELOAD_WRITE (R47). -/
  | timerReloadWrite (m : Master) (n : Fin 8) (v : Word)
  /-- EVENT_ENTRY (R62). -/
  | eventEntry
  /-- STATUS_FIFO_READ (R64): master, source. -/
  | statusFifoRead (m : Master) (src : Fin 16)
  /-- MARK_READ (R79). -/
  | markRead (m : Master)
  /-- NOTE_ON (R117): the front released event. -/
  | noteOn
  /-- BOOKING (R137): the first note that awaits its booking pick. -/
  | booking
  /-- NOTE_OFF (R127). -/
  | noteOff
  /-- POLY_PRESSURE (R55). -/
  | polyPressure
  /-- CONTROL (R58). -/
  | control
  /-- PN_CONTROL (R203). -/
  | pnControl
  /-- PITCH_BEND (R58). -/
  | pitchBend
  /-- PN_BEND (R58). -/
  | pnBend
  /-- PROGRAM (R116). -/
  | program
  /-- PARAM (R145). -/
  | param
  /-- KILL (R105). -/
  | kill
  /-- ALL_OFF (R131). -/
  | allOff
  /-- BUS_PARAM (R261). -/
  | busParam
  /-- BUS_PARAM_DEFERRED_WRITE (R261): a bus card of a flow on a loom has completed. -/
  | busParamDeferredWrite (l : Fin 4) (bus : Fin 256)
  /-- CV_SET (R297). -/
  | cvSet
  /-- TEMPO (R35). -/
  | tempo
  /-- LOCATE (R41). -/
  | locate
  /-- TRANSPORT (R35). -/
  | transport
  /-- MARK (R79). -/
  | mark
  /-- PEDAL (R129). -/
  | pedal
  /-- TUNE (R55). -/
  | tune
  /-- MIDI_NOTE_OFF (R68): MIDI input, channel, key, velocity; `zero`: sent as a Note On with velocity 0. -/
  | midiNoteOff (n : Fin 4) (ch : Fin 16) (key vel : BitVec 7) (zero : Bool) (t : Long)
  /-- MIDI_NOTE_ON (R68): velocity above 0. -/
  | midiNoteOn (n : Fin 4) (ch : Fin 16) (key vel : BitVec 7) (t : Long)
  /-- MIDI_POLY_PRESSURE (R68). -/
  | midiPolyPressure (n : Fin 4) (ch : Fin 16) (key p : BitVec 7) (t : Long)
  /-- MIDI_CONTROL_CHANGE (R68). -/
  | midiControlChange (n : Fin 4) (ch : Fin 16) (cc v : BitVec 7) (t : Long)
  /-- MIDI_PROGRAM_CHANGE (R68). -/
  | midiProgramChange (n : Fin 4) (ch : Fin 16) (p : BitVec 7) (t : Long)
  /-- MIDI_CHANNEL_PRESSURE (R68). -/
  | midiChannelPressure (n : Fin 4) (ch : Fin 16) (p : BitVec 7) (t : Long)
  /-- MIDI_PITCH_BEND (R68): LSB, MSB. -/
  | midiPitchBend (n : Fin 4) (ch : Fin 16) (lsb msb : BitVec 7) (t : Long)
  /-- MIDI_SYSTEM_EXCLUSIVE (R405): the whole message, 0xF0 to 0xF7. -/
  | midiSystemExclusive (n : Fin 4) (bytes : List Byte) (t : Long)
  /-- MIDI_SONG_POSITION_POINTER (R68). -/
  | midiSongPositionPointer (n : Fin 4) (lsb msb : BitVec 7) (t : Long)
  /-- MIDI_TIMING_CLOCK (R68): the byte at `t`; `next` is the reference frame edge that follows it. -/
  | midiTimingClock (n : Fin 4) (t next : Long)
  /-- MIDI_START (R68). -/
  | midiStart (n : Fin 4) (t : Long)
  /-- MIDI_CONTINUE (R68). -/
  | midiContinue (n : Fin 4) (t : Long)
  /-- MIDI_STOP (R68). -/
  | midiStop (n : Fin 4) (t : Long)
  /-- MIDI_ACTIVE_SENSING (R71). -/
  | midiActiveSensing (n : Fin 4) (t : Long)
  /-- MIDI_IGNORED_SYSTEM (R68): 0xF1, 0xF3, 0xF6 or 0xFF. -/
  | midiIgnoredSystem (n : Fin 4) (byte : Byte) (t : Long)
  /-- MIDI_PARSE_ERROR (R67). -/
  | midiParseError (n : Fin 4) (e : ParseError) (t : Long)
  /-- ACTIVE_SENSING_TIMEOUT (R71). -/
  | activeSensingTimeout (n : Fin 4) (t : Long)
  /-- UMP_JR_CLOCK (R76). -/
  | umpJrClock (src : UmpSrc) (c : Half)
  /-- UMP_JR_TIMESTAMP (R76): group, timestamp. -/
  | umpJrTimestamp (src : UmpSrc) (g : Fin 16) (s : Half)
  /-- UMP_SYSTEM (R74): type 0x1, the status byte and two data bytes; `t`. -/
  | umpSystem (src : UmpSrc) (g : Fin 16) (status : Byte) (d1 d2 : BitVec 7) (t : Long)
  /-- UMP_MIDI1_CHANNEL_VOICE (R74): type 0x2, the status nibble 0x8–0xE, channel and two data bytes. -/
  | umpMidi1ChannelVoice (src : UmpSrc) (g : Fin 16) (status : BitVec 4) (ch : Fin 16) (d1 d2 : BitVec 7)
  /-- UMP_DATA_SYSEX (R74): type 0x3; the bytes of one complete message of the group, without 0xF0 and 0xF7. -/
  | umpDataSysex (src : UmpSrc) (g : Fin 16) (bytes : List Byte)
  /-- UMP_UNSUPPORTED (R74): a message of the type `mt`. -/
  | umpUnsupportedType (src : UmpSrc) (g : Fin 16) (mt : BitVec 4)
  /-- UMP_NOTE_OFF (R75). -/
  | umpNoteOff (src : UmpSrc) (g ch : Fin 16) (key : BitVec 7) (vel : Half)
  /-- UMP_NOTE_ON (R75): attribute type and data. -/
  | umpNoteOn (src : UmpSrc) (g ch : Fin 16) (key : BitVec 7) (vel : Half) (attrType : Byte) (attr : Half)
  /-- UMP_POLY_PRESSURE (R75). -/
  | umpPolyPressure (src : UmpSrc) (g ch : Fin 16) (key : BitVec 7) (v : Word)
  /-- UMP_PER_NOTE_CONTROLLER (R75): registered (0x0) or assignable (0x1), key, index. -/
  | umpPerNoteController (src : UmpSrc) (g ch : Fin 16) (assignable : Bool) (key : BitVec 7) (index : Byte) (v : Word)
  /-- UMP_RPN_NRPN (R75): RPN (0x2) or NRPN (0x3), bank, index. -/
  | umpRpnNrpn (src : UmpSrc) (g ch : Fin 16) (nrpn : Bool) (bank index : BitVec 7) (v : Word)
  /-- UMP_RELATIVE_RPN_NRPN (R75). -/
  | umpRelativeRpnNrpn (src : UmpSrc) (g ch : Fin 16) (nrpn : Bool) (bank index : BitVec 7) (v : Word)
  /-- UMP_PER_NOTE_PITCH_BEND (R75). -/
  | umpPerNotePitchBend (src : UmpSrc) (g ch : Fin 16) (key : BitVec 7) (v : Word)
  /-- UMP_CONTROL_CHANGE (R75). -/
  | umpControlChange (src : UmpSrc) (g ch : Fin 16) (cc : BitVec 7) (v : Word)
  /-- UMP_PROGRAM_CHANGE (R75): program; the bank bytes when flagged valid. -/
  | umpProgramChange (src : UmpSrc) (g ch : Fin 16) (p : BitVec 7) (bankValid : Bool) (bankMsb bankLsb : BitVec 7)
  /-- UMP_CHANNEL_PRESSURE (R75). -/
  | umpChannelPressure (src : UmpSrc) (g ch : Fin 16) (v : Word)
  /-- UMP_PITCH_BEND (R75). -/
  | umpPitchBend (src : UmpSrc) (g ch : Fin 16) (v : Word)
  /-- UMP_PER_NOTE_MANAGEMENT (R75): key, D (detach), S (reset). -/
  | umpPerNoteManagement (src : UmpSrc) (g ch : Fin 16) (key : BitVec 7) (detach reset : Bool)
  /-- UMP_STATUS_7 (R75). -/
  | umpStatus7 (src : UmpSrc) (g ch : Fin 16) (key : BitVec 7)
  /-- GPIO_EDGE (R78): pin and its new level. -/
  | gpioEdge (pin : Fin 24) (level : Bool) (t : Long)
  /-- GPIO_DEBOUNCE_EXPIRE (R78): binding. -/
  | gpioDebounceExpire (b : Fin 8) (t : Long)
  /-- MP_EVENT (R61): the 16 bytes of a native event as one number, byte 0 least significant. -/
  | mpEvent (e : BitVec 128)
  /-- MPE_WRITE (R73): master, channel group, word. -/
  | mpeWrite (m : Master) (g : Fin 20) (v : Word)
  /-- CARD_CREATE (R87): `hk`: the housekeeping cards that the hardware and the resident firmware ask for (R81). -/
  | cardCreateFor (hk : List HkRequest)
  /-- CARD_SELECT (R91): harness; `parity`: the Dealer finds bad parity in a deck, a ledger or the committed-half bits (R431). -/
  | cardSelect (h : Fin 32) (t : Long) (parity : Bool)
  /-- DLR_CANCEL (R106). -/
  | dlrCancel (m : Master) (v : Word) (t : Long)
  /-- CANCEL_AT_PERMITTED_POINT (R106). -/
  | cancelAtPermittedPoint (s : Fin 160) (t : Long)
  /-- SNAPSHOT_REQUEST (R108). -/
  | snapshotRequest (m : Master)
  /-- SNAPSHOT_CANCEL (R109). -/
  | snapshotCancel (m : Master)
  /-- SNAPSHOT_DONE (R108). -/
  | snapshotDone
  /-- QUERY_COMMAND (R140). -/
  | queryCommand (m : Master) (v : Word)
  /-- TEMPLATE_COPY_DONE (R170): the copy of a voice's template has ended. -/
  | templateCopyDone (v : Fin 8192)
  /-- WINDOW_ARRIVAL (R159): the last window of a voice's next pick is in the pool. -/
  | windowArrival (v : Fin 8192)
  /-- MTS_BULK_DUMP (R148): the first message of the SysEx queue. -/
  | mtsBulkDump
  /-- MTS_SINGLE_NOTE_CHANGE (R148). -/
  | mtsSingleNoteChange
  /-- MTS_BULK_DUMP_REQUEST (R148). -/
  | mtsBulkDumpRequest
  /-- NOP (R235): shuttle, slot (0 M0, 1 M1, 2 X, 3 C). -/
  | nop (s : Fin 160) (slot : Fin 4)
  /-- LDW (R238): shuttle, whether it is slot M1's, fields, what the ECC check finds. -/
  | ldw (s : Fin 160) (m1 : Bool) (f : Machine.FmtA) (e : Machine.Ecc)
  /-- LDH (R238). -/
  | ldh (s : Fin 160) (m1 : Bool) (f : Machine.FmtA) (e : Machine.Ecc)
  /-- LDHU (R238). -/
  | ldhu (s : Fin 160) (m1 : Bool) (f : Machine.FmtA) (e : Machine.Ecc)
  /-- LDB (R238). -/
  | ldb (s : Fin 160) (m1 : Bool) (f : Machine.FmtA) (e : Machine.Ecc)
  /-- LDZ (R238). -/
  | ldz (s : Fin 160) (m1 : Bool) (f : Machine.FmtA) (e : Machine.Ecc)
  /-- STW (R238). -/
  | stwEcc (s : Fin 160) (m1 : Bool) (f : Machine.FmtA) (e : Machine.Ecc)
  /-- STH (R238). -/
  | sthEcc (s : Fin 160) (m1 : Bool) (f : Machine.FmtA) (e : Machine.Ecc)
  /-- STB (R238). -/
  | stbEcc (s : Fin 160) (m1 : Bool) (f : Machine.FmtA) (e : Machine.Ecc)
  /-- STZ (R238). -/
  | stz (s : Fin 160) (m1 : Bool) (f : Machine.FmtA)
  /-- SRD (R240). -/
  | srdEcc (s : Fin 160) (m1 : Bool) (d f : BitVec 5) (w inc : Bool) (e : Machine.Ecc)
  /-- LDL (R241). -/
  | ldlEcc (s : Fin 160) (m1 : Bool) (l : BitVec 5) (p : BitVec 4) (size : BitVec 2) (e : Machine.Ecc)
  /-- STL (R241). -/
  | stlEcc (s : Fin 160) (m1 : Bool) (l : BitVec 5) (p : BitVec 4) (size : BitVec 2) (e : Machine.Ecc)
  /-- LDL_STL_COMPLETE (R217): the oldest transfer of a shuttle. -/
  | ldlStlComplete (s : Fin 160)
  /-- SND (R242). -/
  | snd (s : Fin 160) (m1 : Bool) (v t : BitVec 5) (lane : BitVec 4) (inc : Bool)
  /-- PADD (R243). -/
  | padd (s : Fin 160) (m1 : Bool) (k j : BitVec 4) (cls : Bool) (imm : BitVec 18)
  /-- PMOV (R243). -/
  | pmov (s : Fin 160) (m1 : Bool) (d : BitVec 5) (k : BitVec 4) (dir : BitVec 2)
  /-- PLI (R243). -/
  | pli (s : Fin 160) (m1 : Bool) (k : BitVec 4) (cls : Bool) (imm : BitVec 22)
  /-- CMAC (R244). -/
  | cmac (s : Fin 160) (pair acc neg conj : Bool) (zx zy : BitVec 4)
  /-- RMAC (R244). -/
  | rmac (s : Fin 160) (a : BitVec 2) (acc neg : Bool) (x y : BitVec 5)
  /-- RMAC2 (R244). -/
  | rmac2 (s : Fin 160) (a b : BitVec 2) (negA negB acc : Bool) (x y u v : BitVec 5)
  /-- EXT (R244). -/
  | ext (s : Fin 160) (d : BitVec 5) (a : BitVec 2) (sh : BitVec 4) (z : Bool)
  /-- ACCSET (R244). -/
  | accset (s : Fin 160) (a : BitVec 2) (x : BitVec 5)
  /-- ADD (R245). -/
  | add (s : Fin 160) (d a b : BitVec 5)
  /-- SUB (R245). -/
  | sub (s : Fin 160) (d a b : BitVec 5)
  /-- ADDS (R245). -/
  | adds (s : Fin 160) (d a b : BitVec 5)
  /-- SUBS (R245). -/
  | subs (s : Fin 160) (d a b : BitVec 5)
  /-- AND (R245). -/
  | and (s : Fin 160) (d a b : BitVec 5)
  /-- OR (R245). -/
  | or (s : Fin 160) (d a b : BitVec 5)
  /-- XOR (R245). -/
  | xor (s : Fin 160) (d a b : BitVec 5)
  /-- SHL (R245). -/
  | shl (s : Fin 160) (d a b : BitVec 5)
  /-- SHR (R245). -/
  | shr (s : Fin 160) (d a b : BitVec 5)
  /-- ASR (R245). -/
  | asr (s : Fin 160) (d a b : BitVec 5)
  /-- MIN (R245). -/
  | min (s : Fin 160) (d a b : BitVec 5)
  /-- MAX (R245). -/
  | max (s : Fin 160) (d a b : BitVec 5)
  /-- ABS (R245). -/
  | abs (s : Fin 160) (d a b : BitVec 5)
  /-- MUL16 (R245). -/
  | mul16 (s : Fin 160) (d a b : BitVec 5)
  /-- CMP (R245). -/
  | cmp (s : Fin 160) (a b : BitVec 5)
  /-- MOV (R245). -/
  | mov (s : Fin 160) (d a : BitVec 5)
  /-- ADDI (R246). -/
  | addi (s : Fin 160) (d a : BitVec 5) (imm : BitVec 16)
  /-- ANDI (R246). -/
  | andi (s : Fin 160) (d a : BitVec 5) (imm : BitVec 16)
  /-- ORI (R246). -/
  | ori (s : Fin 160) (d a : BitVec 5) (imm : BitVec 16)
  /-- XORI (R246). -/
  | xori (s : Fin 160) (d a : BitVec 5) (imm : BitVec 16)
  /-- SHI (R246). -/
  | shi (s : Fin 160) (d a : BitVec 5) (kind : BitVec 2) (amount : BitVec 5)
  /-- CMPI (R246). -/
  | cmpi (s : Fin 160) (a : BitVec 5) (imm : BitVec 16)
  /-- LDI (R246). -/
  | ldi (s : Fin 160) (d : BitVec 5) (imm : BitVec 21)
  /-- LDHI (R246). -/
  | ldhi (s : Fin 160) (d : BitVec 5) (imm : BitVec 16)
  /-- SEL (R246). -/
  | sel (s : Fin 160) (d a b : BitVec 5) (cond : BitVec 4)
  /-- EXP2 (R221). -/
  | exp2 (s : Fin 160) (d x : BitVec 5)
  /-- SIN (R221). -/
  | sin (s : Fin 160) (d x : BitVec 5)
  /-- TANH (R221). -/
  | tanh (s : Fin 160) (d x : BitVec 5)
  /-- SCLIP (R221). -/
  | sclip (s : Fin 160) (d x : BitVec 5)
  /-- BLEP (R221). -/
  | blep (s : Fin 160) (d x : BitVec 5)
  /-- BLAMP (R221). -/
  | blamp (s : Fin 160) (d x : BitVec 5)
  /-- WIN (R221). -/
  | win (s : Fin 160) (d x : BitVec 5)
  /-- SHP_RESERVED (R248): the reserved function 7. -/
  | shpReserved (s : Fin 160) (d x : BitVec 5)
  /-- MOVX (R247). -/
  | movx (s : Fin 160) (dst src : BitVec 5) (dcls scls : BitVec 4)
  /-- SETBL (R246). -/
  | setbl (s : Fin 160) (k : BitVec 3) (len : Bool) (imm : BitVec 22)
  /-- BR (R250). -/
  | br (s : Fin 160) (cond : BitVec 4) (target : BitVec 13)
  /-- CALL (R250). -/
  | call (s : Fin 160) (d : BitVec 5) (target : BitVec 13)
  /-- BRD (R250). -/
  | brd (s : Fin 160) (a : BitVec 5)
  /-- REP (R251). -/
  | rep (s : Fin 160) (n : BitVec 11)
  /-- REPD (R251). -/
  | repd (s : Fin 160) (a : BitVec 5)
  /-- LOOP (R252). -/
  | loop (s : Fin 160) (n : BitVec 16) (off : BitVec 10)
  /-- LOOPD (R252). -/
  | loopd (s : Fin 160) (a : BitVec 5) (off : BitVec 10)
  /-- WAITL (R217). -/
  | waitl (s : Fin 160) (n : BitVec 3)
  /-- DONE (R230). -/
  | done (s : Fin 160) (e : Bool)
  /-- DRAW (R229). -/
  | draw (s : Fin 160)
  /-- RTE (R253). -/
  | rte (s : Fin 160)
  /-- ILLEGAL_BUNDLE (R254): the next bundle holds a reserved encoding or a nonzero zero bit. -/
  | illegalBundle (s : Fin 160)
  /-- REGISTER_FILE_PARITY_ERROR (R227). -/
  | registerFileParityError (s : Fin 160)
  /-- DONE_ACCEPT (R230): `pass`: the signature of a test card matches (R434). -/
  | doneAccept (s : Fin 160) (t : Long) (pass : Bool)
  /-- SEND_DRAIN_END (R218): a send bank has drained. -/
  | sendDrainEnd (s : Fin 160) (bank : Fin 2)
  /-- FENCE_EXPIRE (R226). -/
  | fenceExpire (s : Fin 160) (t : Long)
  /-- FENCED_COMPLETION (R226). -/
  | fencedCompletion (s : Fin 160) (t : Long)
  /-- FAULT_TAKEN (R227): `fetch`: the fault is an uncorrectable error in the bundle's line (R428). -/
  | faultTaken (s : Fin 160) (t : Long) (fetch : Bool)
  /-- HANDLER_OVERRUN (R227). -/
  | handlerOverrun (s : Fin 160)
  /-- TAP_REQUEST (R228): a write of SHT_TAP. -/
  | tapRequest (m : Master) (v : Word)
  /-- TAP_TAKEN (R228). -/
  | tapTaken (s : Fin 160)
  /-- LIVE_WRITE (R265): a write of MIX_CTL. -/
  | liveWrite (m : Master) (v : Word)
  /-- LOOM_FADE_DONE (R265). -/
  | loomFadeDone (l : Fin 4)
  /-- LANE_SET_REQUEST (R269): a write of DCH_LCFGl, or of DCH_ICFGi for an input lane. -/
  | laneSetRequest (m : Master) (input : Bool) (l : Fin 256) (v : Word)
  /-- CROSSFADE_DONE (R269). -/
  | crossfadeDone (input : Bool) (l : Fin 256)
  /-- CROM_DATA_READ (R267). -/
  | cromDataRead (m : Master)
  /-- SAP_FRAME_START (R277): port, BCLK periods since the last edge, words received, slots whose word met an empty output or a full input word FIFO (R286). -/
  | sapFrameStart (n : Fin 8) (t : Long) (bits : Half) (di : List Word) (under full : List (Fin 16))
  /-- SAP_CLOCK_LOST (R284). -/
  | sapClockLost (n : Fin 8)
  /-- RESTART (R288): a write of SAP_CTL with restart set; `en` its enable bit. -/
  | restart (m : Master) (n : Fin 8) (en : Bool)
  /-- SAP_ENABLE_WRITE (R291): a write of SAP_CTL with restart clear. -/
  | sapEnableWrite (m : Master) (n : Fin 8) (en : Bool)
  /-- SAP_CFG_WRITE (R291). -/
  | sapCfgWrite (m : Master) (n : Fin 8) (v : Word)
  /-- CV_PERIOD_BOUNDARY (R294). -/
  | cvPeriodBoundary (n : Fin 32)
  /-- SLEW_UPDATE (R301). -/
  | slewUpdate (n : Fin 32)
  /-- CV_CLR_N_ASSERT (R303). -/
  | cvClrNAssert
  /-- CV_CLR_N_RELEASE (R303). -/
  | cvClrNRelease
  /-- CVO_VAL_WRITE (R299). -/
  | cvoValWrite (m : Master) (n : Fin 32) (v : Word)
  /-- BANK_HANDOVER (R313): a write of MEM_BANK_OWNn; `idle`: the old owner has no access outstanding. -/
  | bankHandover (m : Master) (n : Fin 96) (v : Word) (idle : Bool)
  /-- HANDOVER_COMPLETE (R313): the last old access to a bank has completed. -/
  | handoverComplete (n : Fin 96)
  /-- SCRUB_WORD (R321). -/
  | scrubWord (a : BitVec 40) (e : Machine.Ecc)
  /-- SCRUB_PASS_LATE (R321). -/
  | scrubPassLate
  /-- REMAP_WRITE (R308): a write of SYS_CTL. -/
  | remapWrite (m : Master) (v : Word)
  /-- DMA_START (R333): a write of BMX_DMAc_CTL with start set. -/
  | dmaStart (m : Master) (c : Fin 4) (v : Word)
  /-- DMA_ABORT (R334): a write of BMX_DMAc_CTL with abort set. -/
  | dmaAbort (m : Master) (c : Fin 4) (v : Word)
  /-- DMA_COMPLETION (R334): channel; the byte at which an abort or an uncorrectable error stops the copy; what the ECC check finds. -/
  | dmaCompletion (c : Fin 4) (n : Word) (e : Machine.Ecc)
  /-- DRAIN_DONE (R332). -/
  | drainDone (m : Master)
  /-- PORT_UP (R336): port 0 WA or 1 WB, lanes swapped, receive polarity inverted. -/
  | portUp (p : Fin 2) (swap : Bool) (inv : BitVec 4)
  /-- PORT_DOWN (R336). -/
  | portDown (p : Fin 2)
  /-- FAULT_MARKER (R336). -/
  | faultMarker (p : Fin 2)
  /-- REENUM (R338): a write of WFT_CTL with reenum set. -/
  | reenum (m : Master)
  /-- ENUM (R338): an ENUM frame: its header, the root's serial, the (serial, hop) of each node so far, a node took no ID. -/
  | enumFrame (h : WHdr) (root : Long) (table : List (Long × Half)) (tooMany : Bool)
  /-- ENUM_DONE (R338): the ENUM_DONE frame: its header, the table, the root's L_out, the ring is wrapped. -/
  | enumDoneFrame (h : WHdr) (table : List (Long × Half)) (lout : Half) (wrapped : Bool)
  /-- ENUM_TIMEOUT (R338). -/
  | enumTimeout
  /-- PROBE_MARKER (R339). -/
  | probeMarker (n : BitVec 52)
  /-- ECHO_MARKER (R339): port, round trip in ns. -/
  | echoMarker (p : Fin 2) (trip : Word)
  /-- TIME_MARKER (R342): value; arrival. -/
  | timeMarker (v : BitVec 52) (t : Long)
  /-- BEAT_MARKER (R343): value in 28.24; arrival; the reference frame edge that follows it. -/
  | beatMarker (v : BitVec 52) (t next : Long)
  /-- RESERVED_MARKER (R341): kind 0 or 6–15. -/
  | reservedMarker (kind : BitVec 4)
  /-- AUDIO_LAP_START (R345). -/
  | audioLapStart
  /-- AUDIO_FRAME (R345): header, lap 2, pick [15:0], segment, words; `parity`: the engine's internal parity fails (R431). -/
  | audioFrame (h : WHdr) (lap2 : Bool) (pick : Half) (seg : Fin 32) (ws : List Word) (parity : Bool)
  /-- EVENT_FRAME (R348): 1 to 16 events. -/
  | eventFrame (h : WHdr) (events : List (BitVec 128))
  /-- PASS_FRAME (R138). -/
  | passFrame (h : WHdr) (p : PassMsg)
  /-- PASS_ANSWER (R139): kind 1 PLACED, 2 EXHAUSTED, others discarded; `layers`: the mask of unplaced layers (R350). -/
  | passAnswerFrame (h : WHdr) (tag : Half) (kind layers : Byte)
  /-- TUNNEL_START (R349): a write of WFT_TUN_CTL with start set. -/
  | tunnelStart (m : Master) (v : Word)
  /-- TUNNEL_ABORT (R349): a write of WFT_TUN_CTL with abort set. -/
  | tunnelAbort (m : Master) (v : Word)
  /-- TUNNEL_REQUEST_FRAME (R349): header, tag, write, offset in the peripheral region, data. -/
  | tunnelRequestFrame (h : WHdr) (tag : Half) (write : Bool) (o : BitVec 26) (data : Word)
  /-- TUNNEL_RESPONSE (R349). -/
  | tunnelResponse (h : WHdr) (tag : Half) (err : Bool) (data : Word)
  /-- TUNNEL_TIMEOUT (R349). -/
  | tunnelTimeout
  /-- UNWRAP (R353): a write of WFT_CTL with unwrap set. -/
  | unwrap (m : Master)
  /-- AUTO_UNWRAP (R353). -/
  | autoUnwrap
  /-- UNWRAP_COMMAND (R353): the frame names a pick. -/
  | unwrapCommand (h : WHdr) (pick : Long)
  /-- BOOT_FRAME (R354): block number, blocks in all, bytes; whether it ends a round. -/
  | bootFrame (h : WHdr) (block count : Half) (bytes : List Byte) (last : Bool)
  /-- BOOT_RESEND_REQUEST (R354): the blocks that a booting node missed. -/
  | bootResendRequest (h : WHdr) (blocks : List Half)
  /-- CTRL (R363): a write of a voice's CTRL on the port of an engine. -/
  | ctrl (i : Fin 4) (v : Byte)
  /-- DV32_TIMED_REGISTER_WRITE (R364): port address, byte. -/
  | dv32TimedRegisterWrite (i : Fin 4) (a : BitVec 6) (v : Byte)
  /-- GCTRL (R363). -/
  | gctrl (i : Fin 4) (v : Byte)
  /-- ENDF (R371): one of the four ENDF bytes. -/
  | endf (i : Fin 4) (k : Fin 4) (v : Byte)
  /-- PAGE (R363). -/
  | page (i : Fin 4) (v : Byte)
  /-- LEGACY_IGNORED_WRITE (R363). -/
  | legacyIgnoredWrite (i : Fin 4) (a : BitVec 6) (v : Byte)
  /-- POS0 (R362): a read of POS0. -/
  | pos0 (i : Fin 4)
  /-- LEG_TBL_DATA_READ (R358). -/
  | legTblDataRead (m : Master)
  /-- POWER_ON (R375): the boot flash's bytes, its size, whether it has valid SFDP, VIN in mV, input current in mA. -/
  | powerOn (flash : List Byte) (size : Nat) (sfdp : Bool) (vin iin : Half)
  /-- RST_N (R454): low for at least 1 µs. -/
  | rstN
  /-- COMPUTE_RESET_RELEASE (R376). -/
  | computeResetRelease (r : Release)
  /-- BOOT_LEN_WRITE (R378). -/
  | bootLenWrite (m : Master) (v : Word)
  /-- SOFTWARE_CHIP_RESET (R375): a write of SYS_RST. -/
  | softwareChipReset (m : Master) (v : Word)
  /-- MP_RESET (R375): a write of SYS_RST; `n` bursts of the MP are accepted and not complete. -/
  | mpReset (m : Master) (v : Word) (n : Byte)
  /-- PCIE_RESET (R375): `n` bursts are accepted and not complete. -/
  | pcieReset (n : Byte)
  /-- WATCHDOG_EXPIRE (R406). -/
  | watchdogExpire (n : Byte)
  /-- KICK (R406). -/
  | kick (m : Master) (v : Word)
  /-- CFG_LOCK (R5): a write of SYS_CTL. -/
  | cfgLock (m : Master) (v : Word)
  /-- WRITE (R391): SPI, address, words, a partial last word. -/
  | write (a : BitVec 40) (words : List Word) (part : Bool)
  /-- READ (R391): SPI, address, words, the word that is not ready in time, what the ECC check finds. -/
  | read (a : BitVec 40) (n : Nat) (late : Option Nat) (e : Machine.Ecc)
  /-- STATUS (R392). -/
  | status
  /-- ERR_CLR (R391). -/
  | errClr
  /-- EVENT_PUSH (R391): complete events, and a partial last one. -/
  | eventPush (events : List (BitVec 128)) (part : Bool)
  /-- SPI_BAD_COMMAND (R391). -/
  | spiBadCommand
  /-- BAR0_TLP (R395): offset. -/
  | bar0Tlp (o : BitVec 26) (x : Tlp)
  /-- DOORBELL_WRITE (R396): offset in the doorbell, DWORDs. -/
  | doorbellWrite (o : BitVec 12) (dwords : List (Word × BitVec 4))
  /-- DOORBELL_CLEAR (R396): a write of HIF_DB_STAT. -/
  | doorbellClear (m : Master) (v : Word)
  /-- BAR2_TLP (R397): offset in the aperture, what it does, what the ECC check finds. -/
  | bar2Tlp (a : BitVec 30) (x : Xact) (e : Machine.Ecc)
  /-- MSIX_UNMASK (R398). -/
  | msixUnmask (v : Fin 8)
  /-- COMMAND_CLAIM (R401). -/
  | commandClaim
  /-- MAILBOX_TIMEOUT (R401). -/
  | mailboxTimeout
  /-- MAILBOX_CANCEL (R402): the next safe point of a cancelled command, with the sectors programmed or bytes written by then. -/
  | mailboxCancel (work : Nat)
  /-- PING (R402). -/
  | ping
  /-- SELFTEST_REPORT (R447). -/
  | selftestReport
  /-- WEFT_STATUS (R402). -/
  | weftStatus
  /-- SAMPLE_LOAD (R402). -/
  | sampleLoad
  /-- VOICE_QUERY (R140). -/
  | voiceQuery
  /-- PART_QUERY (R140). -/
  | partQuery
  /-- HARNESS_QUERY (R140). -/
  | harnessQuery
  /-- STATS_SNAPSHOT (R402). -/
  | statsSnapshot
  /-- PATCH_APPLY (R403). -/
  | patchApply
  /-- FLASH_READ (R402). -/
  | flashRead
  /-- FLASH_PROGRAM (R402): the sector whose erase, program or verify fails. -/
  | flashProgram (fail : Option Nat)
  /-- UNLOCK_CHALLENGE (R447). -/
  | unlockChallenge
  /-- UNLOCK_RESPONSE (R447). -/
  | unlockResponse
  /-- RESET (R402). -/
  | reset
  /-- MAILBOX_RESET_EXPIRE (R402): 1 ms after the completion point of RESET. -/
  | mailboxResetExpire
  /-- BAD_OPCODE (R402). -/
  | badOpcode
  /-- UVLO_FALL (R407). -/
  | uvloFall
  /-- OVER_VOLTAGE (R407). -/
  | overVoltage
  /-- RAIL_START_TIMEOUT (R410): a rail is not good in time. -/
  | railStartTimeout
  /-- SWITCHING_LOCK (R412). -/
  | switchingLock
  /-- CURRENT_LIMIT (R415). -/
  | currentLimit
  /-- PHASE_FAILURE (R416). -/
  | phaseFailure (p : Fin 4)
  /-- BROWN_OUT (R417). -/
  | brownOut (t : Long)
  /-- BROWN_OUT_RECOVERY (R417): VIN has been good for 1 ms at `t`. -/
  | brownOutRecovery (t : Long)
  /-- BROWN_OUT_SHUTDOWN (R417): the end of PWR_HOLD. -/
  | brownOutShutdown
  /-- BROWN_OUT_REPOWER (R417). -/
  | brownOutRepower
  /-- THERMAL_SAMPLE (R418): the six sensors in 1/16 °C, VIN in mV, input current in mA, VCORE in mV. -/
  | thermalSample (s0 s1 s2 s3 s4 s5 : Half) (vin iin vcore : Half)
  /-- T3_RESUME (R419). -/
  | t3Resume
  /-- SAFE_STATE_AUTO_RESET (R432): 10 ms after the entry. -/
  | safeStateAutoReset
  /-- UNQUARANTINE (R430): a write of REL_CTL. -/
  | unquarantine (m : Master) (v : Word)
  /-- CHALLENGE (R441): a write of SEC_UNLK with chal set. -/
  | challenge (m : Master) (v : Word)
  /-- SUBMIT (R441): a write of SEC_UNLK with submit set. -/
  | submit (m : Master) (v : Word)
  /-- NONCE_EXPIRE (R442). -/
  | nonceExpire
  /-- LOCKOUT_END (R442). -/
  | lockoutEnd
  /-- TRNG_HEALTH_FAIL (R438). -/
  | trngHealthFail
  /-- JTAG_INSTRUCTION_LOAD (R446). -/
  | jtagInstructionLoad (code : Byte)
  /-- TRST_N (R446). -/
  | trstN
  /-- DRAM_ALERT (R431): loss of PHY lock, or a device alert on CA parity. -/
  | dramAlert
  /-- OVER_VOLTAGE_RELEASE (R407). -/
  | overVoltageRelease
  /-- VIN_GOOD (R417): VIN has risen above the brown-out threshold + 0.2 V at `t`. -/
  | vinGood (t : Long)
  /-- RAIL_RETRY (R410). -/
  | railRetry
  /-- TRNG_RECOVERY (R438). -/
  | trngRecovery
  /-- PCIE_LINK_CHANGE (R394): up, generation, width, L1, Bus Master Enable. -/
  | pcieLinkChange (up : Bool) (gen width : BitVec 2) (l1 bme : Bool)
  /-- RESERVED_CLASS_FRAME (R340): a reserved class or a nonzero reserved field. -/
  | reservedFrame (h : WHdr)
deriving DecidableEq, Repr

end Sys2Proof
end

