-- ==== Sys2Proof/Decode.lean ====
section
/-! DEFINITION. The words of the opcode table: its rows have no bits, so no word spells a command. After it, the shuttle's own
encodings (chapter 09): the 32-bit words of slots M0 and M1, X and C, and the bundle that holds them (R235–R254). -/

namespace Sys2Proof

/-- The command that a word of the table's bits spells: none, for no row of the table has bits. -/
def decodeTableWord (_nbits _w : Nat) : Option Instr := none

open Machine

/-- One bit. -/
def bit1 (x : Bool) : BitVec 1 := BitVec.ofBool x

/-! ### Slots M0 and M1 (R237–R243) -/

/-- Format A after its opcode (R238). -/
def encodeFmtA (f : FmtA) : BitVec 27 := f.d ++ f.p ++ f.m ++ bit1 f.a ++ f.post ++ f.imm
/-- The fields of Format A. -/
def decodeFmtA (w : Word) : FmtA :=
  { d := w.extractLsb' 22 5, p := w.extractLsb' 18 4, m := w.extractLsb' 14 4, a := w.getLsbD 13, post := w.extractLsb' 11 2
    imm := w.extractLsb' 0 11 }

/-- The opcode of a load. -/
def Load.code : Load → BitVec 5
  | .word => 1
  | .half => 2
  | .halfU => 3
  | .byte => 4
  | .pair => 5
/-- The opcode of a store. -/
def StoreKind.code : StoreKind → BitVec 5
  | .word => 6
  | .half => 7
  | .byte => 8
  | .pair => 9

/-- The word of an instruction of slot M0 or M1. What the ECC check finds is no part of it. -/
def encodeM : MOp → Word
  | .nop => 0
  | .load k f _ => Load.code k ++ encodeFmtA f
  | .store k f _ => StoreKind.code k ++ encodeFmtA f
  | .srd d f w inc _ => (0x0A : BitVec 5) ++ d ++ f ++ bit1 w ++ bit1 inc ++ (0 : BitVec 15)
  | .ldl l p size _ => (0x0B : BitVec 5) ++ l ++ p ++ size ++ (0 : BitVec 16)
  | .stl l p size _ => (0x0C : BitVec 5) ++ l ++ p ++ size ++ (0 : BitVec 16)
  | .snd v t lane inc => (0x0D : BitVec 5) ++ v ++ t ++ lane ++ bit1 inc ++ (0 : BitVec 12)
  | .padd k j cls imm => (0x0E : BitVec 5) ++ k ++ j ++ bit1 cls ++ imm
  | .pmov d k dir => (0x0F : BitVec 5) ++ d ++ k ++ dir ++ (0 : BitVec 16)
  | .pli k cls imm => (0x10 : BitVec 5) ++ k ++ bit1 cls ++ imm

/-- The instruction that the fields of an M word name; a reserved opcode gives NOP. -/
def fieldsM (w : Word) : MOp :=
  match (w.extractLsb' 27 5).toNat with
  | 1 => .load .word (decodeFmtA w) .clean
  | 2 => .load .half (decodeFmtA w) .clean
  | 3 => .load .halfU (decodeFmtA w) .clean
  | 4 => .load .byte (decodeFmtA w) .clean
  | 5 => .load .pair (decodeFmtA w) .clean
  | 6 => .store .word (decodeFmtA w) .clean
  | 7 => .store .half (decodeFmtA w) .clean
  | 8 => .store .byte (decodeFmtA w) .clean
  | 9 => .store .pair (decodeFmtA w) .clean
  | 0x0A => .srd (w.extractLsb' 22 5) (w.extractLsb' 17 5) (w.getLsbD 16) (w.getLsbD 15) .clean
  | 0x0B => .ldl (w.extractLsb' 22 5) (w.extractLsb' 18 4) (w.extractLsb' 16 2) .clean
  | 0x0C => .stl (w.extractLsb' 22 5) (w.extractLsb' 18 4) (w.extractLsb' 16 2) .clean
  | 0x0D => .snd (w.extractLsb' 22 5) (w.extractLsb' 17 5) (w.extractLsb' 13 4) (w.getLsbD 12)
  | 0x0E => .padd (w.extractLsb' 23 4) (w.extractLsb' 19 4) (w.getLsbD 18) (w.extractLsb' 0 18)
  | 0x0F => .pmov (w.extractLsb' 22 5) (w.extractLsb' 18 4) (w.extractLsb' 16 2)
  | 0x10 => .pli (w.extractLsb' 23 4) (w.getLsbD 22) (w.extractLsb' 0 22)
  | _ => .nop

/-- The instruction of an M word: none for a reserved opcode or field value, or a nonzero bit that the format marks as zero (R254). -/
def decodeM (w : Word) : Option MOp :=
  let op := fieldsM w
  if op.ok ∧ encodeM op = w then some op else none

/-! ### Slot X (R244) -/

/-- The word of an instruction of slot X. -/
def encodeX : XOp → Word
  | .nop => 0
  | .cmac pair acc neg conj zx zy => (1 : BitVec 5) ++ bit1 pair ++ bit1 acc ++ bit1 neg ++ bit1 conj ++ zx ++ zy ++ (0 : BitVec 15)
  | .rmac a acc neg x y => (2 : BitVec 5) ++ a ++ bit1 acc ++ bit1 neg ++ x ++ y ++ (0 : BitVec 13)
  | .rmac2 a b negA negB acc x y u v => (3 : BitVec 5) ++ a ++ b ++ bit1 negA ++ bit1 negB ++ bit1 acc ++ x ++ y ++ u ++ v
  | .ext d a s z => (4 : BitVec 5) ++ d ++ a ++ s ++ bit1 z ++ (0 : BitVec 15)
  | .accset a x => (5 : BitVec 5) ++ a ++ x ++ (0 : BitVec 20)

/-- The instruction that the fields of an X word name; a reserved opcode gives NOP. -/
def fieldsX (w : Word) : XOp :=
  match (w.extractLsb' 27 5).toNat with
  | 1 => .cmac (w.getLsbD 26) (w.getLsbD 25) (w.getLsbD 24) (w.getLsbD 23) (w.extractLsb' 19 4) (w.extractLsb' 15 4)
  | 2 => .rmac (w.extractLsb' 25 2) (w.getLsbD 24) (w.getLsbD 23) (w.extractLsb' 18 5) (w.extractLsb' 13 5)
  | 3 => .rmac2 (w.extractLsb' 25 2) (w.extractLsb' 23 2) (w.getLsbD 22) (w.getLsbD 21) (w.getLsbD 20) (w.extractLsb' 15 5)
      (w.extractLsb' 10 5) (w.extractLsb' 5 5) (w.extractLsb' 0 5)
  | 4 => .ext (w.extractLsb' 22 5) (w.extractLsb' 20 2) (w.extractLsb' 16 4) (w.getLsbD 15)
  | 5 => .accset (w.extractLsb' 25 2) (w.extractLsb' 20 5)
  | _ => .nop

/-- The instruction of an X word (R254). -/
def decodeX (w : Word) : Option XOp :=
  let op := fieldsX w
  if op.ok ∧ encodeX op = w then some op else none

/-! ### Slot C (R245–R253) -/

/-- The func code of an ALU function (R245). -/
def AluFn.code : AluFn → BitVec 5
  | .add => 0
  | .sub => 1
  | .adds => 2
  | .subs => 3
  | .and => 4
  | .or => 5
  | .xor => 6
  | .shl => 7
  | .shr => 8
  | .asr => 9
  | .min => 10
  | .max => 11
  | .abs => 12
  | .mul16 => 13

/-- The fn code of a shaper function (R221). -/
def shaperCode : ShpFn → BitVec 3
  | .exp2 => 0
  | .sin => 1
  | .tanh => 2
  | .sclip => 3
  | .blep => 4
  | .blamp => 5
  | .win => 6
  | .reserved => 7

/-- The shaper function of a code. -/
def shaperOf (c : BitVec 3) : ShpFn :=
  match c.toNat with
  | 0 => .exp2
  | 1 => .sin
  | 2 => .tanh
  | 3 => .sclip
  | 4 => .blep
  | 5 => .blamp
  | 6 => .win
  | _ => .reserved

/-- A C word of a destination, an operand and an immediate. -/
def encodeImm (op : BitVec 6) (d a : BitVec 5) (imm : BitVec 16) : Word := op ++ d ++ a ++ imm

/-- The word of an instruction of slot C. -/
def encodeC : COp → Word
  | .nop => 0
  | .alu fn d a b => (1 : BitVec 6) ++ d ++ a ++ b ++ AluFn.code fn ++ (0 : BitVec 6)
  | .cmp a b => (1 : BitVec 6) ++ (0 : BitVec 5) ++ a ++ b ++ (14 : BitVec 5) ++ (0 : BitVec 6)
  | .mov d a => (1 : BitVec 6) ++ d ++ a ++ (0 : BitVec 5) ++ (15 : BitVec 5) ++ (0 : BitVec 6)
  | .addi d a imm => encodeImm 2 d a imm
  | .andi d a imm => encodeImm 3 d a imm
  | .ori d a imm => encodeImm 4 d a imm
  | .xori d a imm => encodeImm 5 d a imm
  | .shi d a kind amount => (6 : BitVec 6) ++ d ++ a ++ kind ++ amount ++ (0 : BitVec 9)
  | .cmpi a imm => encodeImm 7 0 a imm
  | .ldi d imm => (8 : BitVec 6) ++ d ++ imm
  | .ldhi d imm => encodeImm 9 d 0 imm
  | .sel d a b cond => (0x0A : BitVec 6) ++ d ++ a ++ b ++ cond ++ (0 : BitVec 7)
  | .shp fn d x => (0x0B : BitVec 6) ++ d ++ x ++ shaperCode fn ++ (0 : BitVec 13)
  | .movx dst src dcls scls => (0x0C : BitVec 6) ++ dst ++ src ++ dcls ++ scls ++ (0 : BitVec 8)
  | .setbl k len imm => (0x0D : BitVec 6) ++ k ++ bit1 len ++ imm
  | .br cond target => (0x10 : BitVec 6) ++ cond ++ (0 : BitVec 9) ++ target
  | .call d target => (0x11 : BitVec 6) ++ d ++ (0 : BitVec 8) ++ target
  | .brd a => encodeImm 0x12 0 a 0
  | .rep n => (0x13 : BitVec 6) ++ (0 : BitVec 15) ++ n
  | .repd a => encodeImm 0x14 0 a 0
  | .loop n off => (0x15 : BitVec 6) ++ n ++ off
  | .loopd a off => (0x16 : BitVec 6) ++ (0 : BitVec 5) ++ a ++ (0 : BitVec 6) ++ off
  | .waitl n => (0x17 : BitVec 6) ++ (0 : BitVec 23) ++ n
  | .done e => (0x18 : BitVec 6) ++ (0 : BitVec 25) ++ bit1 e
  | .draw => (0x19 : BitVec 6) ++ (0 : BitVec 26)
  | .rte => (0x1A : BitVec 6) ++ (0 : BitVec 26)

/-- The instruction of opcode 0x01 with a func code; a reserved func gives NOP. -/
def fieldsAlu (func : Nat) (d a b : BitVec 5) : COp :=
  match func with
  | 0 => .alu .add d a b
  | 1 => .alu .sub d a b
  | 2 => .alu .adds d a b
  | 3 => .alu .subs d a b
  | 4 => .alu .and d a b
  | 5 => .alu .or d a b
  | 6 => .alu .xor d a b
  | 7 => .alu .shl d a b
  | 8 => .alu .shr d a b
  | 9 => .alu .asr d a b
  | 10 => .alu .min d a b
  | 11 => .alu .max d a b
  | 12 => .alu .abs d a b
  | 13 => .alu .mul16 d a b
  | 14 => .cmp a b
  | 15 => .mov d a
  | _ => .nop

/-- The instruction that the fields of a C word name; a reserved opcode gives NOP. -/
def fieldsC (w : Word) : COp :=
  let d := w.extractLsb' 21 5
  let a := w.extractLsb' 16 5
  let imm := w.extractLsb' 0 16
  match (w.extractLsb' 26 6).toNat with
  | 1 => fieldsAlu (w.extractLsb' 6 5).toNat d a (w.extractLsb' 11 5)
  | 2 => .addi d a imm
  | 3 => .andi d a imm
  | 4 => .ori d a imm
  | 5 => .xori d a imm
  | 6 => .shi d a (w.extractLsb' 14 2) (w.extractLsb' 9 5)
  | 7 => .cmpi a imm
  | 8 => .ldi d (w.extractLsb' 0 21)
  | 9 => .ldhi d imm
  | 0x0A => .sel d a (w.extractLsb' 11 5) (w.extractLsb' 7 4)
  | 0x0B => .shp (shaperOf (w.extractLsb' 13 3)) d a
  | 0x0C => .movx d a (w.extractLsb' 12 4) (w.extractLsb' 8 4)
  | 0x0D => .setbl (w.extractLsb' 23 3) (w.getLsbD 22) (w.extractLsb' 0 22)
  | 0x10 => .br (w.extractLsb' 22 4) (w.extractLsb' 0 13)
  | 0x11 => .call d (w.extractLsb' 0 13)
  | 0x12 => .brd a
  | 0x13 => .rep (w.extractLsb' 0 11)
  | 0x14 => .repd a
  | 0x15 => .loop (w.extractLsb' 10 16) (w.extractLsb' 0 10)
  | 0x16 => .loopd a (w.extractLsb' 0 10)
  | 0x17 => .waitl (w.extractLsb' 0 3)
  | 0x18 => .done (w.getLsbD 0)
  | 0x19 => .draw
  | 0x1A => .rte
  | _ => .nop

/-- The instruction of a C word (R254). -/
def decodeC (w : Word) : Option COp :=
  let op := fieldsC w
  if op.ok ∧ encodeC op = w then some op else none

/-! ### Bundles (R235) -/

/-- The four slots of a bundle. -/
structure Bundle where
  m0 : MOp
  m1 : MOp
  x : XOp
  c : COp
deriving DecidableEq, Repr

/-- The 128 bits of a bundle: M0 in [31:0], M1 in [63:32], X in [95:64], C in [127:96]. -/
def encodeBundle (b : Bundle) : BitVec 128 := encodeC b.c ++ encodeX b.x ++ encodeM b.m1 ++ encodeM b.m0

/-- The slots of a bundle's bits: none for an illegal bundle. -/
def decodeBundle (w : BitVec 128) : Option Bundle :=
  match decodeM (w.extractLsb' 0 32), decodeM (w.extractLsb' 32 32), decodeX (w.extractLsb' 64 32), decodeC (w.extractLsb' 96 32) with
  | some m0, some m1, some x, some c => some ⟨m0, m1, x, c⟩
  | _, _, _, _ => none

end Sys2Proof
end

