-- ==== Sys2Proof/Config.lean ====
section
/-! DEFINITION. The free values: what the spec leaves open while the engine goes on. Each is a constant without a body, so no
proof can see a value of it; each is named in a log entry (notes/assumptions). -/

namespace Sys2Proof

/-- What TBU_CAPn_VAL holds once a read has emptied it (R45 gives no value): the unit, the value read. -/
opaque Config.capAfterRead : Nat → Long → Long

/-- Whether a quotient that is not whole is rounded up, where the spec states the quotient and not its rounding (numerator,
denominator). -/
opaque Config.roundsUp : Int → Nat → Bool

/-- d_gov with no load shuttle left, where the quotient of R413 has no value (its numerator). -/
opaque Config.governorIdle : Int → Int

/-- The mask ROM's contents (boot code, resident firmware, vendor programs, shaper tables): the byte at an offset. -/
opaque Config.romByte : Nat → Byte

/-- The vendor code and its program table in instruction memory, which are mask ROM contents: the byte at an offset. -/
opaque Config.vendorByte : Nat → Byte

/-- The entry bundle of a ROM program (its low 13 bits count). -/
opaque Config.romEntry : Nat → Nat

/-- Where the shaper's EXP2, SIN, TANH and SCLIP come to lie within the errors that R221 states: the function's code and the argument. -/
opaque Config.shaper : Nat → Word → Word

/-- An entry of the shaper's kernel tables BLEP, BLAMP and WIN (R153, R164, R221), which are mask ROM contents: the function's code, the
phase (0–512), the tap. -/
opaque Config.kernel : Nat → Nat → Nat → Word

/-- EADDR of a faulting SND, which has no address (R206, R242): the value of Dt. -/
opaque Config.sndAddr : Word → Word

/-- Where the stream pool of a shuttle's harness holds a frame that it reads (R215, R428): the pool's layout is open. -/
opaque Config.poolAddr : Nat → Word → Nat

/-- Whether a pending LDL has brought a word when a load reads it (R217): by shuttle, bundle, local address and the LDL's loom address. -/
opaque Config.loadedEarly : Nat → Nat → Nat → Nat → Bool

/-- Whether a store is made though the word it must read first, its own or its source, has an uncorrectable error (R227), by address. -/
opaque Config.storedOnError : Nat → Bool

/-- The resident firmware's load in percent at a cycle, and the highest since SYS_MPLOAD was read (R404). -/
opaque Config.mpLoad : Nat → Nat
opaque Config.mpPeak : Nat → Nat

/-- Whether a channel is one that has not completed a pick's window fetches, where one has not (R327), and the share of a pick in which a channel
was busy, by pick and channel. -/
opaque Config.channelLate : Nat → Nat → Bool
opaque Config.channelBusy : Nat → Nat → Nat

/-- The word of a send buffer where the sum of two sends falls outside Q1.31 (R218). -/
opaque Config.sendOver : Word → Word → Word

/-- How many frames a stream window holds before and after those that R158 asks for, within its two extra bursts: the position (32.32),
true for those after. -/
opaque Config.windowExtra : Nat → Bool → Nat

/-- Which window a DV32 read outside both is clamped to (R215, R369), true the second: the flow, the pick, the address. -/
opaque Config.dvClampWindow : Nat → Nat → Nat → Bool

/-- A value drawn from the voice seed (R166, R196, R197, R200), where the spec does not say in which order draws are made: the seed,
what it is for, and the count of such draws. -/
opaque Config.draw : Nat → Nat → Nat → Word

/-- A pink noise sample (R166), whose filter the spec does not print: the seed, the sample's number. -/
opaque Config.pink : Nat → Nat → Word

/-- How far ORGAN percussion has decayed (R168), whose course the spec does not give: internal samples since the start, and the length. -/
opaque Config.percussion : Nat → Nat → Int

/-- What a ROM voice program keeps in its own bytes of a state half (R213): voice, pick, byte. -/
opaque Config.progByte : Nat → Nat → Nat → Byte

/-- A word of a ROM bus program's return (R262, R263), whose signal path the spec does not print: loom and bus (bus × 4 + loom), pick,
and 2,048 × (0 a return, 1 what enters a delay line) + 1,024 × channel + word. -/
opaque Config.busWord : Nat → Nat → Nat → Word

/-- A byte of a ROM bus program's state area (R259): loom and bus, pick, byte. -/
opaque Config.busByte : Nat → Nat → Nat → Byte

/-- The declared cost of a BIST step (R95, R434), at most 4,096 cycles (R89). -/
opaque Config.bistCost : Nat → Nat

/-- The energy class of a housekeeping or BIST program (R233), which the spec does not give (modulo 8). -/
opaque Config.bistClass : Nat → Nat

/-- The coefficient ROM (R267), whose contents the spec does not print: set, part, tap, within a stage's length. -/
opaque Config.coef : Nat → Nat → Nat → Word

/-- A faded output word (R30, R31, R417, R419), whose curve the spec does not give: the word, and its place in the fade. -/
opaque Config.fadeWord : Word → Nat → Nat → Word

/-- The words that the TRNG delivers (R438), in order. -/
opaque Config.trngWord : Nat → Word

/-- What a DRAM byte written before a compute-die reset reads as after it (R325): the number of the reset, the address. -/
opaque Config.dramNoise : Nat → Nat → Byte

/-- Whether an MPFW section passes the checks of the boot ROM, whose format and key are not disclosed (R389). -/
opaque Config.mpfwOk : List Byte → Bool

/-- The resident firmware's version and patch level (R402), which the spec does not give: with the length of the patch in force. -/
opaque Config.firmware : Nat → Long

/-- What a flash byte reads as in a sector whose erase, program or verify has failed (R402): address, the byte meant. -/
opaque Config.flashFault : Nat → Byte → Byte

/-- The name in a bulk tuning dump (R148), which the spec does not give: table, position. -/
opaque Config.mtsName : Nat → Nat → Byte

end Sys2Proof
end

