-- ==== Sys2Proof/Machine/Bits.lean ====
section
/-! DEFINITION. Bit fields, sign extension, saturation and byte order (R8, R9), written once. -/

namespace Sys2Proof.Machine

/-- Bits [hi:lo] of a number. -/
def bitsOf (x hi lo : Nat) : Nat := x / 2 ^ lo % 2 ^ (hi + 1 - lo)

/-- Add to a list without repeats. -/
def addNew (x : Nat) (l : List Nat) : List Nat := if l.contains x then l else l ++ [x]

/-- The number whose little-endian bytes are `l` (R8). -/
def leNat : List Byte → Nat
  | [] => 0
  | x :: l => x.toNat + 256 * leNat l

/-- The `n` little-endian bytes of a number (R8). -/
def leBytes : Nat → Nat → List Byte
  | 0, _ => []
  | n + 1, x => BitVec.ofNat 8 x :: leBytes n (x / 256)

/-- The number whose big-endian bytes are `l`: the signature and the public key (R8). -/
def beNat (l : List Byte) : Nat := leNat l.reverse

/-- Saturation of an exact integer to a signed width. -/
def satInt (w : Nat) (x : Int) : Int :=
  if x < -(2 ^ (w - 1) : Nat) then -(2 ^ (w - 1) : Nat)
  else if (2 ^ (w - 1) : Nat) - 1 < x then (2 ^ (w - 1) : Nat) - 1
  else x

/-- Whether a saturation to a signed width changes the value. -/
def satHits (w : Nat) (x : Int) : Bool := satInt w x != x

/-- The word of an exact integer saturated to 32 bits. -/
def sat32 (x : Int) : Word := BitVec.ofInt 32 (satInt 32 x)

/-- Arithmetic shift right of an exact integer, toward minus infinity. -/
def asr (x : Int) (n : Nat) : Int := x / (2 ^ n : Nat)

/-- Shift right with rounding to nearest, a half rounded up. -/
def roundShr (x : Int) (n : Nat) : Int :=
  if n = 0 then x else (x + (2 ^ (n - 1) : Nat)) / (2 ^ n : Nat)

/-- Ceiling division. -/
def ceilDiv (a b : Nat) : Nat := (a + b - 1) / b

/-- The least multiple of `m` at or above `a`. -/
def ceilMul (a m : Nat) : Nat := ceilDiv a m * m

/-- Order of number lists, first difference first. -/
def lexLe : List Nat → List Nat → Bool
  | [], _ => true
  | _, [] => false
  | x :: xs, y :: ys => if x < y then true else if y < x then false else lexLe xs ys

/-- Sum of a list. -/
def sumNat (l : List Nat) : Nat := l.foldl (· + ·) 0

/-- The min-centre-max scaling of R69: a value of `n` bits about its centre 2^(n-1) to `w` bits. Above the centre the low bits are
filled by repeating the low n - 1 bits of the value, most significant first. -/
def scaleUp (n w : Nat) (v : Nat) : Nat :=
  let up := v * 2 ^ (w - n)
  if v ≤ 2 ^ (n - 1) then up
  else
    let rep := v % 2 ^ (n - 1)
    -- enough repetitions of the low n - 1 bits to cover w - n bits, cut at the low end
    let k := (w - n) / (n - 1) + 1
    let long := (List.range k).foldl (fun acc _ => acc * 2 ^ (n - 1) + rep) 0
    up + long / 2 ^ (k * (n - 1) - (w - n))

/-- Insert into a list ordered by a key, after its equals. -/
def insertBy {α : Type} (le : α → α → Bool) (x : α) : List α → List α
  | [] => [x]
  | y :: l => if le y x then y :: insertBy le x l else x :: y :: l

/-- Stable insertion sort. -/
def sortBy {α : Type} (le : α → α → Bool) (l : List α) : List α :=
  l.foldl (fun acc x => insertBy le x acc) []

/-- Replace the element at an index. -/
def setAt {α : Type} : List α → Nat → α → List α
  | [], _, _ => []
  | _ :: l, 0, v => v :: l
  | x :: l, n + 1, v => x :: setAt l n v

end Sys2Proof.Machine
end

