-- ==== Sys2Proof/Machine/FMap.lean ====
section
/-! DEFINITION. Finite maps as plain data: a list of (key, value) pairs with keys strictly rising and no entry equal to what
an unlisted key reads as. Registers, memory, voices and the tables of the engine are such maps, so equal contents are equal data. -/

namespace Sys2Proof.Machine

/-- A map from Nat keys; what an unlisted key reads as is an argument of each operation. -/
abbrev FMap (α : Type) := List (Nat × α)

/-- The value at `k`; `d k` where the map lists none. -/
def FMap.get {α : Type} (d : Nat → α) : FMap α → Nat → α
  | [], k => d k
  | (a, v) :: m, k => if a = k then v else FMap.get d m k

/-- The map without its entry at `k`. -/
def FMap.del {α : Type} : FMap α → Nat → FMap α
  | [], _ => []
  | (a, v) :: m, k => if a = k then FMap.del m k else (a, v) :: FMap.del m k

/-- The entry `(k, v)` put before the first key above `k`. -/
def FMap.ins {α : Type} (k : Nat) (v : α) : FMap α → FMap α
  | [] => [(k, v)]
  | (a, w) :: m => if k < a then (k, v) :: (a, w) :: m else (a, w) :: FMap.ins k v m

/-- The map with `v` at `k`; writing what an unlisted `k` reads as removes the entry. -/
def FMap.set {α : Type} [DecidableEq α] (d : Nat → α) (m : FMap α) (k : Nat) (v : α) : FMap α :=
  if v = d k then FMap.del m k else FMap.ins k v (FMap.del m k)

/-- Write the listed pairs, first to last. -/
def FMap.setAll {α : Type} [DecidableEq α] (d : Nat → α) (m : FMap α) (l : List (Nat × α)) : FMap α :=
  l.foldl (fun acc kv => FMap.set d acc kv.1 kv.2) m

/-- Keys strictly rising, all above `lo`. -/
def FMap.rising {α : Type} : Nat → FMap α → Bool
  | _, [] => true
  | lo, (a, _) :: m => decide (lo ≤ a) && FMap.rising (a + 1) m

/-- No entry equal to what its key reads as when unlisted. -/
def FMap.lean {α : Type} [DecidableEq α] (d : Nat → α) (m : FMap α) : Bool :=
  m.all fun kv => decide (kv.2 ≠ d kv.1)

/-- The canonical form. -/
def FMap.wf {α : Type} [DecidableEq α] (d : Nat → α) (m : FMap α) : Bool :=
  FMap.rising 0 m && FMap.lean d m

end Sys2Proof.Machine
end

