-- ==== Sys2Proof/Machine/Regs.lean ====
section
/-! DEFINITION. The registers of the engine, from the register sections of every chapter of spec/ (addresses R2, access codes
R5): one address constant per register (a function of the index where a register has several), one field constant per field,
and one table row per register that holds its access masks and its reset value. A 64-bit register pair is one entry at the
address of its low word (R7). -/

namespace Sys2Proof.Machine

/-- A field of a register: the register's address and the field's bits [hi:lo]. -/
structure Fld where
  addr : Nat
  hi : Nat
  lo : Nat
deriving DecidableEq, Repr

/-- One register kind: where it lies (`count` registers, `stride` bytes apart), whether it is a 64-bit pair, its reset value
and which of its bits have which access code of R5. Bits in no mask are reserved (R4). -/
structure RegDesc where
  base : Nat
  stride : Nat
  count : Nat
  wide : Bool
  reset : Nat
  rw : Nat
  rwl : Nat
  w1c : Nat
  w1s : Nat
  rc : Nat
  wo : Nat
  ro : Nat
deriving DecidableEq, Repr

/-! ### TBU (spec/02_time_base.md) -/
/-- TBU_REF_CFG. -/
def TBU_REF_CFG : Nat := 0x40100000
def TBU_REF_CFG_src : Fld := ⟨TBU_REF_CFG, 1, 0⟩
def TBU_REF_CFG_sap : Fld := ⟨TBU_REF_CFG, 4, 2⟩
def TBU_REF_CFG_rate : Fld := ⟨TBU_REF_CFG, 7, 5⟩
def TBU_REF_CFG_auto_rate : Fld := ⟨TBU_REF_CFG, 8, 8⟩
def TBU_REF_CFG_fall : Fld := ⟨TBU_REF_CFG, 9, 9⟩
/-- TBU_REF_STAT. -/
def TBU_REF_STAT : Nat := 0x40100004
def TBU_REF_STAT_state : Fld := ⟨TBU_REF_STAT, 2, 0⟩
def TBU_REF_STAT_det_rate : Fld := ⟨TBU_REF_STAT, 10, 8⟩
def TBU_REF_STAT_d_rate : Fld := ⟨TBU_REF_STAT, 26, 16⟩
/-- TBU_REF_CNT. -/
def TBU_REF_CNT : Nat := 0x40100008
def TBU_REF_CNT_glitches : Fld := ⟨TBU_REF_CNT, 15, 0⟩
def TBU_REF_CNT_slips : Fld := ⟨TBU_REF_CNT, 31, 16⟩
/-- TBU_HOLD. -/
def TBU_HOLD : Nat := 0x4010000c
def TBU_HOLD_ms : Fld := ⟨TBU_HOLD, 15, 0⟩
/-- TBU_REF_RATE. -/
def TBU_REF_RATE : Nat := 0x40100010
def TBU_REF_RATE_mhz : Fld := ⟨TBU_REF_RATE, 31, 0⟩
/-- TBU_CYCLE_LO. -/
def TBU_CYCLE : Nat := 0x40100020
def TBU_CYCLE_CYCLE_CNT : Fld := ⟨TBU_CYCLE, 63, 0⟩
/-- TBU_SAMPLE_LO. -/
def TBU_SAMPLE : Nat := 0x40100028
def TBU_SAMPLE_SAMPLE_CNT : Fld := ⟨TBU_SAMPLE, 63, 0⟩
/-- TBU_PICK_LO. -/
def TBU_PICK : Nat := 0x40100030
def TBU_PICK_PICK_CNT : Fld := ⟨TBU_PICK, 63, 0⟩
/-- TBU_BEAT_LO. -/
def TBU_BEAT : Nat := 0x40100038
def TBU_BEAT_BEAT_POS : Fld := ⟨TBU_BEAT, 63, 0⟩
/-- TBU_TEMPO_CFG. -/
def TBU_TEMPO_CFG : Nat := 0x40100040
def TBU_TEMPO_CFG_src : Fld := ⟨TBU_TEMPO_CFG, 2, 0⟩
def TBU_TEMPO_CFG_midi : Fld := ⟨TBU_TEMPO_CFG, 4, 3⟩
def TBU_TEMPO_CFG_run : Fld := ⟨TBU_TEMPO_CFG, 5, 5⟩
def TBU_TEMPO_CFG_ppqn : Fld := ⟨TBU_TEMPO_CFG, 15, 6⟩
def TBU_TEMPO_CFG_bw : Fld := ⟨TBU_TEMPO_CFG, 17, 16⟩
def TBU_TEMPO_CFG_tmo : Fld := ⟨TBU_TEMPO_CFG, 23, 18⟩
def TBU_TEMPO_CFG_slew : Fld := ⟨TBU_TEMPO_CFG, 31, 24⟩
/-- TBU_TEMPO. -/
def TBU_TEMPO : Nat := 0x40100044
def TBU_TEMPO_bpm : Fld := ⟨TBU_TEMPO, 31, 0⟩
/-- TBU_TEMPO_TRK. -/
def TBU_TEMPO_TRK : Nat := 0x40100048
def TBU_TEMPO_TRK_state : Fld := ⟨TBU_TEMPO_TRK, 1, 0⟩
def TBU_TEMPO_TRK_cfg_err : Fld := ⟨TBU_TEMPO_TRK, 2, 2⟩
def TBU_TEMPO_TRK_bpm : Fld := ⟨TBU_TEMPO_TRK, 31, 3⟩
/-- TBU_TEMPO_CNT. -/
def TBU_TEMPO_CNT : Nat := 0x4010004c
def TBU_TEMPO_CNT_rejected : Fld := ⟨TBU_TEMPO_CNT, 11, 0⟩
def TBU_TEMPO_CNT_ratechg : Fld := ⟨TBU_TEMPO_CNT, 19, 12⟩
def TBU_TEMPO_CNT_discarded : Fld := ⟨TBU_TEMPO_CNT, 31, 20⟩
/-- TBU_BEAT_RATE_LO. -/
def TBU_BEAT_RATE : Nat := 0x40100050
def TBU_BEAT_RATE_rho : Fld := ⟨TBU_BEAT_RATE, 63, 0⟩
/-- TBU_LOC_TGT_LO. -/
def TBU_LOC_TGT : Nat := 0x40100058
def TBU_LOC_TGT_target : Fld := ⟨TBU_LOC_TGT, 63, 0⟩
/-- TBU_TOUT_CFG. -/
def TBU_TOUT_CFG : Nat := 0x40100060
def TBU_TOUT_CFG_en : Fld := ⟨TBU_TOUT_CFG, 0, 0⟩
def TBU_TOUT_CFG_ppqn : Fld := ⟨TBU_TOUT_CFG, 10, 1⟩
def TBU_TOUT_CFG_width : Fld := ⟨TBU_TOUT_CFG, 23, 16⟩
/-- TBU_IRQ_STAT. -/
def TBU_IRQ_STAT : Nat := 0x40100070
def TBU_IRQ_STAT_cmp : Fld := ⟨TBU_IRQ_STAT, 15, 0⟩
def TBU_IRQ_STAT_cap : Fld := ⟨TBU_IRQ_STAT, 23, 16⟩
def TBU_IRQ_STAT_tmr : Fld := ⟨TBU_IRQ_STAT, 31, 24⟩
/-- TBU_IRQ_EN. -/
def TBU_IRQ_EN : Nat := 0x40100074
def TBU_IRQ_EN_cmp : Fld := ⟨TBU_IRQ_EN, 15, 0⟩
def TBU_IRQ_EN_cap : Fld := ⟨TBU_IRQ_EN, 23, 16⟩
def TBU_IRQ_EN_tmr : Fld := ⟨TBU_IRQ_EN, 31, 24⟩
/-- TBU_EVT_STAT. -/
def TBU_EVT_STAT : Nat := 0x40100078
def TBU_EVT_STAT_holdover : Fld := ⟨TBU_EVT_STAT, 0, 0⟩
def TBU_EVT_STAT_paused : Fld := ⟨TBU_EVT_STAT, 1, 1⟩
def TBU_EVT_STAT_resumed : Fld := ⟨TBU_EVT_STAT, 2, 2⟩
def TBU_EVT_STAT_slip : Fld := ⟨TBU_EVT_STAT, 3, 3⟩
def TBU_EVT_STAT_rate_fault : Fld := ⟨TBU_EVT_STAT, 4, 4⟩
def TBU_EVT_STAT_rate_done : Fld := ⟨TBU_EVT_STAT, 5, 5⟩
def TBU_EVT_STAT_tempo_hold : Fld := ⟨TBU_EVT_STAT, 6, 6⟩
def TBU_EVT_STAT_tempo_rate : Fld := ⟨TBU_EVT_STAT, 7, 7⟩
def TBU_EVT_STAT_locate : Fld := ⟨TBU_EVT_STAT, 8, 8⟩
/-- TBU_EVT_EN. -/
def TBU_EVT_EN : Nat := 0x4010007c
def TBU_EVT_EN_en : Fld := ⟨TBU_EVT_EN, 8, 0⟩
/-- TBU_CMPn_CFG. -/
def TBU_CMP_CFG (i : Nat) : Nat := 0x40100100 + 0x10 * i
def TBU_CMP_CFG_cnt (i : Nat) : Fld := ⟨TBU_CMP_CFG i, 1, 0⟩
def TBU_CMP_CFG_armed (i : Nat) : Fld := ⟨TBU_CMP_CFG i, 2, 2⟩
/-- TBU_CMPn_VAL_LO. -/
def TBU_CMP_VAL (i : Nat) : Nat := 0x40100108 + 0x10 * i
def TBU_CMP_VAL_value (i : Nat) : Fld := ⟨TBU_CMP_VAL i, 63, 0⟩
/-- TBU_CMP_STAT. -/
def TBU_CMP_STAT : Nat := 0x40100200
def TBU_CMP_STAT_past : Fld := ⟨TBU_CMP_STAT, 15, 0⟩
def TBU_CMP_STAT_skipped : Fld := ⟨TBU_CMP_STAT, 31, 16⟩
/-- TBU_CAPn_CFG. -/
def TBU_CAP_CFG (i : Nat) : Nat := 0x40100300 + 0x10 * i
def TBU_CAP_CFG_cnt (i : Nat) : Fld := ⟨TBU_CAP_CFG i, 1, 0⟩
def TBU_CAP_CFG_kind (i : Nat) : Fld := ⟨TBU_CAP_CFG i, 3, 2⟩
def TBU_CAP_CFG_sel (i : Nat) : Fld := ⟨TBU_CAP_CFG i, 8, 4⟩
def TBU_CAP_CFG_fall (i : Nat) : Fld := ⟨TBU_CAP_CFG i, 9, 9⟩
/-- TBU_CAPn_STAT. -/
def TBU_CAP_STAT (i : Nat) : Nat := 0x40100304 + 0x10 * i
def TBU_CAP_STAT_full (i : Nat) : Fld := ⟨TBU_CAP_STAT i, 0, 0⟩
def TBU_CAP_STAT_pend (i : Nat) : Fld := ⟨TBU_CAP_STAT i, 1, 1⟩
def TBU_CAP_STAT_overrun (i : Nat) : Fld := ⟨TBU_CAP_STAT i, 15, 8⟩
/-- TBU_CAPn_VAL_LO. -/
def TBU_CAP_VAL (i : Nat) : Nat := 0x40100308 + 0x10 * i
def TBU_CAP_VAL_value (i : Nat) : Fld := ⟨TBU_CAP_VAL i, 63, 0⟩
/-- TBU_TMRn_CFG. -/
def TBU_TMR_CFG (i : Nat) : Nat := 0x40100400 + 0x10 * i
def TBU_TMR_CFG_en (i : Nat) : Fld := ⟨TBU_TMR_CFG i, 0, 0⟩
def TBU_TMR_CFG_mode (i : Nat) : Fld := ⟨TBU_TMR_CFG i, 1, 1⟩
def TBU_TMR_CFG_tick (i : Nat) : Fld := ⟨TBU_TMR_CFG i, 3, 2⟩
def TBU_TMR_CFG_chain (i : Nat) : Fld := ⟨TBU_TMR_CFG i, 4, 4⟩
/-- TBU_TMRn_VAL. -/
def TBU_TMR_VAL (i : Nat) : Nat := 0x40100404 + 0x10 * i
def TBU_TMR_VAL_count (i : Nat) : Fld := ⟨TBU_TMR_VAL i, 31, 0⟩
/-- TBU_TMRn_RLD. -/
def TBU_TMR_RLD (i : Nat) : Nat := 0x40100408 + 0x10 * i
def TBU_TMR_RLD_reload (i : Nat) : Fld := ⟨TBU_TMR_RLD i, 31, 0⟩
/-- TBU_TPAIRk_LO. -/
def TBU_TPAIR (i : Nat) : Nat := 0x40100480 + 0x8 * i
def TBU_TPAIR_pair (i : Nat) : Fld := ⟨TBU_TPAIR i, 63, 0⟩

/-! ### EFE (spec/03_events.md) -/
/-- EFE_CTL. -/
def EFE_CTL : Nat := 0x40200000
def EFE_CTL_en : Fld := ⟨EFE_CTL, 9, 0⟩
/-- EFE_PCAP. -/
def EFE_PCAP : Nat := 0x40200004
def EFE_PCAP_e_max : Fld := ⟨EFE_PCAP, 8, 0⟩
/-- EFE_PEND. -/
def EFE_PEND : Nat := 0x40200008
def EFE_PEND_pending : Fld := ⟨EFE_PEND, 14, 0⟩
def EFE_PEND_peak : Fld := ⟨EFE_PEND, 30, 16⟩
/-- EFE_CNT. -/
def EFE_CNT : Nat := 0x4020000c
def EFE_CNT_stale : Fld := ⟨EFE_CNT, 15, 0⟩
def EFE_CNT_ump_unsup : Fld := ⟨EFE_CNT, 31, 16⟩
/-- EFE_IRQ_STAT. -/
def EFE_IRQ_STAT : Nat := 0x40200020
def EFE_IRQ_STAT_stat : Fld := ⟨EFE_IRQ_STAT, 9, 0⟩
def EFE_IRQ_STAT_mark : Fld := ⟨EFE_IRQ_STAT, 16, 16⟩
def EFE_IRQ_STAT_mark_ovf : Fld := ⟨EFE_IRQ_STAT, 17, 17⟩
def EFE_IRQ_STAT_full : Fld := ⟨EFE_IRQ_STAT, 18, 18⟩
/-- EFE_IRQ_EN. -/
def EFE_IRQ_EN : Nat := 0x40200024
def EFE_IRQ_EN_stat : Fld := ⟨EFE_IRQ_EN, 9, 0⟩
def EFE_IRQ_EN_mark : Fld := ⟨EFE_IRQ_EN, 16, 16⟩
def EFE_IRQ_EN_mark_ovf : Fld := ⟨EFE_IRQ_EN, 17, 17⟩
def EFE_IRQ_EN_full : Fld := ⟨EFE_IRQ_EN, 18, 18⟩
/-- EFE_MARK. -/
def EFE_MARK : Nat := 0x40200028
def EFE_MARK_tag : Fld := ⟨EFE_MARK, 31, 0⟩
/-- EFE_MARK_STAT. -/
def EFE_MARK_STAT : Nat := 0x4020002c
def EFE_MARK_STAT_count : Fld := ⟨EFE_MARK_STAT, 4, 0⟩
def EFE_MARK_STAT_ovf : Fld := ⟨EFE_MARK_STAT, 15, 8⟩
/-- EFE_SRCs_CFG. -/
def EFE_SRC_CFG (i : Nat) : Nat := 0x40200100 + 0x20 * i
def EFE_SRC_CFG_report (i : Nat) : Fld := ⟨EFE_SRC_CFG i, 1, 0⟩
def EFE_SRC_CFG_fmt (i : Nat) : Fld := ⟨EFE_SRC_CFG i, 2, 2⟩
def EFE_SRC_CFG_timed (i : Nat) : Fld := ⟨EFE_SRC_CFG i, 3, 3⟩
def EFE_SRC_CFG_delay (i : Nat) : Fld := ⟨EFE_SRC_CFG i, 15, 4⟩
/-- EFE_SRCs_STAT. -/
def EFE_SRC_STAT (i : Nat) : Nat := 0x40200104 + 0x20 * i
def EFE_SRC_STAT_seq (i : Nat) : Fld := ⟨EFE_SRC_STAT i, 15, 0⟩
def EFE_SRC_STAT_code (i : Nat) : Fld := ⟨EFE_SRC_STAT i, 19, 16⟩
def EFE_SRC_STAT_valid (i : Nat) : Fld := ⟨EFE_SRC_STAT i, 20, 20⟩
/-- EFE_SRCs_CNT. -/
def EFE_SRC_CNT (i : Nat) : Nat := 0x40200108 + 0x20 * i
def EFE_SRC_CNT_parse (i : Nat) : Fld := ⟨EFE_SRC_CNT i, 15, 0⟩
def EFE_SRC_CNT_lost (i : Nat) : Fld := ⟨EFE_SRC_CNT i, 31, 16⟩
/-- EFE_SRCs_SEQ. -/
def EFE_SRC_SEQ (i : Nat) : Nat := 0x4020010c + 0x20 * i
def EFE_SRC_SEQ_nxt (i : Nat) : Fld := ⟨EFE_SRC_SEQ i, 15, 0⟩
def EFE_SRC_SEQ_fill (i : Nat) : Fld := ⟨EFE_SRC_SEQ i, 24, 16⟩
/-- EFE_MIDIn_CFG. -/
def EFE_MIDI_CFG (i : Nat) : Nat := 0x40200300 + 0x4 * i
def EFE_MIDI_CFG_rate (i : Nat) : Fld := ⟨EFE_MIDI_CFG i, 2, 0⟩
def EFE_MIDI_CFG_asense (i : Nat) : Fld := ⟨EFE_MIDI_CFG i, 3, 3⟩
/-- EFE_MPEg. -/
def EFE_MPE (i : Nat) : Nat := 0x40200400 + 0x4 * i
def EFE_MPE_lower (i : Nat) : Fld := ⟨EFE_MPE i, 3, 0⟩
def EFE_MPE_upper (i : Nat) : Fld := ⟨EFE_MPE i, 11, 8⟩
/-- EFE_GPBb_CFG. -/
def EFE_GPB_CFG (i : Nat) : Nat := 0x40200500 + 0x20 * i
def EFE_GPB_CFG_pin (i : Nat) : Fld := ⟨EFE_GPB_CFG i, 4, 0⟩
def EFE_GPB_CFG_en (i : Nat) : Fld := ⟨EFE_GPB_CFG i, 5, 5⟩
def EFE_GPB_CFG_invert (i : Nat) : Fld := ⟨EFE_GPB_CFG i, 6, 6⟩
def EFE_GPB_CFG_debounce (i : Nat) : Fld := ⟨EFE_GPB_CFG i, 11, 7⟩
/-- EFE_GPBb_PRESS0. -/
def EFE_GPB_PRESS0 (i : Nat) : Nat := 0x40200508 + 0x20 * i
def EFE_GPB_PRESS0_template (i : Nat) : Fld := ⟨EFE_GPB_PRESS0 i, 31, 0⟩
/-- EFE_GPBb_PRESS1. -/
def EFE_GPB_PRESS1 (i : Nat) : Nat := 0x4020050c + 0x20 * i
def EFE_GPB_PRESS1_template (i : Nat) : Fld := ⟨EFE_GPB_PRESS1 i, 31, 0⟩
/-- EFE_GPBb_REL0. -/
def EFE_GPB_REL0 (i : Nat) : Nat := 0x40200510 + 0x20 * i
def EFE_GPB_REL0_template (i : Nat) : Fld := ⟨EFE_GPB_REL0 i, 31, 0⟩
/-- EFE_GPBb_REL1. -/
def EFE_GPB_REL1 (i : Nat) : Nat := 0x40200514 + 0x20 * i
def EFE_GPB_REL1_template (i : Nat) : Fld := ⟨EFE_GPB_REL1 i, 31, 0⟩
/-- EFE_BINDi. -/
def EFE_BIND (i : Nat) : Nat := 0x40201000 + 0x4 * i
def EFE_BIND_part (i : Nat) : Fld := ⟨EFE_BIND i, 5, 0⟩
def EFE_BIND_en (i : Nat) : Fld := ⟨EFE_BIND i, 7, 7⟩

/-! ### DLR (spec/04_dealer.md) -/
/-- DLR_CFG. -/
def DLR_CFG : Nat := 0x40300000
def DLR_CFG_affinity : Fld := ⟨DLR_CFG, 3, 0⟩
/-- DLR_BW_CFG. -/
def DLR_BW_CFG : Nat := 0x40300004
def DLR_BW_CFG_frac : Fld := ⟨DLR_BW_CFG, 9, 0⟩
def DLR_BW_CFG_rsv : Fld := ⟨DLR_BW_CFG, 27, 16⟩
/-- DLR_STAT. -/
def DLR_STAT : Nat := 0x40300008
def DLR_STAT_running : Fld := ⟨DLR_STAT, 0, 0⟩
def DLR_STAT_quar : Fld := ⟨DLR_STAT, 7, 4⟩
/-- DLR_DERATE. -/
def DLR_DERATE : Nat := 0x4030000c
def DLR_DERATE_d_power : Fld := ⟨DLR_DERATE, 10, 0⟩
def DLR_DERATE_d_bw : Fld := ⟨DLR_DERATE, 26, 16⟩
/-- DLR_CNT. -/
def DLR_CNT : Nat := 0x40300010
def DLR_CNT_fence : Fld := ⟨DLR_CNT, 15, 0⟩
def DLR_CNT_fault : Fld := ⟨DLR_CNT, 31, 16⟩
/-- DLR_ERR. -/
def DLR_ERR : Nat := 0x40300014
def DLR_ERR_format : Fld := ⟨DLR_ERR, 7, 0⟩
def DLR_ERR_deck_full : Fld := ⟨DLR_ERR, 15, 8⟩
def DLR_ERR_lapsed : Fld := ⟨DLR_ERR, 23, 16⟩
def DLR_ERR_late_loom : Fld := ⟨DLR_ERR, 31, 24⟩
/-- DLR_CUT. -/
def DLR_CUT : Nat := 0x40300018
def DLR_CUT_cut : Fld := ⟨DLR_CUT, 15, 0⟩
/-- DLR_IRQ_STAT. -/
def DLR_IRQ_STAT : Nat := 0x40300020
def DLR_IRQ_STAT_snap_ready : Fld := ⟨DLR_IRQ_STAT, 0, 0⟩
def DLR_IRQ_STAT_fence : Fld := ⟨DLR_IRQ_STAT, 1, 1⟩
def DLR_IRQ_STAT_fault : Fld := ⟨DLR_IRQ_STAT, 2, 2⟩
def DLR_IRQ_STAT_late_loom : Fld := ⟨DLR_IRQ_STAT, 3, 3⟩
def DLR_IRQ_STAT_shed : Fld := ⟨DLR_IRQ_STAT, 4, 4⟩
def DLR_IRQ_STAT_deck_full : Fld := ⟨DLR_IRQ_STAT, 5, 5⟩
def DLR_IRQ_STAT_format : Fld := ⟨DLR_IRQ_STAT, 6, 6⟩
def DLR_IRQ_STAT_wait_alarm : Fld := ⟨DLR_IRQ_STAT, 7, 7⟩
def DLR_IRQ_STAT_cancel_done : Fld := ⟨DLR_IRQ_STAT, 8, 8⟩
/-- DLR_IRQ_EN. -/
def DLR_IRQ_EN : Nat := 0x40300024
def DLR_IRQ_EN_snap_ready : Fld := ⟨DLR_IRQ_EN, 0, 0⟩
def DLR_IRQ_EN_fence : Fld := ⟨DLR_IRQ_EN, 1, 1⟩
def DLR_IRQ_EN_fault : Fld := ⟨DLR_IRQ_EN, 2, 2⟩
def DLR_IRQ_EN_late_loom : Fld := ⟨DLR_IRQ_EN, 3, 3⟩
def DLR_IRQ_EN_shed : Fld := ⟨DLR_IRQ_EN, 4, 4⟩
def DLR_IRQ_EN_deck_full : Fld := ⟨DLR_IRQ_EN, 5, 5⟩
def DLR_IRQ_EN_format : Fld := ⟨DLR_IRQ_EN, 6, 6⟩
def DLR_IRQ_EN_wait_alarm : Fld := ⟨DLR_IRQ_EN, 7, 7⟩
def DLR_IRQ_EN_cancel_done : Fld := ⟨DLR_IRQ_EN, 8, 8⟩
/-- DLR_CANCEL. -/
def DLR_CANCEL : Nat := 0x40300030
def DLR_CANCEL_flow : Fld := ⟨DLR_CANCEL, 13, 0⟩
/-- DLR_CANCEL_STAT. -/
def DLR_CANCEL_STAT : Nat := 0x40300034
def DLR_CANCEL_STAT_result : Fld := ⟨DLR_CANCEL_STAT, 1, 0⟩
def DLR_CANCEL_STAT_busy : Fld := ⟨DLR_CANCEL_STAT, 2, 2⟩
def DLR_CANCEL_STAT_ovr : Fld := ⟨DLR_CANCEL_STAT, 3, 3⟩
def DLR_CANCEL_STAT_flow : Fld := ⟨DLR_CANCEL_STAT, 29, 16⟩
/-- DLR_SNAP_CTL. -/
def DLR_SNAP_CTL : Nat := 0x40300040
def DLR_SNAP_CTL_req : Fld := ⟨DLR_SNAP_CTL, 0, 0⟩
def DLR_SNAP_CTL_cancel : Fld := ⟨DLR_SNAP_CTL, 1, 1⟩
/-- DLR_SNAP_ADDR. -/
def DLR_SNAP_ADDR : Nat := 0x40300044
def DLR_SNAP_ADDR_offset : Fld := ⟨DLR_SNAP_ADDR, 21, 6⟩
/-- DLR_SNAP_STAT. -/
def DLR_SNAP_STAT : Nat := 0x40300048
def DLR_SNAP_STAT_seq : Fld := ⟨DLR_SNAP_STAT, 15, 0⟩
def DLR_SNAP_STAT_ready : Fld := ⟨DLR_SNAP_STAT, 16, 16⟩
def DLR_SNAP_STAT_pending : Fld := ⟨DLR_SNAP_STAT, 17, 17⟩
def DLR_SNAP_STAT_err : Fld := ⟨DLR_SNAP_STAT, 18, 18⟩
def DLR_SNAP_STAT_abort_late : Fld := ⟨DLR_SNAP_STAT, 19, 19⟩
/-- DLR_WALMl. -/
def DLR_WALM (i : Nat) : Nat := 0x40300080 + 0x4 * i
def DLR_WALM_cycles (i : Nat) : Fld := ⟨DLR_WALM i, 19, 0⟩
/-- DLR_HCAPh. -/
def DLR_HCAP (i : Nat) : Nat := 0x40300100 + 0x10 * i
def DLR_HCAP_A (i : Nat) : Fld := ⟨DLR_HCAP i, 31, 0⟩
/-- DLR_HUSEh. -/
def DLR_HUSE (i : Nat) : Nat := 0x40300104 + 0x10 * i
def DLR_HUSE_sum (i : Nat) : Fld := ⟨DLR_HUSE i, 31, 0⟩
/-- DLR_HINFOh. -/
def DLR_HINFO (i : Nat) : Nat := 0x40300108 + 0x10 * i
def DLR_HINFO_d (i : Nat) : Fld := ⟨DLR_HINFO i, 10, 0⟩
def DLR_HINFO_retired (i : Nat) : Fld := ⟨DLR_HINFO i, 14, 12⟩
def DLR_HINFO_voices (i : Nat) : Fld := ⟨DLR_HINFO i, 24, 16⟩
/-- DLR_LANEh. -/
def DLR_LANE (i : Nat) : Nat := 0x40300300 + 0x4 * i
def DLR_LANE_lane0 (i : Nat) : Fld := ⟨DLR_LANE i, 2, 0⟩
def DLR_LANE_lane1 (i : Nat) : Fld := ⟨DLR_LANE i, 6, 4⟩
def DLR_LANE_lane2 (i : Nat) : Fld := ⟨DLR_LANE i, 10, 8⟩
def DLR_LANE_lane3 (i : Nat) : Fld := ⟨DLR_LANE i, 14, 12⟩
def DLR_LANE_spare (i : Nat) : Fld := ⟨DLR_LANE i, 18, 16⟩

/-! ### VAL (spec/05_voice_allocation.md) -/
/-- VAL_CFG. -/
def VAL_CFG : Nat := 0x40400000
def VAL_CFG_slot_rsv : Fld := ⟨VAL_CFG, 5, 0⟩
/-- VAL_STAT. -/
def VAL_STAT : Nat := 0x40400004
def VAL_STAT_voices : Fld := ⟨VAL_STAT, 13, 0⟩
def VAL_STAT_fading : Fld := ⟨VAL_STAT, 29, 16⟩
/-- VAL_CNT. -/
def VAL_CNT : Nat := 0x40400008
def VAL_CNT_dropped : Fld := ⟨VAL_CNT, 15, 0⟩
def VAL_CNT_stolen : Fld := ⟨VAL_CNT, 31, 16⟩
/-- VAL_CNT2. -/
def VAL_CNT2 : Nat := 0x4040000c
def VAL_CNT2_shed : Fld := ⟨VAL_CNT2, 15, 0⟩
def VAL_CNT2_cut : Fld := ⟨VAL_CNT2, 31, 16⟩
/-- VAL_CNT3. -/
def VAL_CNT3 : Nat := 0x40400010
def VAL_CNT3_pass_out : Fld := ⟨VAL_CNT3, 15, 0⟩
def VAL_CNT3_pass_in : Fld := ⟨VAL_CNT3, 31, 16⟩
/-- VAL_CNT4. -/
def VAL_CNT4 : Nat := 0x40400014
def VAL_CNT4_nomatch : Fld := ⟨VAL_CNT4, 15, 0⟩
def VAL_CNT4_faulted : Fld := ⟨VAL_CNT4, 31, 16⟩
/-- VAL_IRQ_STAT. -/
def VAL_IRQ_STAT : Nat := 0x40400020
def VAL_IRQ_STAT_dropped : Fld := ⟨VAL_IRQ_STAT, 0, 0⟩
def VAL_IRQ_STAT_stolen : Fld := ⟨VAL_IRQ_STAT, 1, 1⟩
def VAL_IRQ_STAT_cut : Fld := ⟨VAL_IRQ_STAT, 2, 2⟩
def VAL_IRQ_STAT_faulted : Fld := ⟨VAL_IRQ_STAT, 3, 3⟩
def VAL_IRQ_STAT_exhausted : Fld := ⟨VAL_IRQ_STAT, 4, 4⟩
def VAL_IRQ_STAT_qry_done : Fld := ⟨VAL_IRQ_STAT, 5, 5⟩
/-- VAL_IRQ_EN. -/
def VAL_IRQ_EN : Nat := 0x40400024
def VAL_IRQ_EN_dropped : Fld := ⟨VAL_IRQ_EN, 0, 0⟩
def VAL_IRQ_EN_stolen : Fld := ⟨VAL_IRQ_EN, 1, 1⟩
def VAL_IRQ_EN_cut : Fld := ⟨VAL_IRQ_EN, 2, 2⟩
def VAL_IRQ_EN_faulted : Fld := ⟨VAL_IRQ_EN, 3, 3⟩
def VAL_IRQ_EN_exhausted : Fld := ⟨VAL_IRQ_EN, 4, 4⟩
def VAL_IRQ_EN_qry_done : Fld := ⟨VAL_IRQ_EN, 5, 5⟩
/-- VAL_QRY_CMD. -/
def VAL_QRY_CMD : Nat := 0x40400040
def VAL_QRY_CMD_index : Fld := ⟨VAL_QRY_CMD, 13, 0⟩
def VAL_QRY_CMD_op : Fld := ⟨VAL_QRY_CMD, 17, 16⟩
/-- VAL_QRY_STAT. -/
def VAL_QRY_STAT : Nat := 0x40400044
def VAL_QRY_STAT_done : Fld := ⟨VAL_QRY_STAT, 0, 0⟩
def VAL_QRY_STAT_busy : Fld := ⟨VAL_QRY_STAT, 1, 1⟩
def VAL_QRY_STAT_err : Fld := ⟨VAL_QRY_STAT, 2, 2⟩
def VAL_QRY_STAT_ovr : Fld := ⟨VAL_QRY_STAT, 3, 3⟩
/-- VAL_QRY_RESi. -/
def VAL_QRY_RES (i : Nat) : Nat := 0x40400048 + 0x4 * i
def VAL_QRY_RES_res (i : Nat) : Fld := ⟨VAL_QRY_RES i, 31, 0⟩

/-! ### SHT (spec/08_shuttle_core.md) -/
/-- SHT_CFG. -/
def SHT_CFG : Nat := 0x40500000
def SHT_CFG_fault_budget : Fld := ⟨SHT_CFG, 15, 0⟩
/-- SHT_VEC. -/
def SHT_VEC : Nat := 0x40500004
def SHT_VEC_fault_vec : Fld := ⟨SHT_VEC, 12, 0⟩
def SHT_VEC_tap_vec : Fld := ⟨SHT_VEC, 28, 16⟩
/-- SHT_IRQ_STAT. -/
def SHT_IRQ_STAT : Nat := 0x40500020
def SHT_IRQ_STAT_fault : Fld := ⟨SHT_IRQ_STAT, 0, 0⟩
def SHT_IRQ_STAT_parity : Fld := ⟨SHT_IRQ_STAT, 1, 1⟩
def SHT_IRQ_STAT_overrun : Fld := ⟨SHT_IRQ_STAT, 2, 2⟩
def SHT_IRQ_STAT_tap : Fld := ⟨SHT_IRQ_STAT, 3, 3⟩
/-- SHT_IRQ_EN. -/
def SHT_IRQ_EN : Nat := 0x40500024
def SHT_IRQ_EN_fault : Fld := ⟨SHT_IRQ_EN, 0, 0⟩
def SHT_IRQ_EN_parity : Fld := ⟨SHT_IRQ_EN, 1, 1⟩
def SHT_IRQ_EN_overrun : Fld := ⟨SHT_IRQ_EN, 2, 2⟩
def SHT_IRQ_EN_tap : Fld := ⟨SHT_IRQ_EN, 3, 3⟩
/-- SHT_TAP. -/
def SHT_TAP : Nat := 0x40500030
def SHT_TAP_shuttle : Fld := ⟨SHT_TAP, 7, 0⟩
def SHT_TAP_req : Fld := ⟨SHT_TAP, 8, 8⟩
/-- SHT_STRh. -/
def SHT_STR (i : Nat) : Nat := 0x40500100 + 0x4 * i
def SHT_STR_wclamp (i : Nat) : Fld := ⟨SHT_STR i, 15, 0⟩
def SHT_STR_wwait (i : Nat) : Fld := ⟨SHT_STR i, 31, 16⟩
/-- SHT_SSTATS. -/
def SHT_SSTAT (i : Nat) : Nat := 0x40501000 + 0x10 * i
def SHT_SSTAT_role (i : Nat) : Fld := ⟨SHT_SSTAT i, 1, 0⟩
def SHT_SSTAT_state (i : Nat) : Fld := ⟨SHT_SSTAT i, 4, 2⟩
def SHT_SSTAT_cause (i : Nat) : Fld := ⟨SHT_SSTAT i, 7, 5⟩
def SHT_SSTAT_prog (i : Nat) : Fld := ⟨SHT_SSTAT i, 15, 8⟩
def SHT_SSTAT_flow (i : Nat) : Fld := ⟨SHT_SSTAT i, 29, 16⟩
/-- SHT_SPCS. -/
def SHT_SPC (i : Nat) : Nat := 0x40501004 + 0x10 * i
def SHT_SPC_bundle (i : Nat) : Fld := ⟨SHT_SPC i, 12, 0⟩
def SHT_SPC_pick (i : Nat) : Fld := ⟨SHT_SPC i, 31, 16⟩
/-- SHT_SFCAPS. -/
def SHT_SFCAP (i : Nat) : Nat := 0x40501008 + 0x10 * i
def SHT_SFCAP_eaddr (i : Nat) : Fld := ⟨SHT_SFCAP i, 31, 0⟩
/-- SHT_SCNTS. -/
def SHT_SCNT (i : Nat) : Nat := 0x4050100c + 0x10 * i
def SHT_SCNT_fences (i : Nat) : Fld := ⟨SHT_SCNT i, 7, 0⟩
def SHT_SCNT_faults (i : Nat) : Fld := ⟨SHT_SCNT i, 15, 8⟩
def SHT_SCNT_parity (i : Nat) : Fld := ⟨SHT_SCNT i, 23, 16⟩
def SHT_SCNT_overruns (i : Nat) : Fld := ⟨SHT_SCNT i, 31, 24⟩

/-! ### MIX (spec/10_mixing_and_output_chain.md) -/
/-- MIX_CTL. -/
def MIX_CTL : Nat := 0x40600000
def MIX_CTL_live : Fld := ⟨MIX_CTL, 3, 0⟩
/-- MIX_STAT. -/
def MIX_STAT : Nat := 0x40600004
def MIX_STAT_contrib : Fld := ⟨MIX_STAT, 3, 0⟩
def MIX_STAT_fading : Fld := ⟨MIX_STAT, 7, 4⟩
def MIX_STAT_quar : Fld := ⟨MIX_STAT, 11, 8⟩
/-- MIX_SAT. -/
def MIX_SAT : Nat := 0x40600008
def MIX_SAT_acc : Fld := ⟨MIX_SAT, 23, 0⟩
def MIX_SAT_chip : Fld := ⟨MIX_SAT, 31, 24⟩
/-- MIX_LATE. -/
def MIX_LATE : Nat := 0x4060000c
def MIX_LATE_late : Fld := ⟨MIX_LATE, 31, 0⟩
/-- MIX_RET. -/
def MIX_RET : Nat := 0x40600010
def MIX_RET_dropped : Fld := ⟨MIX_RET, 15, 0⟩
/-- MIX_IRQ_STAT. -/
def MIX_IRQ_STAT : Nat := 0x40600020
def MIX_IRQ_STAT_sat : Fld := ⟨MIX_IRQ_STAT, 0, 0⟩
def MIX_IRQ_STAT_late : Fld := ⟨MIX_IRQ_STAT, 1, 1⟩
def MIX_IRQ_STAT_ret_drop : Fld := ⟨MIX_IRQ_STAT, 2, 2⟩
def MIX_IRQ_STAT_fade_done : Fld := ⟨MIX_IRQ_STAT, 3, 3⟩
/-- MIX_IRQ_EN. -/
def MIX_IRQ_EN : Nat := 0x40600024
def MIX_IRQ_EN_sat : Fld := ⟨MIX_IRQ_EN, 0, 0⟩
def MIX_IRQ_EN_late : Fld := ⟨MIX_IRQ_EN, 1, 1⟩
def MIX_IRQ_EN_ret_drop : Fld := ⟨MIX_IRQ_EN, 2, 2⟩
def MIX_IRQ_EN_fade_done : Fld := ⟨MIX_IRQ_EN, 3, 3⟩
/-- MIX_RGAINb. -/
def MIX_RGAIN (i : Nat) : Nat := 0x40600100 + 0x4 * i
def MIX_RGAIN_gain (i : Nat) : Fld := ⟨MIX_RGAIN i, 15, 0⟩
def MIX_RGAIN_dry (i : Nat) : Fld := ⟨MIX_RGAIN i, 16, 16⟩
/-- MIX_BUSb. -/
def MIX_BUS (i : Nat) : Nat := 0x40600500 + 0x4 * i
def MIX_BUS_prog (i : Nat) : Fld := ⟨MIX_BUS i, 7, 0⟩
def MIX_BUS_looms (i : Nat) : Fld := ⟨MIX_BUS i, 11, 8⟩
def MIX_BUS_stereo (i : Nat) : Fld := ⟨MIX_BUS i, 12, 12⟩
def MIX_BUS_ret0 (i : Nat) : Fld := ⟨MIX_BUS i, 23, 16⟩
def MIX_BUS_ret1 (i : Nat) : Fld := ⟨MIX_BUS i, 31, 24⟩

/-! ### DCH (spec/10_mixing_and_output_chain.md) -/
/-- DCH_CFG. -/
def DCH_CFG : Nat := 0x40700000
def DCH_CFG_mask : Fld := ⟨DCH_CFG, 7, 0⟩
def DCH_CFG_inputs : Fld := ⟨DCH_CFG, 8, 8⟩
/-- DCH_LOUT. -/
def DCH_LOUT : Nat := 0x40700004
def DCH_LOUT_lout : Fld := ⟨DCH_LOUT, 15, 0⟩
def DCH_LOUT_gceil : Fld := ⟨DCH_LOUT, 23, 16⟩
def DCH_LOUT_d : Fld := ⟨DCH_LOUT, 31, 24⟩
/-- DCH_CROM_ADDR. -/
def DCH_CROM_ADDR : Nat := 0x40700010
def DCH_CROM_ADDR_index : Fld := ⟨DCH_CROM_ADDR, 12, 0⟩
/-- DCH_CROM_DATA. -/
def DCH_CROM_DATA : Nat := 0x40700014
def DCH_CROM_DATA_coeff : Fld := ⟨DCH_CROM_DATA, 31, 0⟩
/-- DCH_IRQ_STAT. -/
def DCH_IRQ_STAT : Nat := 0x40700020
def DCH_IRQ_STAT_sat : Fld := ⟨DCH_IRQ_STAT, 0, 0⟩
def DCH_IRQ_STAT_xfade_done : Fld := ⟨DCH_IRQ_STAT, 1, 1⟩
def DCH_IRQ_STAT_rej : Fld := ⟨DCH_IRQ_STAT, 2, 2⟩
def DCH_IRQ_STAT_in_sat : Fld := ⟨DCH_IRQ_STAT, 3, 3⟩
/-- DCH_IRQ_EN. -/
def DCH_IRQ_EN : Nat := 0x40700024
def DCH_IRQ_EN_sat : Fld := ⟨DCH_IRQ_EN, 0, 0⟩
def DCH_IRQ_EN_xfade_done : Fld := ⟨DCH_IRQ_EN, 1, 1⟩
def DCH_IRQ_EN_rej : Fld := ⟨DCH_IRQ_EN, 2, 2⟩
def DCH_IRQ_EN_in_sat : Fld := ⟨DCH_IRQ_EN, 3, 3⟩
/-- DCH_LCFGl. -/
def DCH_LCFG (i : Nat) : Nat := 0x40700400 + 0x4 * i
def DCH_LCFG_set (i : Nat) : Fld := ⟨DCH_LCFG i, 2, 0⟩
def DCH_LCFG_k (i : Nat) : Fld := ⟨DCH_LCFG i, 6, 3⟩
def DCH_LCFG_sh1 (i : Nat) : Fld := ⟨DCH_LCFG i, 10, 8⟩
def DCH_LCFG_sh2 (i : Nat) : Fld := ⟨DCH_LCFG i, 14, 12⟩
def DCH_LCFG_sh3 (i : Nat) : Fld := ⟨DCH_LCFG i, 18, 16⟩
/-- DCH_LSTATl. -/
def DCH_LSTAT (i : Nat) : Nat := 0x40700800 + 0x4 * i
def DCH_LSTAT_cur (i : Nat) : Fld := ⟨DCH_LSTAT i, 2, 0⟩
def DCH_LSTAT_inc (i : Nat) : Fld := ⟨DCH_LSTAT i, 5, 3⟩
def DCH_LSTAT_xfade (i : Nat) : Fld := ⟨DCH_LSTAT i, 6, 6⟩
def DCH_LSTAT_queued (i : Nat) : Fld := ⟨DCH_LSTAT i, 9, 7⟩
def DCH_LSTAT_qvalid (i : Nat) : Fld := ⟨DCH_LSTAT i, 10, 10⟩
def DCH_LSTAT_sat (i : Nat) : Fld := ⟨DCH_LSTAT i, 18, 16⟩
def DCH_LSTAT_out (i : Nat) : Fld := ⟨DCH_LSTAT i, 19, 19⟩
def DCH_LSTAT_rej (i : Nat) : Fld := ⟨DCH_LSTAT i, 20, 20⟩
/-- DCH_ICFGi. -/
def DCH_ICFG (i : Nat) : Nat := 0x40700c00 + 0x4 * i
def DCH_ICFG_set (i : Nat) : Fld := ⟨DCH_ICFG i, 2, 0⟩
def DCH_ICFG_k (i : Nat) : Fld := ⟨DCH_ICFG i, 6, 3⟩
/-- DCH_ISTATi. -/
def DCH_ISTAT (i : Nat) : Nat := 0x40700e00 + 0x4 * i
def DCH_ISTAT_cur (i : Nat) : Fld := ⟨DCH_ISTAT i, 2, 0⟩
def DCH_ISTAT_inc (i : Nat) : Fld := ⟨DCH_ISTAT i, 5, 3⟩
def DCH_ISTAT_xfade (i : Nat) : Fld := ⟨DCH_ISTAT i, 6, 6⟩
def DCH_ISTAT_queued (i : Nat) : Fld := ⟨DCH_ISTAT i, 9, 7⟩
def DCH_ISTAT_qvalid (i : Nat) : Fld := ⟨DCH_ISTAT i, 10, 10⟩
def DCH_ISTAT_sat (i : Nat) : Fld := ⟨DCH_ISTAT i, 16, 16⟩
def DCH_ISTAT_rej (i : Nat) : Fld := ⟨DCH_ISTAT i, 20, 20⟩
/-- DCH_OUTc. -/
def DCH_OUT (i : Nat) : Nat := 0x40701000 + 0x4 * i
def DCH_OUT_kind (i : Nat) : Fld := ⟨DCH_OUT i, 1, 0⟩
def DCH_OUT_index (i : Nat) : Fld := ⟨DCH_OUT i, 12, 4⟩

/-! ### SAP (spec/11_audio_ports.md) -/
/-- SAP_CTL. -/
def SAP_CTL (i : Nat) : Nat := 0x40800000 + 0x1000 * i
def SAP_CTL_en (i : Nat) : Fld := ⟨SAP_CTL i, 0, 0⟩
def SAP_CTL_restart (i : Nat) : Fld := ⟨SAP_CTL i, 1, 1⟩
/-- SAP_CFG. -/
def SAP_CFG (i : Nat) : Nat := 0x40800004 + 0x1000 * i
def SAP_CFG_fmt (i : Nat) : Fld := ⟨SAP_CFG i, 1, 0⟩
def SAP_CFG_slots (i : Nat) : Fld := ⟨SAP_CFG i, 3, 2⟩
def SAP_CFG_swidth (i : Nat) : Fld := ⟨SAP_CFG i, 5, 4⟩
def SAP_CFG_wlen (i : Nat) : Fld := ⟨SAP_CFG i, 7, 6⟩
def SAP_CFG_delay (i : Nat) : Fld := ⟨SAP_CFG i, 8, 8⟩
def SAP_CFG_bclk_inv (i : Nat) : Fld := ⟨SAP_CFG i, 9, 9⟩
def SAP_CFG_fs_inv (i : Nat) : Fld := ⟨SAP_CFG i, 10, 10⟩
def SAP_CFG_sync (i : Nat) : Fld := ⟨SAP_CFG i, 11, 11⟩
def SAP_CFG_auto_realign (i : Nat) : Fld := ⟨SAP_CFG i, 12, 12⟩
def SAP_CFG_hiz (i : Nat) : Fld := ⟨SAP_CFG i, 13, 13⟩
/-- SAP_MASK. -/
def SAP_MASK (i : Nat) : Nat := 0x40800008 + 0x1000 * i
def SAP_MASK_omask (i : Nat) : Fld := ⟨SAP_MASK i, 15, 0⟩
def SAP_MASK_imask (i : Nat) : Fld := ⟨SAP_MASK i, 31, 16⟩
/-- SAP_MASK_ACT. -/
def SAP_MASK_ACT (i : Nat) : Nat := 0x4080000c + 0x1000 * i
def SAP_MASK_ACT_omask (i : Nat) : Fld := ⟨SAP_MASK_ACT i, 15, 0⟩
def SAP_MASK_ACT_imask (i : Nat) : Fld := ⟨SAP_MASK_ACT i, 31, 16⟩
/-- SAP_CHMAP. -/
def SAP_CHMAP (i : Nat) : Nat := 0x40800010 + 0x1000 * i
def SAP_CHMAP_obase (i : Nat) : Fld := ⟨SAP_CHMAP i, 6, 0⟩
def SAP_CHMAP_ibase (i : Nat) : Fld := ⟨SAP_CHMAP i, 14, 8⟩
/-- SAP_CHMAP_ACT. -/
def SAP_CHMAP_ACT (i : Nat) : Nat := 0x40800014 + 0x1000 * i
def SAP_CHMAP_ACT_obase (i : Nat) : Fld := ⟨SAP_CHMAP_ACT i, 6, 0⟩
def SAP_CHMAP_ACT_ibase (i : Nat) : Fld := ⟨SAP_CHMAP_ACT i, 14, 8⟩
/-- SAP_STAT. -/
def SAP_STAT (i : Nat) : Nat := 0x40800018 + 0x1000 * i
def SAP_STAT_running (i : Nat) : Fld := ⟨SAP_STAT i, 0, 0⟩
def SAP_STAT_clk (i : Nat) : Fld := ⟨SAP_STAT i, 1, 1⟩
def SAP_STAT_ref (i : Nat) : Fld := ⟨SAP_STAT i, 2, 2⟩
def SAP_STAT_align_lost (i : Nat) : Fld := ⟨SAP_STAT i, 3, 3⟩
def SAP_STAT_in_clash (i : Nat) : Fld := ⟨SAP_STAT i, 4, 4⟩
def SAP_STAT_cfg_ign (i : Nat) : Fld := ⟨SAP_STAT i, 5, 5⟩
def SAP_STAT_ofill (i : Nat) : Fld := ⟨SAP_STAT i, 12, 8⟩
def SAP_STAT_ifill (i : Nat) : Fld := ⟨SAP_STAT i, 20, 16⟩
/-- SAP_ERR. -/
def SAP_ERR (i : Nat) : Nat := 0x4080001c + 0x1000 * i
def SAP_ERR_flen (i : Nat) : Fld := ⟨SAP_ERR i, 7, 0⟩
def SAP_ERR_under (i : Nat) : Fld := ⟨SAP_ERR i, 15, 8⟩
def SAP_ERR_over (i : Nat) : Fld := ⟨SAP_ERR i, 23, 16⟩
def SAP_ERR_clk_lost (i : Nat) : Fld := ⟨SAP_ERR i, 31, 24⟩
/-- SAP_OSLIP. -/
def SAP_OSLIP (i : Nat) : Nat := 0x40800020 + 0x1000 * i
def SAP_OSLIP_drops (i : Nat) : Fld := ⟨SAP_OSLIP i, 15, 0⟩
def SAP_OSLIP_repeats (i : Nat) : Fld := ⟨SAP_OSLIP i, 31, 16⟩
/-- SAP_ISLIP. -/
def SAP_ISLIP (i : Nat) : Nat := 0x40800024 + 0x1000 * i
def SAP_ISLIP_drops (i : Nat) : Fld := ⟨SAP_ISLIP i, 15, 0⟩
def SAP_ISLIP_repeats (i : Nat) : Fld := ⟨SAP_ISLIP i, 31, 16⟩
/-- SAP_FRATE. -/
def SAP_FRATE (i : Nat) : Nat := 0x40800028 + 0x1000 * i
def SAP_FRATE_mhz (i : Nat) : Fld := ⟨SAP_FRATE i, 31, 0⟩
/-- SAP_IRQ_STAT. -/
def SAP_IRQ_STAT (i : Nat) : Nat := 0x40800030 + 0x1000 * i
def SAP_IRQ_STAT_slip (i : Nat) : Fld := ⟨SAP_IRQ_STAT i, 0, 0⟩
def SAP_IRQ_STAT_align (i : Nat) : Fld := ⟨SAP_IRQ_STAT i, 1, 1⟩
def SAP_IRQ_STAT_flen (i : Nat) : Fld := ⟨SAP_IRQ_STAT i, 2, 2⟩
def SAP_IRQ_STAT_clk_lost (i : Nat) : Fld := ⟨SAP_IRQ_STAT i, 3, 3⟩
def SAP_IRQ_STAT_clk_back (i : Nat) : Fld := ⟨SAP_IRQ_STAT i, 4, 4⟩
/-- SAP_IRQ_EN. -/
def SAP_IRQ_EN (i : Nat) : Nat := 0x40800034 + 0x1000 * i
def SAP_IRQ_EN_slip (i : Nat) : Fld := ⟨SAP_IRQ_EN i, 0, 0⟩
def SAP_IRQ_EN_align (i : Nat) : Fld := ⟨SAP_IRQ_EN i, 1, 1⟩
def SAP_IRQ_EN_flen (i : Nat) : Fld := ⟨SAP_IRQ_EN i, 2, 2⟩
def SAP_IRQ_EN_clk_lost (i : Nat) : Fld := ⟨SAP_IRQ_EN i, 3, 3⟩
def SAP_IRQ_EN_clk_back (i : Nat) : Fld := ⟨SAP_IRQ_EN i, 4, 4⟩

/-! ### CVO (spec/12_cv_outputs.md) -/
/-- CVO_STAT. -/
def CVO_STAT : Nat := 0x40900000
def CVO_STAT_applied : Fld := ⟨CVO_STAT, 0, 0⟩
def CVO_STAT_clr_pin : Fld := ⟨CVO_STAT, 1, 1⟩
def CVO_STAT_safe : Fld := ⟨CVO_STAT, 2, 2⟩
/-- CVO_CNT. -/
def CVO_CNT : Nat := 0x40900004
def CVO_CNT_ignored : Fld := ⟨CVO_CNT, 15, 0⟩
/-- CVO_IRQ_STAT. -/
def CVO_IRQ_STAT : Nat := 0x40900020
def CVO_IRQ_STAT_clr : Fld := ⟨CVO_IRQ_STAT, 0, 0⟩
def CVO_IRQ_STAT_clr_rel : Fld := ⟨CVO_IRQ_STAT, 1, 1⟩
def CVO_IRQ_STAT_ignored : Fld := ⟨CVO_IRQ_STAT, 2, 2⟩
/-- CVO_IRQ_EN. -/
def CVO_IRQ_EN : Nat := 0x40900024
def CVO_IRQ_EN_clr : Fld := ⟨CVO_IRQ_EN, 0, 0⟩
def CVO_IRQ_EN_clr_rel : Fld := ⟨CVO_IRQ_EN, 1, 1⟩
def CVO_IRQ_EN_ignored : Fld := ⟨CVO_IRQ_EN, 2, 2⟩
/-- CVO_CHn_CFG. -/
def CVO_CH_CFG (i : Nat) : Nat := 0x40900100 + 0x20 * i
def CVO_CH_CFG_en (i : Nat) : Fld := ⟨CVO_CH_CFG i, 0, 0⟩
def CVO_CH_CFG_span (i : Nat) : Fld := ⟨CVO_CH_CFG i, 1, 1⟩
def CVO_CH_CFG_span_keep (i : Nat) : Fld := ⟨CVO_CH_CFG i, 2, 2⟩
def CVO_CH_CFG_src (i : Nat) : Fld := ⟨CVO_CH_CFG i, 5, 4⟩
def CVO_CH_CFG_lane (i : Nat) : Fld := ⟨CVO_CH_CFG i, 15, 8⟩
/-- CVO_CHn_SLEW. -/
def CVO_CH_SLEW (i : Nat) : Nat := 0x40900104 + 0x20 * i
def CVO_CH_SLEW_step (i : Nat) : Fld := ⟨CVO_CH_SLEW i, 15, 0⟩
def CVO_CH_SLEW_interval (i : Nat) : Fld := ⟨CVO_CH_SLEW i, 23, 16⟩
/-- CVO_CHn_VAL. -/
def CVO_CH_VAL (i : Nat) : Nat := 0x40900108 + 0x20 * i
def CVO_CH_VAL_code (i : Nat) : Fld := ⟨CVO_CH_VAL i, 15, 0⟩
def CVO_CH_VAL_bypass (i : Nat) : Fld := ⟨CVO_CH_VAL i, 16, 16⟩
/-- CVO_CHn_CLR. -/
def CVO_CH_CLR (i : Nat) : Nat := 0x4090010c + 0x20 * i
def CVO_CH_CLR_code (i : Nat) : Fld := ⟨CVO_CH_CLR i, 15, 0⟩
/-- CVO_CHn_OUT. -/
def CVO_CH_OUT (i : Nat) : Nat := 0x40900110 + 0x20 * i
def CVO_CH_OUT_out (i : Nat) : Fld := ⟨CVO_CH_OUT i, 15, 0⟩
def CVO_CH_OUT_target (i : Nat) : Fld := ⟨CVO_CH_OUT i, 31, 16⟩

/-! ### MEM (spec/13_memory_and_bus.md) -/
/-- MEM_CFG. -/
def MEM_CFG : Nat := 0x40a00000
def MEM_CFG_scrub_en : Fld := ⟨MEM_CFG, 0, 0⟩
/-- MEM_STAT. -/
def MEM_STAT : Nat := 0x40a00004
def MEM_STAT_bist_done : Fld := ⟨MEM_STAT, 0, 0⟩
def MEM_STAT_bist_fail : Fld := ⟨MEM_STAT, 1, 1⟩
def MEM_STAT_scrub_late : Fld := ⟨MEM_STAT, 2, 2⟩
def MEM_STAT_fail_array : Fld := ⟨MEM_STAT, 24, 16⟩
/-- MEM_ECC_CNT. -/
def MEM_ECC_CNT : Nat := 0x40a00008
def MEM_ECC_CNT_ce : Fld := ⟨MEM_ECC_CNT, 15, 0⟩
def MEM_ECC_CNT_ue : Fld := ⟨MEM_ECC_CNT, 31, 16⟩
/-- MEM_CNT. -/
def MEM_CNT : Nat := 0x40a0000c
def MEM_CNT_noown : Fld := ⟨MEM_CNT, 15, 0⟩
/-- MEM_ECC_CAP_ADDR. -/
def MEM_ECC_CAP_ADDR : Nat := 0x40a00010
def MEM_ECC_CAP_ADDR_addr : Fld := ⟨MEM_ECC_CAP_ADDR, 31, 0⟩
/-- MEM_ECC_CAP_INFO. -/
def MEM_ECC_CAP_INFO : Nat := 0x40a00014
def MEM_ECC_CAP_INFO_array : Fld := ⟨MEM_ECC_CAP_INFO, 8, 0⟩
def MEM_ECC_CAP_INFO_ue : Fld := ⟨MEM_ECC_CAP_INFO, 9, 9⟩
def MEM_ECC_CAP_INFO_scrub : Fld := ⟨MEM_ECC_CAP_INFO, 10, 10⟩
def MEM_ECC_CAP_INFO_syndrome : Fld := ⟨MEM_ECC_CAP_INFO, 23, 16⟩
def MEM_ECC_CAP_INFO_valid : Fld := ⟨MEM_ECC_CAP_INFO, 31, 31⟩
/-- MEM_NOCAP_ADDR. -/
def MEM_NOCAP_ADDR : Nat := 0x40a00018
def MEM_NOCAP_ADDR_addr : Fld := ⟨MEM_NOCAP_ADDR, 31, 0⟩
/-- MEM_NOCAP_INFO. -/
def MEM_NOCAP_INFO : Nat := 0x40a0001c
def MEM_NOCAP_INFO_master : Fld := ⟨MEM_NOCAP_INFO, 3, 0⟩
def MEM_NOCAP_INFO_write : Fld := ⟨MEM_NOCAP_INFO, 4, 4⟩
def MEM_NOCAP_INFO_owner : Fld := ⟨MEM_NOCAP_INFO, 11, 8⟩
def MEM_NOCAP_INFO_valid : Fld := ⟨MEM_NOCAP_INFO, 31, 31⟩
/-- MEM_XCOLL_ADDR. -/
def MEM_XCOLL_ADDR : Nat := 0x40a00020
def MEM_XCOLL_ADDR_offset : Fld := ⟨MEM_XCOLL_ADDR, 17, 0⟩
/-- MEM_XCOLL_DLO. -/
def MEM_XCOLL_DLO : Nat := 0x40a00024
def MEM_XCOLL_DLO_data : Fld := ⟨MEM_XCOLL_DLO, 31, 0⟩
/-- MEM_XCOLL_DHI. -/
def MEM_XCOLL_DHI : Nat := 0x40a00028
def MEM_XCOLL_DHI_data : Fld := ⟨MEM_XCOLL_DHI, 31, 0⟩
/-- MEM_XCOLL_INFO. -/
def MEM_XCOLL_INFO : Nat := 0x40a0002c
def MEM_XCOLL_INFO_port : Fld := ⟨MEM_XCOLL_INFO, 0, 0⟩
def MEM_XCOLL_INFO_strobes : Fld := ⟨MEM_XCOLL_INFO, 15, 8⟩
def MEM_XCOLL_INFO_count : Fld := ⟨MEM_XCOLL_INFO, 23, 16⟩
def MEM_XCOLL_INFO_valid : Fld := ⟨MEM_XCOLL_INFO, 31, 31⟩
/-- MEM_IRQ_STAT. -/
def MEM_IRQ_STAT : Nat := 0x40a00030
def MEM_IRQ_STAT_ce : Fld := ⟨MEM_IRQ_STAT, 0, 0⟩
def MEM_IRQ_STAT_ue : Fld := ⟨MEM_IRQ_STAT, 1, 1⟩
def MEM_IRQ_STAT_noown : Fld := ⟨MEM_IRQ_STAT, 2, 2⟩
def MEM_IRQ_STAT_xcoll : Fld := ⟨MEM_IRQ_STAT, 3, 3⟩
def MEM_IRQ_STAT_bist : Fld := ⟨MEM_IRQ_STAT, 4, 4⟩
def MEM_IRQ_STAT_scrub_late : Fld := ⟨MEM_IRQ_STAT, 5, 5⟩
/-- MEM_IRQ_EN. -/
def MEM_IRQ_EN : Nat := 0x40a00034
def MEM_IRQ_EN_ce : Fld := ⟨MEM_IRQ_EN, 0, 0⟩
def MEM_IRQ_EN_ue : Fld := ⟨MEM_IRQ_EN, 1, 1⟩
def MEM_IRQ_EN_noown : Fld := ⟨MEM_IRQ_EN, 2, 2⟩
def MEM_IRQ_EN_xcoll : Fld := ⟨MEM_IRQ_EN, 3, 3⟩
def MEM_IRQ_EN_bist : Fld := ⟨MEM_IRQ_EN, 4, 4⟩
def MEM_IRQ_EN_scrub_late : Fld := ⟨MEM_IRQ_EN, 5, 5⟩
/-- MEM_BANK_STATk. -/
def MEM_BANK_STAT (i : Nat) : Nat := 0x40a00040 + 0x4 * i
def MEM_BANK_STAT_pending (i : Nat) : Fld := ⟨MEM_BANK_STAT i, 31, 0⟩
/-- MEM_REPAIR_IDX. -/
def MEM_REPAIR_IDX : Nat := 0x40a00050
def MEM_REPAIR_IDX_array : Fld := ⟨MEM_REPAIR_IDX, 8, 0⟩
def MEM_REPAIR_IDX_spare : Fld := ⟨MEM_REPAIR_IDX, 18, 16⟩
/-- MEM_REPAIR. -/
def MEM_REPAIR : Nat := 0x40a00054
def MEM_REPAIR_column : Fld := ⟨MEM_REPAIR, 10, 0⟩
def MEM_REPAIR_used : Fld := ⟨MEM_REPAIR, 15, 15⟩
def MEM_REPAIR_fail : Fld := ⟨MEM_REPAIR, 16, 16⟩
/-- MEM_BANK_OWNn. -/
def MEM_BANK_OWN (i : Nat) : Nat := 0x40a00100 + 0x4 * i
def MEM_BANK_OWN_owner (i : Nat) : Fld := ⟨MEM_BANK_OWN i, 3, 0⟩
def MEM_BANK_OWN_nxt (i : Nat) : Fld := ⟨MEM_BANK_OWN i, 7, 4⟩
def MEM_BANK_OWN_pending (i : Nat) : Fld := ⟨MEM_BANK_OWN i, 8, 8⟩
def MEM_BANK_OWN_ign (i : Nat) : Fld := ⟨MEM_BANK_OWN i, 9, 9⟩

/-! ### BMX (spec/13_memory_and_bus.md) -/
/-- BMX_MSTAT. -/
def BMX_MSTAT : Nat := 0x40b00000
def BMX_MSTAT_draining : Fld := ⟨BMX_MSTAT, 11, 0⟩
/-- BMX_DEFCAP_ADDR. -/
def BMX_DEFCAP_ADDR : Nat := 0x40b00004
def BMX_DEFCAP_ADDR_addr : Fld := ⟨BMX_DEFCAP_ADDR, 31, 0⟩
/-- BMX_DEFCAP_INFO. -/
def BMX_DEFCAP_INFO : Nat := 0x40b00008
def BMX_DEFCAP_INFO_addr_hi : Fld := ⟨BMX_DEFCAP_INFO, 7, 0⟩
def BMX_DEFCAP_INFO_master : Fld := ⟨BMX_DEFCAP_INFO, 11, 8⟩
def BMX_DEFCAP_INFO_id : Fld := ⟨BMX_DEFCAP_INFO, 15, 12⟩
def BMX_DEFCAP_INFO_write : Fld := ⟨BMX_DEFCAP_INFO, 16, 16⟩
def BMX_DEFCAP_INFO_kind : Fld := ⟨BMX_DEFCAP_INFO, 17, 17⟩
def BMX_DEFCAP_INFO_valid : Fld := ⟨BMX_DEFCAP_INFO, 31, 31⟩
/-- BMX_CNT. -/
def BMX_CNT : Nat := 0x40b0000c
def BMX_CNT_decode : Fld := ⟨BMX_CNT, 15, 0⟩
def BMX_CNT_drained : Fld := ⟨BMX_CNT, 31, 16⟩
/-- BMX_IRQ_STAT. -/
def BMX_IRQ_STAT : Nat := 0x40b00020
def BMX_IRQ_STAT_decode : Fld := ⟨BMX_IRQ_STAT, 0, 0⟩
def BMX_IRQ_STAT_drain_done : Fld := ⟨BMX_IRQ_STAT, 1, 1⟩
def BMX_IRQ_STAT_dma : Fld := ⟨BMX_IRQ_STAT, 7, 4⟩
/-- BMX_IRQ_EN. -/
def BMX_IRQ_EN : Nat := 0x40b00024
def BMX_IRQ_EN_decode : Fld := ⟨BMX_IRQ_EN, 0, 0⟩
def BMX_IRQ_EN_drain_done : Fld := ⟨BMX_IRQ_EN, 1, 1⟩
def BMX_IRQ_EN_dma : Fld := ⟨BMX_IRQ_EN, 7, 4⟩
/-- BMX_DMAc_SRC_LO. -/
def BMX_DMA_SRC (i : Nat) : Nat := 0x40b00100 + 0x20 * i
def BMX_DMA_SRC_src (i : Nat) : Fld := ⟨BMX_DMA_SRC i, 63, 0⟩
/-- BMX_DMAc_DST_LO. -/
def BMX_DMA_DST (i : Nat) : Nat := 0x40b00108 + 0x20 * i
def BMX_DMA_DST_dst (i : Nat) : Fld := ⟨BMX_DMA_DST i, 63, 0⟩
/-- BMX_DMAc_LEN. -/
def BMX_DMA_LEN (i : Nat) : Nat := 0x40b00110 + 0x20 * i
def BMX_DMA_LEN_bytes (i : Nat) : Fld := ⟨BMX_DMA_LEN i, 27, 0⟩
/-- BMX_DMAc_CTL. -/
def BMX_DMA_CTL (i : Nat) : Nat := 0x40b00114 + 0x20 * i
def BMX_DMA_CTL_start (i : Nat) : Fld := ⟨BMX_DMA_CTL i, 0, 0⟩
def BMX_DMA_CTL_abort (i : Nat) : Fld := ⟨BMX_DMA_CTL i, 1, 1⟩
def BMX_DMA_CTL_as (i : Nat) : Fld := ⟨BMX_DMA_CTL i, 2, 2⟩
def BMX_DMA_CTL_irq (i : Nat) : Fld := ⟨BMX_DMA_CTL i, 3, 3⟩
/-- BMX_DMAc_STAT. -/
def BMX_DMA_STAT (i : Nat) : Nat := 0x40b00118 + 0x20 * i
def BMX_DMA_STAT_result (i : Nat) : Fld := ⟨BMX_DMA_STAT i, 2, 0⟩
def BMX_DMA_STAT_abort_late (i : Nat) : Fld := ⟨BMX_DMA_STAT i, 3, 3⟩
def BMX_DMA_STAT_ovr (i : Nat) : Fld := ⟨BMX_DMA_STAT i, 4, 4⟩
def BMX_DMA_STAT_cause (i : Nat) : Fld := ⟨BMX_DMA_STAT i, 11, 8⟩
/-- BMX_DMAc_DONE. -/
def BMX_DMA_DONE (i : Nat) : Nat := 0x40b0011c + 0x20 * i
def BMX_DMA_DONE_bytes (i : Nat) : Fld := ⟨BMX_DMA_DONE i, 31, 0⟩

/-! ### DRC (spec/13_memory_and_bus.md) -/
/-- DRC_CFG. -/
def DRC_CFG : Nat := 0x40c00000
def DRC_CFG_iecc : Fld := ⟨DRC_CFG, 0, 0⟩
/-- DRC_STAT. -/
def DRC_STAT : Nat := 0x40c00004
def DRC_STAT_trained : Fld := ⟨DRC_STAT, 0, 0⟩
def DRC_STAT_err : Fld := ⟨DRC_STAT, 1, 1⟩
def DRC_STAT_rate : Fld := ⟨DRC_STAT, 4, 2⟩
def DRC_STAT_ranks : Fld := ⟨DRC_STAT, 5, 5⟩
def DRC_STAT_density : Fld := ⟨DRC_STAT, 10, 8⟩
def DRC_STAT_iecc : Fld := ⟨DRC_STAT, 11, 11⟩
/-- DRC_CAP. -/
def DRC_CAP : Nat := 0x40c00008
def DRC_CAP_units : Fld := ⟨DRC_CAP, 31, 0⟩
/-- DRC_TEFF. -/
def DRC_TEFF : Nat := 0x40c0000c
def DRC_TEFF_mts : Fld := ⟨DRC_TEFF, 31, 0⟩
/-- DRC_ECC_CNT. -/
def DRC_ECC_CNT : Nat := 0x40c00010
def DRC_ECC_CNT_ce : Fld := ⟨DRC_ECC_CNT, 15, 0⟩
def DRC_ECC_CNT_ue : Fld := ⟨DRC_ECC_CNT, 31, 16⟩
/-- DRC_ECC_CAP. -/
def DRC_ECC_CAP : Nat := 0x40c00014
def DRC_ECC_CAP_sector : Fld := ⟨DRC_ECC_CAP, 27, 0⟩
def DRC_ECC_CAP_ue : Fld := ⟨DRC_ECC_CAP, 28, 28⟩
def DRC_ECC_CAP_valid : Fld := ⟨DRC_ECC_CAP, 31, 31⟩
/-- DRC_PCAP. -/
def DRC_PCAP : Nat := 0x40c00018
def DRC_PCAP_page : Fld := ⟨DRC_PCAP, 21, 0⟩
def DRC_PCAP_master : Fld := ⟨DRC_PCAP, 27, 24⟩
def DRC_PCAP_write : Fld := ⟨DRC_PCAP, 28, 28⟩
def DRC_PCAP_valid : Fld := ⟨DRC_PCAP, 31, 31⟩
/-- DRC_IRQ_STAT. -/
def DRC_IRQ_STAT : Nat := 0x40c00020
def DRC_IRQ_STAT_ce : Fld := ⟨DRC_IRQ_STAT, 0, 0⟩
def DRC_IRQ_STAT_ue : Fld := ⟨DRC_IRQ_STAT, 1, 1⟩
def DRC_IRQ_STAT_prot : Fld := ⟨DRC_IRQ_STAT, 2, 2⟩
def DRC_IRQ_STAT_late : Fld := ⟨DRC_IRQ_STAT, 3, 3⟩
/-- DRC_IRQ_EN. -/
def DRC_IRQ_EN : Nat := 0x40c00024
def DRC_IRQ_EN_ce : Fld := ⟨DRC_IRQ_EN, 0, 0⟩
def DRC_IRQ_EN_ue : Fld := ⟨DRC_IRQ_EN, 1, 1⟩
def DRC_IRQ_EN_prot : Fld := ⟨DRC_IRQ_EN, 2, 2⟩
def DRC_IRQ_EN_late : Fld := ⟨DRC_IRQ_EN, 3, 3⟩
/-- DRC_CHc_UTIL. -/
def DRC_CH_UTIL (i : Nat) : Nat := 0x40c00040 + 0x4 * i
def DRC_CH_UTIL_busy (i : Nat) : Fld := ⟨DRC_CH_UTIL i, 9, 0⟩
def DRC_CH_UTIL_late (i : Nat) : Fld := ⟨DRC_CH_UTIL i, 31, 16⟩
/-- DRC_PROTr_BASE. -/
def DRC_PROT_BASE (i : Nat) : Nat := 0x40c00080 + 0x8 * i
def DRC_PROT_BASE_first (i : Nat) : Fld := ⟨DRC_PROT_BASE i, 17, 0⟩
def DRC_PROT_BASE_en (i : Nat) : Fld := ⟨DRC_PROT_BASE i, 31, 31⟩
/-- DRC_PROTr_LIM. -/
def DRC_PROT_LIM (i : Nat) : Nat := 0x40c00084 + 0x8 * i
def DRC_PROT_LIM_last (i : Nat) : Fld := ⟨DRC_PROT_LIM i, 17, 0⟩

/-! ### WFT (spec/14_weft_link.md) -/
/-- WFT_CTL. -/
def WFT_CTL : Nat := 0x40d00000
def WFT_CTL_reenum : Fld := ⟨WFT_CTL, 0, 0⟩
def WFT_CTL_unwrap : Fld := ⟨WFT_CTL, 1, 1⟩
/-- WFT_CFG. -/
def WFT_CFG : Nat := 0x40d00004
def WFT_CFG_nseg : Fld := ⟨WFT_CFG, 5, 0⟩
def WFT_CFG_tref : Fld := ⟨WFT_CFG, 6, 6⟩
def WFT_CFG_auto_unwrap : Fld := ⟨WFT_CFG, 7, 7⟩
def WFT_CFG_cap : Fld := ⟨WFT_CFG, 8, 8⟩
def WFT_CFG_beat_tx : Fld := ⟨WFT_CFG, 9, 9⟩
def WFT_CFG_dmin : Fld := ⟨WFT_CFG, 12, 10⟩
def WFT_CFG_bppqn : Fld := ⟨WFT_CFG, 25, 16⟩
/-- WFT_STAT. -/
def WFT_STAT : Nat := 0x40d00008
def WFT_STAT_root : Fld := ⟨WFT_STAT, 0, 0⟩
def WFT_STAT_enum : Fld := ⟨WFT_STAT, 1, 1⟩
def WFT_STAT_wrapped : Fld := ⟨WFT_STAT, 2, 2⟩
def WFT_STAT_ring_wrapped : Fld := ⟨WFT_STAT, 3, 3⟩
def WFT_STAT_wrap_ok : Fld := ⟨WFT_STAT, 4, 4⟩
def WFT_STAT_too_many : Fld := ⟨WFT_STAT, 5, 5⟩
def WFT_STAT_dup_root : Fld := ⟨WFT_STAT, 6, 6⟩
def WFT_STAT_d_err : Fld := ⟨WFT_STAT, 7, 7⟩
def WFT_STAT_lout_mis : Fld := ⟨WFT_STAT, 8, 8⟩
def WFT_STAT_pool_out : Fld := ⟨WFT_STAT, 9, 9⟩
/-- WFT_NODE. -/
def WFT_NODE : Nat := 0x40d0000c
def WFT_NODE_id : Fld := ⟨WFT_NODE, 9, 0⟩
def WFT_NODE_n : Fld := ⟨WFT_NODE, 20, 10⟩
def WFT_NODE_d : Fld := ⟨WFT_NODE, 23, 21⟩
def WFT_NODE_droot : Fld := ⟨WFT_NODE, 31, 24⟩
/-- WFT_PORTx_STAT. -/
def WFT_PORT_STAT (i : Nat) : Nat := 0x40d00010 + 0x4 * i
def WFT_PORT_STAT_state (i : Nat) : Fld := ⟨WFT_PORT_STAT i, 1, 0⟩
def WFT_PORT_STAT_wrap (i : Nat) : Fld := ⟨WFT_PORT_STAT i, 2, 2⟩
def WFT_PORT_STAT_swap (i : Nat) : Fld := ⟨WFT_PORT_STAT i, 3, 3⟩
def WFT_PORT_STAT_inv (i : Nat) : Fld := ⟨WFT_PORT_STAT i, 7, 4⟩
def WFT_PORT_STAT_hop (i : Nat) : Fld := ⟨WFT_PORT_STAT i, 31, 16⟩
/-- WFT_CNT. -/
def WFT_CNT : Nat := 0x40d00018
def WFT_CNT_crc : Fld := ⟨WFT_CNT, 7, 0⟩
def WFT_CNT_bad : Fld := ⟨WFT_CNT, 15, 8⟩
def WFT_CNT_ttl : Fld := ⟨WFT_CNT, 23, 16⟩
def WFT_CNT_wraps : Fld := ⟨WFT_CNT, 31, 24⟩
/-- WFT_ACNT. -/
def WFT_ACNT : Nat := 0x40d0001c
def WFT_ACNT_miss : Fld := ⟨WFT_ACNT, 15, 0⟩
def WFT_ACNT_sat : Fld := ⟨WFT_ACNT, 31, 16⟩
/-- WFT_IRQ_STAT. -/
def WFT_IRQ_STAT : Nat := 0x40d00020
def WFT_IRQ_STAT_enum : Fld := ⟨WFT_IRQ_STAT, 0, 0⟩
def WFT_IRQ_STAT_wrap : Fld := ⟨WFT_IRQ_STAT, 1, 1⟩
def WFT_IRQ_STAT_miss : Fld := ⟨WFT_IRQ_STAT, 2, 2⟩
def WFT_IRQ_STAT_tun : Fld := ⟨WFT_IRQ_STAT, 3, 3⟩
def WFT_IRQ_STAT_port : Fld := ⟨WFT_IRQ_STAT, 4, 4⟩
/-- WFT_IRQ_EN. -/
def WFT_IRQ_EN : Nat := 0x40d00024
def WFT_IRQ_EN_enum : Fld := ⟨WFT_IRQ_EN, 0, 0⟩
def WFT_IRQ_EN_wrap : Fld := ⟨WFT_IRQ_EN, 1, 1⟩
def WFT_IRQ_EN_miss : Fld := ⟨WFT_IRQ_EN, 2, 2⟩
def WFT_IRQ_EN_tun : Fld := ⟨WFT_IRQ_EN, 3, 3⟩
def WFT_IRQ_EN_port : Fld := ⟨WFT_IRQ_EN, 4, 4⟩
/-- WFT_EVFWD. -/
def WFT_EVFWD : Nat := 0x40d00030
def WFT_EVFWD_mask : Fld := ⟨WFT_EVFWD, 9, 0⟩
def WFT_EVFWD_bcast : Fld := ⟨WFT_EVFWD, 10, 10⟩
def WFT_EVFWD_dst : Fld := ⟨WFT_EVFWD, 25, 16⟩
/-- WFT_TUN_CTL. -/
def WFT_TUN_CTL : Nat := 0x40d00040
def WFT_TUN_CTL_node : Fld := ⟨WFT_TUN_CTL, 9, 0⟩
def WFT_TUN_CTL_write : Fld := ⟨WFT_TUN_CTL, 10, 10⟩
def WFT_TUN_CTL_start : Fld := ⟨WFT_TUN_CTL, 11, 11⟩
def WFT_TUN_CTL_abort : Fld := ⟨WFT_TUN_CTL, 12, 12⟩
/-- WFT_TUN_ADDR. -/
def WFT_TUN_ADDR : Nat := 0x40d00044
def WFT_TUN_ADDR_offset : Fld := ⟨WFT_TUN_ADDR, 25, 2⟩
/-- WFT_TUN_DATA. -/
def WFT_TUN_DATA : Nat := 0x40d00048
def WFT_TUN_DATA_data : Fld := ⟨WFT_TUN_DATA, 31, 0⟩
/-- WFT_TUN_STAT. -/
def WFT_TUN_STAT : Nat := 0x40d0004c
def WFT_TUN_STAT_result : Fld := ⟨WFT_TUN_STAT, 2, 0⟩
def WFT_TUN_STAT_abort_late : Fld := ⟨WFT_TUN_STAT, 3, 3⟩
def WFT_TUN_STAT_ovr : Fld := ⟨WFT_TUN_STAT, 4, 4⟩
/-- WFT_BUSw. -/
def WFT_BUS (i : Nat) : Nat := 0x40d00100 + 0x4 * i
def WFT_BUS_lane (i : Nat) : Fld := ⟨WFT_BUS i, 7, 0⟩
def WFT_BUS_add (i : Nat) : Fld := ⟨WFT_BUS i, 8, 8⟩
/-- WFT_NTi_SER_LO. -/
def WFT_NT_SER (i : Nat) : Nat := 0x40d01000 + 0x10 * i
def WFT_NT_SER_serial (i : Nat) : Fld := ⟨WFT_NT_SER i, 63, 0⟩
/-- WFT_NTi_HOP. -/
def WFT_NT_HOP (i : Nat) : Nat := 0x40d01008 + 0x10 * i
def WFT_NT_HOP_hop (i : Nat) : Fld := ⟨WFT_NT_HOP i, 15, 0⟩
/-- WFT_NTi_DROOT. -/
def WFT_NT_DROOT (i : Nat) : Nat := 0x40d0100c + 0x10 * i
def WFT_NT_DROOT_droot (i : Nat) : Fld := ⟨WFT_NT_DROOT i, 23, 0⟩

/-! ### LEG (spec/15_compatibility_mode.md) -/
/-- LEG_CTL. -/
def LEG_CTL : Nat := 0x40e00000
def LEG_CTL_en : Fld := ⟨LEG_CTL, 3, 0⟩
/-- LEG_CFG. -/
def LEG_CFG : Nat := 0x40e00004
def LEG_CFG_delay : Fld := ⟨LEG_CFG, 11, 0⟩
/-- LEG_STAT. -/
def LEG_STAT : Nat := 0x40e00008
def LEG_STAT_active : Fld := ⟨LEG_STAT, 3, 0⟩
def LEG_STAT_pins : Fld := ⟨LEG_STAT, 4, 4⟩
def LEG_STAT_overload : Fld := ⟨LEG_STAT, 5, 5⟩
def LEG_STAT_delay : Fld := ⟨LEG_STAT, 27, 16⟩
/-- LEG_CNT. -/
def LEG_CNT : Nat := 0x40e0000c
def LEG_CNT_rej : Fld := ⟨LEG_CNT, 11, 0⟩
def LEG_CNT_ign : Fld := ⟨LEG_CNT, 19, 12⟩
def LEG_CNT_clamp : Fld := ⟨LEG_CNT, 31, 20⟩
/-- LEG_IRQ_STAT. -/
def LEG_IRQ_STAT : Nat := 0x40e00020
def LEG_IRQ_STAT_endf : Fld := ⟨LEG_IRQ_STAT, 3, 0⟩
def LEG_IRQ_STAT_rej : Fld := ⟨LEG_IRQ_STAT, 4, 4⟩
def LEG_IRQ_STAT_clamp : Fld := ⟨LEG_IRQ_STAT, 5, 5⟩
def LEG_IRQ_STAT_overload : Fld := ⟨LEG_IRQ_STAT, 6, 6⟩
/-- LEG_IRQ_EN. -/
def LEG_IRQ_EN : Nat := 0x40e00024
def LEG_IRQ_EN_endf : Fld := ⟨LEG_IRQ_EN, 3, 0⟩
def LEG_IRQ_EN_rej : Fld := ⟨LEG_IRQ_EN, 4, 4⟩
def LEG_IRQ_EN_clamp : Fld := ⟨LEG_IRQ_EN, 5, 5⟩
def LEG_IRQ_EN_overload : Fld := ⟨LEG_IRQ_EN, 6, 6⟩
/-- LEG_TBL_ADDR. -/
def LEG_TBL_ADDR : Nat := 0x40e00030
def LEG_TBL_ADDR_index : Fld := ⟨LEG_TBL_ADDR, 8, 0⟩
/-- LEG_TBL_DATA. -/
def LEG_TBL_DATA : Nat := 0x40e00034
def LEG_TBL_DATA_entry : Fld := ⟨LEG_TBL_DATA, 15, 0⟩
/-- LEG_INSTi_CFG. -/
def LEG_INST_CFG (i : Nat) : Nat := 0x40e00100 + 0x10 * i
def LEG_INST_CFG_main_bus (i : Nat) : Fld := ⟨LEG_INST_CFG i, 7, 0⟩
def LEG_INST_CFG_send_bus (i : Nat) : Fld := ⟨LEG_INST_CFG i, 15, 8⟩
def LEG_INST_CFG_sap_mask (i : Nat) : Fld := ⟨LEG_INST_CFG i, 23, 16⟩
/-- LEG_INSTi_BASE_LO. -/
def LEG_INST_BASE (i : Nat) : Nat := 0x40e00104 + 0x10 * i
def LEG_INST_BASE_base (i : Nat) : Fld := ⟨LEG_INST_BASE i, 63, 0⟩
/-- LEG_INSTi_LEN. -/
def LEG_INST_LEN (i : Nat) : Nat := 0x40e0010c + 0x10 * i
def LEG_INST_LEN_words (i : Nat) : Fld := ⟨LEG_INST_LEN i, 24, 0⟩
/-- LEG_WINi_a: the instance `i`, the address `a` of its legacy window. -/
def LEG_WIN (i a : Nat) : Nat := 0x40e01000 + 0x100 * i + 4 * a

/-! ### SYS (spec/16_startup_image_host.md) -/
/-- SYS_ID. -/
def SYS_ID : Nat := 0x40000000
def SYS_ID_id : Fld := ⟨SYS_ID, 31, 0⟩
/-- SYS_CTL. -/
def SYS_CTL : Nat := 0x40000004
def SYS_CTL_remap : Fld := ⟨SYS_CTL, 0, 0⟩
def SYS_CTL_cfg_lock : Fld := ⟨SYS_CTL, 1, 1⟩
/-- SYS_CFG. -/
def SYS_CFG : Nat := 0x40000008
def SYS_CFG_pick : Fld := ⟨SYS_CFG, 1, 0⟩
def SYS_CFG_osr : Fld := ⟨SYS_CFG, 3, 2⟩
def SYS_CFG_dev_id : Fld := ⟨SYS_CFG, 10, 4⟩
/-- SYS_STAT. -/
def SYS_STAT : Nat := 0x4000000c
def SYS_STAT_step : Fld := ⟨SYS_STAT, 3, 0⟩
def SYS_STAT_boot_err : Fld := ⟨SYS_STAT, 7, 4⟩
def SYS_STAT_err_sect : Fld := ⟨SYS_STAT, 23, 8⟩
def SYS_STAT_bootsel : Fld := ⟨SYS_STAT, 26, 24⟩
def SYS_STAT_push_wait : Fld := ⟨SYS_STAT, 27, 27⟩
def SYS_STAT_recovery : Fld := ⟨SYS_STAT, 28, 28⟩
def SYS_STAT_regs_err : Fld := ⟨SYS_STAT, 29, 29⟩
/-- SYS_RST. -/
def SYS_RST : Nat := 0x40000010
def SYS_RST_chip : Fld := ⟨SYS_RST, 0, 0⟩
def SYS_RST_mp : Fld := ⟨SYS_RST, 1, 1⟩
def SYS_RST_key : Fld := ⟨SYS_RST, 31, 16⟩
/-- SYS_WDOG. -/
def SYS_WDOG : Nat := 0x40000014
def SYS_WDOG_tmo : Fld := ⟨SYS_WDOG, 15, 0⟩
/-- SYS_KICK. -/
def SYS_KICK : Nat := 0x40000018
def SYS_KICK_key : Fld := ⟨SYS_KICK, 15, 0⟩
/-- SYS_MPLOAD. -/
def SYS_MPLOAD : Nat := 0x4000001c
def SYS_MPLOAD_load : Fld := ⟨SYS_MPLOAD, 7, 0⟩
def SYS_MPLOAD_peak : Fld := ⟨SYS_MPLOAD, 15, 8⟩
def SYS_MPLOAD_syx_fill : Fld := ⟨SYS_MPLOAD, 22, 16⟩
/-- SYS_SYX. -/
def SYS_SYX : Nat := 0x40000020
def SYS_SYX_dropped : Fld := ⟨SYS_SYX, 15, 0⟩
def SYS_SYX_restarts : Fld := ⟨SYS_SYX, 23, 16⟩
/-- SYS_DRAM_FREE. -/
def SYS_DRAM_FREE : Nat := 0x40000024
def SYS_DRAM_FREE_units : Fld := ⟨SYS_DRAM_FREE, 17, 0⟩
/-- SYS_BOOT_LEN. -/
def SYS_BOOT_LEN : Nat := 0x40000028
def SYS_BOOT_LEN_bytes : Fld := ⟨SYS_BOOT_LEN, 29, 0⟩
/-- SYS_BOOT_TIME. -/
def SYS_BOOT_TIME : Nat := 0x4000002c
def SYS_BOOT_TIME_ms : Fld := ⟨SYS_BOOT_TIME, 15, 0⟩
/-- SYS_IRQ_STAT. -/
def SYS_IRQ_STAT : Nat := 0x40000040
def SYS_IRQ_STAT_raised : Fld := ⟨SYS_IRQ_STAT, 26, 0⟩
/-- SYS_IRQ_PIN_EN. -/
def SYS_IRQ_PIN_EN : Nat := 0x40000044
def SYS_IRQ_PIN_EN_en : Fld := ⟨SYS_IRQ_PIN_EN, 26, 0⟩

/-! ### HIF (spec/16_startup_image_host.md) -/
/-- HIF_SPI_CFG. -/
def HIF_SPI_CFG : Nat := 0x40f00000
def HIF_SPI_CFG_quad : Fld := ⟨HIF_SPI_CFG, 0, 0⟩
def HIF_SPI_CFG_dummy : Fld := ⟨HIF_SPI_CFG, 8, 1⟩
/-- HIF_SPI_STAT. -/
def HIF_SPI_STAT : Nat := 0x40f00004
def HIF_SPI_STAT_err : Fld := ⟨HIF_SPI_STAT, 0, 0⟩
def HIF_SPI_STAT_cause : Fld := ⟨HIF_SPI_STAT, 3, 1⟩
/-- HIF_CNT. -/
def HIF_CNT : Nat := 0x40f00008
def HIF_CNT_badcmd : Fld := ⟨HIF_CNT, 7, 0⟩
def HIF_CNT_late : Fld := ⟨HIF_CNT, 15, 8⟩
def HIF_CNT_partial : Fld := ⟨HIF_CNT, 23, 16⟩
/-- HIF_PCIE_STAT. -/
def HIF_PCIE_STAT : Nat := 0x40f00010
def HIF_PCIE_STAT_up : Fld := ⟨HIF_PCIE_STAT, 0, 0⟩
def HIF_PCIE_STAT_gen : Fld := ⟨HIF_PCIE_STAT, 2, 1⟩
def HIF_PCIE_STAT_width : Fld := ⟨HIF_PCIE_STAT, 4, 3⟩
def HIF_PCIE_STAT_l1 : Fld := ⟨HIF_PCIE_STAT, 5, 5⟩
def HIF_PCIE_STAT_bme : Fld := ⟨HIF_PCIE_STAT, 6, 6⟩
/-- HIF_PCIE_ERR. -/
def HIF_PCIE_ERR : Nat := 0x40f00014
def HIF_PCIE_ERR_ur : Fld := ⟨HIF_PCIE_ERR, 7, 0⟩
def HIF_PCIE_ERR_ca : Fld := ⟨HIF_PCIE_ERR, 15, 8⟩
def HIF_PCIE_ERR_discarded : Fld := ⟨HIF_PCIE_ERR, 23, 16⟩
/-- HIF_BAR2_BASE_LO. -/
def HIF_BAR2_BASE : Nat := 0x40f00018
def HIF_BAR2_BASE_base : Fld := ⟨HIF_BAR2_BASE, 31, 20⟩
/-- HIF_DB_STAT. -/
def HIF_DB_STAT : Nat := 0x40f00020
def HIF_DB_STAT_partial : Fld := ⟨HIF_DB_STAT, 8, 0⟩
def HIF_DB_STAT_clr : Fld := ⟨HIF_DB_STAT, 9, 9⟩
def HIF_DB_STAT_taken : Fld := ⟨HIF_DB_STAT, 31, 16⟩
/-- HIF_PCIID. -/
def HIF_PCIID : Nat := 0x40f00024
def HIF_PCIID_vendor : Fld := ⟨HIF_PCIID, 15, 0⟩
def HIF_PCIID_device : Fld := ⟨HIF_PCIID, 31, 16⟩
/-- HIF_PCISUB. -/
def HIF_PCISUB : Nat := 0x40f00028
def HIF_PCISUB_svendor : Fld := ⟨HIF_PCISUB, 15, 0⟩
def HIF_PCISUB_sid : Fld := ⟨HIF_PCISUB, 31, 16⟩
/-- HIF_IRQ_STAT. -/
def HIF_IRQ_STAT : Nat := 0x40f00030
def HIF_IRQ_STAT_spi_err : Fld := ⟨HIF_IRQ_STAT, 0, 0⟩
def HIF_IRQ_STAT_pcie_err : Fld := ⟨HIF_IRQ_STAT, 1, 1⟩
def HIF_IRQ_STAT_link : Fld := ⟨HIF_IRQ_STAT, 2, 2⟩
/-- HIF_IRQ_EN. -/
def HIF_IRQ_EN : Nat := 0x40f00034
def HIF_IRQ_EN_spi_err : Fld := ⟨HIF_IRQ_EN, 0, 0⟩
def HIF_IRQ_EN_pcie_err : Fld := ⟨HIF_IRQ_EN, 1, 1⟩
def HIF_IRQ_EN_link : Fld := ⟨HIF_IRQ_EN, 2, 2⟩

/-! ### XCH (spec/16_startup_image_host.md) -/
/-- XCH_MB_CTL. -/
def XCH_MB_CTL : Nat := 0x41000000
def XCH_MB_CTL_go : Fld := ⟨XCH_MB_CTL, 0, 0⟩
def XCH_MB_CTL_cancel : Fld := ⟨XCH_MB_CTL, 1, 1⟩
/-- XCH_MB_STAT. -/
def XCH_MB_STAT : Nat := 0x41000004
def XCH_MB_STAT_seq : Fld := ⟨XCH_MB_STAT, 15, 0⟩
def XCH_MB_STAT_ready : Fld := ⟨XCH_MB_STAT, 16, 16⟩
def XCH_MB_STAT_busy : Fld := ⟨XCH_MB_STAT, 17, 17⟩
def XCH_MB_STAT_slot : Fld := ⟨XCH_MB_STAT, 18, 18⟩
def XCH_MB_STAT_abort_late : Fld := ⟨XCH_MB_STAT, 19, 19⟩
def XCH_MB_STAT_ovr : Fld := ⟨XCH_MB_STAT, 20, 20⟩
/-- XCH_MB_CFG. -/
def XCH_MB_CFG : Nat := 0x41000008
def XCH_MB_CFG_tmo : Fld := ⟨XCH_MB_CFG, 15, 0⟩
/-- XCH_STAT. -/
def XCH_STAT : Nat := 0x4100000c
def XCH_STAT_coll : Fld := ⟨XCH_STAT, 0, 0⟩
/-- XCH_IRQ_STAT. -/
def XCH_IRQ_STAT : Nat := 0x41000010
def XCH_IRQ_STAT_ready : Fld := ⟨XCH_IRQ_STAT, 0, 0⟩
def XCH_IRQ_STAT_coll : Fld := ⟨XCH_IRQ_STAT, 1, 1⟩
/-- XCH_IRQ_EN. -/
def XCH_IRQ_EN : Nat := 0x41000014
def XCH_IRQ_EN_ready : Fld := ⟨XCH_IRQ_EN, 0, 0⟩
def XCH_IRQ_EN_coll : Fld := ⟨XCH_IRQ_EN, 1, 1⟩

/-! ### PWR (spec/17_power_thermal.md) -/
/-- PWR_STAT. -/
def PWR_STAT : Nat := 0x40010000
def PWR_STAT_pgood : Fld := ⟨PWR_STAT, 0, 0⟩
def PWR_STAT_rail_ok : Fld := ⟨PWR_STAT, 6, 1⟩
def PWR_STAT_phase_ok : Fld := ⟨PWR_STAT, 10, 7⟩
def PWR_STAT_lock : Fld := ⟨PWR_STAT, 11, 11⟩
def PWR_STAT_hold : Fld := ⟨PWR_STAT, 12, 12⟩
def PWR_STAT_pdie_hot : Fld := ⟨PWR_STAT, 13, 13⟩
/-- PWR_ILIM. -/
def PWR_ILIM : Nat := 0x40010004
def PWR_ILIM_ilim : Fld := ⟨PWR_ILIM, 5, 0⟩
/-- PWR_BOVTH. -/
def PWR_BOVTH : Nat := 0x40010008
def PWR_BOVTH_bovth : Fld := ⟨PWR_BOVTH, 8, 0⟩
/-- PWR_HOLD. -/
def PWR_HOLD : Nat := 0x4001000c
def PWR_HOLD_ms : Fld := ⟨PWR_HOLD, 9, 0⟩
/-- PWR_GOV. -/
def PWR_GOV : Nat := 0x40010010
def PWR_GOV_eta : Fld := ⟨PWR_GOV, 9, 0⟩
def PWR_GOV_base : Fld := ⟨PWR_GOV, 23, 16⟩
/-- PWR_GOVSTAT. -/
def PWR_GOVSTAT : Nat := 0x40010014
def PWR_GOVSTAT_d_gov : Fld := ⟨PWR_GOVSTAT, 10, 0⟩
def PWR_GOVSTAT_c_max : Fld := ⟨PWR_GOVSTAT, 18, 16⟩
/-- PWR_VIN. -/
def PWR_VIN : Nat := 0x40010018
def PWR_VIN_vin : Fld := ⟨PWR_VIN, 15, 0⟩
def PWR_VIN_vin_min : Fld := ⟨PWR_VIN, 31, 16⟩
/-- PWR_IIN. -/
def PWR_IIN : Nat := 0x4001001c
def PWR_IIN_iin : Fld := ⟨PWR_IIN, 15, 0⟩
def PWR_IIN_peak : Fld := ⟨PWR_IIN, 31, 16⟩
/-- PWR_RAIL. -/
def PWR_RAIL : Nat := 0x40010020
def PWR_RAIL_vcore : Fld := ⟨PWR_RAIL, 11, 0⟩
def PWR_RAIL_fcore : Fld := ⟨PWR_RAIL, 27, 16⟩
/-- PWR_CNT. -/
def PWR_CNT : Nat := 0x40010024
def PWR_CNT_bo : Fld := ⟨PWR_CNT, 7, 0⟩
def PWR_CNT_rec : Fld := ⟨PWR_CNT, 15, 8⟩
def PWR_CNT_ilim : Fld := ⟨PWR_CNT, 23, 16⟩
def PWR_CNT_phase : Fld := ⟨PWR_CNT, 31, 24⟩
/-- PWR_IRQ_STAT. -/
def PWR_IRQ_STAT : Nat := 0x40010030
def PWR_IRQ_STAT_bo : Fld := ⟨PWR_IRQ_STAT, 0, 0⟩
def PWR_IRQ_STAT_rec : Fld := ⟨PWR_IRQ_STAT, 1, 1⟩
def PWR_IRQ_STAT_phase : Fld := ⟨PWR_IRQ_STAT, 2, 2⟩
def PWR_IRQ_STAT_ilim : Fld := ⟨PWR_IRQ_STAT, 3, 3⟩
def PWR_IRQ_STAT_lock : Fld := ⟨PWR_IRQ_STAT, 4, 4⟩
def PWR_IRQ_STAT_pdie_hot : Fld := ⟨PWR_IRQ_STAT, 5, 5⟩
/-- PWR_IRQ_EN. -/
def PWR_IRQ_EN : Nat := 0x40010034
def PWR_IRQ_EN_bo : Fld := ⟨PWR_IRQ_EN, 0, 0⟩
def PWR_IRQ_EN_rec : Fld := ⟨PWR_IRQ_EN, 1, 1⟩
def PWR_IRQ_EN_phase : Fld := ⟨PWR_IRQ_EN, 2, 2⟩
def PWR_IRQ_EN_ilim : Fld := ⟨PWR_IRQ_EN, 3, 3⟩
def PWR_IRQ_EN_lock : Fld := ⟨PWR_IRQ_EN, 4, 4⟩
def PWR_IRQ_EN_pdie_hot : Fld := ⟨PWR_IRQ_EN, 5, 5⟩

/-! ### THM (spec/17_power_thermal.md) -/
/-- THM_STAT. -/
def THM_STAT : Nat := 0x40020000
def THM_STAT_level : Fld := ⟨THM_STAT, 1, 0⟩
def THM_STAT_critical : Fld := ⟨THM_STAT, 2, 2⟩
def THM_STAT_therm_n : Fld := ⟨THM_STAT, 3, 3⟩
/-- THM_LIM. -/
def THM_LIM : Nat := 0x40020004
def THM_LIM_t1 : Fld := ⟨THM_LIM, 7, 0⟩
def THM_LIM_t2 : Fld := ⟨THM_LIM, 15, 8⟩
def THM_LIM_t3_auto : Fld := ⟨THM_LIM, 16, 16⟩
/-- THM_LEVEL. -/
def THM_LEVEL : Nat := 0x40020008
def THM_LEVEL_levels : Fld := ⟨THM_LEVEL, 9, 0⟩
/-- THM_CNT. -/
def THM_CNT : Nat := 0x4002000c
def THM_CNT_t1 : Fld := ⟨THM_CNT, 7, 0⟩
def THM_CNT_t2 : Fld := ⟨THM_CNT, 15, 8⟩
def THM_CNT_t3 : Fld := ⟨THM_CNT, 23, 16⟩
/-- THM_Ts. -/
def THM_T (i : Nat) : Nat := 0x40020010 + 0x4 * i
def THM_T_temp (i : Nat) : Fld := ⟨THM_T i, 15, 0⟩
def THM_T_max (i : Nat) : Fld := ⟨THM_T i, 31, 16⟩
/-- THM_IRQ_STAT. -/
def THM_IRQ_STAT : Nat := 0x40020040
def THM_IRQ_STAT_t1 : Fld := ⟨THM_IRQ_STAT, 0, 0⟩
def THM_IRQ_STAT_t2 : Fld := ⟨THM_IRQ_STAT, 1, 1⟩
def THM_IRQ_STAT_t3 : Fld := ⟨THM_IRQ_STAT, 2, 2⟩
def THM_IRQ_STAT_left : Fld := ⟨THM_IRQ_STAT, 3, 3⟩
def THM_IRQ_STAT_pdie : Fld := ⟨THM_IRQ_STAT, 4, 4⟩
/-- THM_IRQ_EN. -/
def THM_IRQ_EN : Nat := 0x40020044
def THM_IRQ_EN_t1 : Fld := ⟨THM_IRQ_EN, 0, 0⟩
def THM_IRQ_EN_t2 : Fld := ⟨THM_IRQ_EN, 1, 1⟩
def THM_IRQ_EN_t3 : Fld := ⟨THM_IRQ_EN, 2, 2⟩
def THM_IRQ_EN_left : Fld := ⟨THM_IRQ_EN, 3, 3⟩
def THM_IRQ_EN_pdie : Fld := ⟨THM_IRQ_EN, 4, 4⟩

/-! ### REL (spec/18_reliability_security.md) -/
/-- REL_CFG. -/
def REL_CFG : Nat := 0x41200000
def REL_CFG_rot_en : Fld := ⟨REL_CFG, 0, 0⟩
def REL_CFG_auto_reset : Fld := ⟨REL_CFG, 1, 1⟩
def REL_CFG_retire_fuse : Fld := ⟨REL_CFG, 2, 2⟩
def REL_CFG_late_quar : Fld := ⟨REL_CFG, 6, 3⟩
def REL_CFG_rot_picks : Fld := ⟨REL_CFG, 23, 8⟩
/-- REL_CTL. -/
def REL_CTL : Nat := 0x41200004
def REL_CTL_unquar : Fld := ⟨REL_CTL, 3, 0⟩
/-- REL_STAT. -/
def REL_STAT : Nat := 0x41200008
def REL_STAT_safe : Fld := ⟨REL_STAT, 0, 0⟩
def REL_STAT_cause : Fld := ⟨REL_STAT, 4, 1⟩
def REL_STAT_quar : Fld := ⟨REL_STAT, 11, 8⟩
def REL_STAT_retired : Fld := ⟨REL_STAT, 23, 16⟩
/-- REL_CNT. -/
def REL_CNT : Nat := 0x4120000c
def REL_CNT_kills : Fld := ⟨REL_CNT, 7, 0⟩
def REL_CNT_ireload : Fld := ⟨REL_CNT, 15, 8⟩
def REL_CNT_slots_out : Fld := ⟨REL_CNT, 23, 16⟩
def REL_CNT_quar : Fld := ⟨REL_CNT, 27, 24⟩
def REL_CNT_safe : Fld := ⟨REL_CNT, 31, 28⟩
/-- REL_HCAP_ADDR. -/
def REL_HCAP_ADDR : Nat := 0x41200010
def REL_HCAP_ADDR_addr : Fld := ⟨REL_HCAP_ADDR, 31, 0⟩
/-- REL_HCAP_INFO. -/
def REL_HCAP_INFO : Nat := 0x41200014
def REL_HCAP_INFO_harness : Fld := ⟨REL_HCAP_INFO, 4, 0⟩
def REL_HCAP_INFO_kind : Fld := ⟨REL_HCAP_INFO, 7, 5⟩
def REL_HCAP_INFO_slot : Fld := ⟨REL_HCAP_INFO, 15, 8⟩
def REL_HCAP_INFO_valid : Fld := ⟨REL_HCAP_INFO, 31, 31⟩
/-- REL_LCAP. -/
def REL_LCAP : Nat := 0x41200018
def REL_LCAP_loom : Fld := ⟨REL_LCAP, 1, 0⟩
def REL_LCAP_cause : Fld := ⟨REL_LCAP, 4, 2⟩
def REL_LCAP_valid : Fld := ⟨REL_LCAP, 31, 31⟩
/-- REL_CCAP. -/
def REL_CCAP : Nat := 0x4120001c
def REL_CCAP_cause : Fld := ⟨REL_CCAP, 3, 0⟩
def REL_CCAP_detail : Fld := ⟨REL_CCAP, 23, 8⟩
def REL_CCAP_valid : Fld := ⟨REL_CCAP, 31, 31⟩
/-- REL_IRQ_STAT. -/
def REL_IRQ_STAT : Nat := 0x41200020
def REL_IRQ_STAT_retire : Fld := ⟨REL_IRQ_STAT, 0, 0⟩
def REL_IRQ_STAT_kill : Fld := ⟨REL_IRQ_STAT, 1, 1⟩
def REL_IRQ_STAT_ireload : Fld := ⟨REL_IRQ_STAT, 2, 2⟩
def REL_IRQ_STAT_quar : Fld := ⟨REL_IRQ_STAT, 3, 3⟩
def REL_IRQ_STAT_safe : Fld := ⟨REL_IRQ_STAT, 4, 4⟩
def REL_IRQ_STAT_bist_fail : Fld := ⟨REL_IRQ_STAT, 5, 5⟩
def REL_IRQ_STAT_rot_late : Fld := ⟨REL_IRQ_STAT, 6, 6⟩
/-- REL_IRQ_EN. -/
def REL_IRQ_EN : Nat := 0x41200024
def REL_IRQ_EN_retire : Fld := ⟨REL_IRQ_EN, 0, 0⟩
def REL_IRQ_EN_kill : Fld := ⟨REL_IRQ_EN, 1, 1⟩
def REL_IRQ_EN_ireload : Fld := ⟨REL_IRQ_EN, 2, 2⟩
def REL_IRQ_EN_quar : Fld := ⟨REL_IRQ_EN, 3, 3⟩
def REL_IRQ_EN_safe : Fld := ⟨REL_IRQ_EN, 4, 4⟩
def REL_IRQ_EN_bist_fail : Fld := ⟨REL_IRQ_EN, 5, 5⟩
def REL_IRQ_EN_rot_late : Fld := ⟨REL_IRQ_EN, 6, 6⟩
/-- REL_ROT. -/
def REL_ROT : Nat := 0x41200030
def REL_ROT_late : Fld := ⟨REL_ROT, 7, 0⟩
def REL_ROT_fail : Fld := ⟨REL_ROT, 15, 8⟩
def REL_ROT_pass : Fld := ⟨REL_ROT, 31, 16⟩
/-- REL_RETIREk. -/
def REL_RETIRE (i : Nat) : Nat := 0x41200040 + 0x4 * i
def REL_RETIRE_retired (i : Nat) : Fld := ⟨REL_RETIRE i, 31, 0⟩
/-- REL_IMP_LO. -/
def REL_IMP : Nat := 0x41200060
def REL_IMP_imp : Fld := ⟨REL_IMP, 63, 0⟩
/-- REL_IMPX_LO. -/
def REL_IMPX : Nat := 0x41200068
def REL_IMPX_impx : Fld := ⟨REL_IMPX, 63, 0⟩
/-- REL_PICKS_LO. -/
def REL_PICKS : Nat := 0x41200070
def REL_PICKS_picks : Fld := ⟨REL_PICKS, 63, 0⟩

/-! ### SEC (spec/18_reliability_security.md) -/
/-- SEC_STAT. -/
def SEC_STAT : Nat := 0x41100000
def SEC_STAT_dbg_lock : Fld := ⟨SEC_STAT, 0, 0⟩
def SEC_STAT_img_auth : Fld := ⟨SEC_STAT, 1, 1⟩
def SEC_STAT_method : Fld := ⟨SEC_STAT, 3, 2⟩
def SEC_STAT_prog : Fld := ⟨SEC_STAT, 7, 4⟩
def SEC_STAT_opn : Fld := ⟨SEC_STAT, 10, 8⟩
def SEC_STAT_bypass_armed : Fld := ⟨SEC_STAT, 11, 11⟩
def SEC_STAT_fails : Fld := ⟨SEC_STAT, 20, 16⟩
def SEC_STAT_trng_fail : Fld := ⟨SEC_STAT, 21, 21⟩
/-- SEC_SERIAL_LO. -/
def SEC_SERIAL : Nat := 0x41100008
def SEC_SERIAL_serial : Fld := ⟨SEC_SERIAL, 63, 0⟩
/-- SEC_UNLK. -/
def SEC_UNLK : Nat := 0x41100010
def SEC_UNLK_scope : Fld := ⟨SEC_UNLK, 2, 0⟩
def SEC_UNLK_chal : Fld := ⟨SEC_UNLK, 8, 8⟩
def SEC_UNLK_submit : Fld := ⟨SEC_UNLK, 9, 9⟩
def SEC_UNLK_result : Fld := ⟨SEC_UNLK, 13, 12⟩
/-- SEC_NONCEi. -/
def SEC_NONCE (i : Nat) : Nat := 0x41100020 + 0x4 * i
def SEC_NONCE_nonce (i : Nat) : Fld := ⟨SEC_NONCE i, 31, 0⟩
/-- SEC_RESPi. -/
def SEC_RESP (i : Nat) : Nat := 0x41100040 + 0x4 * i
def SEC_RESP_resp (i : Nat) : Fld := ⟨SEC_RESP i, 31, 0⟩
/-- SEC_TRNG. -/
def SEC_TRNG : Nat := 0x41100060
def SEC_TRNG_random : Fld := ⟨SEC_TRNG, 31, 0⟩
/-- SEC_TRNG_STAT. -/
def SEC_TRNG_STAT : Nat := 0x41100064
def SEC_TRNG_STAT_ready : Fld := ⟨SEC_TRNG_STAT, 0, 0⟩
def SEC_TRNG_STAT_health_fails : Fld := ⟨SEC_TRNG_STAT, 15, 8⟩
/-- SEC_IRQ_STAT. -/
def SEC_IRQ_STAT : Nat := 0x41100070
def SEC_IRQ_STAT_unlock : Fld := ⟨SEC_IRQ_STAT, 0, 0⟩
def SEC_IRQ_STAT_refused : Fld := ⟨SEC_IRQ_STAT, 1, 1⟩
def SEC_IRQ_STAT_trng : Fld := ⟨SEC_IRQ_STAT, 2, 2⟩
/-- SEC_IRQ_EN. -/
def SEC_IRQ_EN : Nat := 0x41100074
def SEC_IRQ_EN_unlock : Fld := ⟨SEC_IRQ_EN, 0, 0⟩
def SEC_IRQ_EN_refused : Fld := ⟨SEC_IRQ_EN, 1, 1⟩
def SEC_IRQ_EN_trng : Fld := ⟨SEC_IRQ_EN, 2, 2⟩

/-- The registers of block TBU. -/
def regsTBU : List RegDesc := [
  ⟨0x40100000, 0x0, 1, false, 0x40, 0x0, 0x3ff, 0x0, 0x0, 0x0, 0x0, 0x0⟩,
  ⟨0x40100004, 0x0, 1, false, 0x4000200, 0x0, 0x0, 0x0, 0x0, 0x0, 0x0, 0x7ff0707⟩,
  ⟨0x40100008, 0x0, 1, false, 0x0, 0x0, 0x0, 0x0, 0x0, 0xffffffff, 0x0, 0x0⟩,
  ⟨0x4010000c, 0x0, 1, false, 0x64, 0x0, 0xffff, 0x0, 0x0, 0x0, 0x0, 0x0⟩,
  ⟨0x40100010, 0x0, 1, false, 0x0, 0x0, 0x0, 0x0, 0x0, 0x0, 0x0, 0xffffffff⟩,
  ⟨0x40100020, 0x0, 1, true, 0x0, 0x0, 0x0, 0x0, 0x0, 0x0, 0x0, 0xffffffffffffffff⟩,
  ⟨0x40100028, 0x0, 1, true, 0x0, 0x0, 0x0, 0x0, 0x0, 0x0, 0x0, 0xffffffffffffffff⟩,
  ⟨0x40100030, 0x0, 1, true, 0x0, 0x0, 0x0, 0x0, 0x0, 0x0, 0x0, 0xffffffffffffffff⟩,
  ⟨0x40100038, 0x0, 1, true, 0x0, 0x0, 0x0, 0x0, 0x0, 0x0, 0x0, 0xffffffffffffffff⟩,
  ⟨0x40100040, 0x0, 1, false, 0xc310620, 0xffffffff, 0x0, 0x0, 0x0, 0x0, 0x0, 0x0⟩,
  ⟨0x40100044, 0x0, 1, false, 0x780000, 0xffffffff, 0x0, 0x0, 0x0, 0x0, 0x0, 0x0⟩,
  ⟨0x40100048, 0x0, 1, false, 0x0, 0x0, 0x0, 0x0, 0x0, 0x0, 0x0, 0xffffffff⟩,
  ⟨0x4010004c, 0x0, 1, false, 0x0, 0x0, 0x0, 0x0, 0x0, 0xffffffff, 0x0, 0x0⟩,
  ⟨0x40100050, 0x0, 1, true, 0x0, 0x0, 0x0, 0x0, 0x0, 0x0, 0x0, 0xffffffffffffffff⟩,
  ⟨0x40100058, 0x0, 1, true, 0x0, 0x0, 0x0, 0x0, 0x0, 0x0, 0x0, 0xffffffffffffffff⟩,
  ⟨0x40100060, 0x0, 1, false, 0x10030, 0xff07ff, 0x0, 0x0, 0x0, 0x0, 0x0, 0x0⟩,
  ⟨0x40100070, 0x0, 1, false, 0x0, 0x0, 0x0, 0xffffffff, 0x0, 0x0, 0x0, 0x0⟩,
  ⟨0x40100074, 0x0, 1, false, 0x0, 0xffffffff, 0x0, 0x0, 0x0, 0x0, 0x0, 0x0⟩,
  ⟨0x40100078, 0x0, 1, false, 0x0, 0x0, 0x0, 0x1ff, 0x0, 0x0, 0x0, 0x0⟩,
  ⟨0x4010007c, 0x0, 1, false, 0x0, 0x1ff, 0x0, 0x0, 0x0, 0x0, 0x0, 0x0⟩,
  ⟨0x40100100, 0x10, 16, false, 0x0, 0x3, 0x0, 0x0, 0x0, 0x0, 0x0, 0x4⟩,
  ⟨0x40100108, 0x10, 16, true, 0x0, 0xffffffffffffffff, 0x0, 0x0, 0x0, 0x0, 0x0, 0x0⟩,
  ⟨0x40100200, 0x0, 1, false, 0x0, 0x0, 0x0, 0xffffffff, 0x0, 0x0, 0x0, 0x0⟩,
  ⟨0x40100300, 0x10, 8, false, 0x0, 0x3ff, 0x0, 0x0, 0x0, 0x0, 0x0, 0x0⟩,
  ⟨0x40100304, 0x10, 8, false, 0x0, 0x0, 0x0, 0x0, 0x0, 0xff00, 0x0, 0x3⟩,
  ⟨0x40100308, 0x10, 8, true, 0x0, 0x0, 0x0, 0x0, 0x0, 0x0, 0x0, 0xffffffffffffffff⟩,
  ⟨0x40100400, 0x10, 8, false, 0x0, 0x1f, 0x0, 0x0, 0x0, 0x0, 0x0, 0x0⟩,
  ⟨0x40100404, 0x10, 8, false, 0x0, 0x0, 0x0, 0x0, 0x0, 0x0, 0x0, 0xffffffff⟩,
  ⟨0x40100408, 0x10, 8, false, 0x0, 0xffffffff, 0x0, 0x0, 0x0, 0x0, 0x0, 0x0⟩,
  ⟨0x40100480, 0x8, 4, true, 0x0, 0x0, 0x0, 0x0, 0x0, 0x0, 0x0, 0xffffffffffffffff⟩]

/-- The registers of block EFE. -/
def regsEFE : List RegDesc := [
  ⟨0x40200000, 0x0, 1, false, 0x0, 0x3ff, 0x0, 0x0, 0x0, 0x0, 0x0, 0x0⟩,
  ⟨0x40200004, 0x0, 1, false, 0x40, 0x0, 0x1ff, 0x0, 0x0, 0x0, 0x0, 0x0⟩,
  ⟨0x40200008, 0x0, 1, false, 0x0, 0x0, 0x0, 0x0, 0x0, 0x7fff0000, 0x0, 0x7fff⟩,
  ⟨0x4020000c, 0x0, 1, false, 0x0, 0x0, 0x0, 0x0, 0x0, 0xffffffff, 0x0, 0x0⟩,
  ⟨0x40200020, 0x0, 1, false, 0x0, 0x0, 0x0, 0x703ff, 0x0, 0x0, 0x0, 0x0⟩,
  ⟨0x40200024, 0x0, 1, false, 0x0, 0x703ff, 0x0, 0x0, 0x0, 0x0, 0x0, 0x0⟩,
  ⟨0x40200028, 0x0, 1, false, 0x0, 0x0, 0x0, 0x0, 0x0, 0xffffffff, 0x0, 0x0⟩,
  ⟨0x4020002c, 0x0, 1, false, 0x0, 0x0, 0x0, 0x0, 0x0, 0xff00, 0x0, 0x1f⟩,
  ⟨0x40200100, 0x20, 16, false, 0x1, 0xffff, 0x0, 0x0, 0x0, 0x0, 0x0, 0x0⟩,
  ⟨0x40200104, 0x20, 16, false, 0x0, 0x0, 0x0, 0x0, 0x0, 0x1fffff, 0x0, 0x0⟩,
  ⟨0x40200108, 0x20, 16, false, 0x0, 0x0, 0x0, 0x0, 0x0, 0xffffffff, 0x0, 0x0⟩,
  ⟨0x4020010c, 0x20, 16, false, 0x0, 0x0, 0x0, 0x0, 0x0, 0x0, 0x0, 0x1ffffff⟩,
  ⟨0x40200300, 0x4, 4, false, 0x8, 0xf, 0x0, 0x0, 0x0, 0x0, 0x0, 0x0⟩,
  ⟨0x40200400, 0x4, 20, false, 0x0, 0xf0f, 0x0, 0x0, 0x0, 0x0, 0x0, 0x0⟩,
  ⟨0x40200500, 0x20, 8, false, 0x0, 0xfff, 0x0, 0x0, 0x0, 0x0, 0x0, 0x0⟩,
  ⟨0x40200508, 0x20, 8, false, 0x0, 0xffffffff, 0x0, 0x0, 0x0, 0x0, 0x0, 0x0⟩,
  ⟨0x4020050c, 0x20, 8, false, 0x0, 0xffffffff, 0x0, 0x0, 0x0, 0x0, 0x0, 0x0⟩,
  ⟨0x40200510, 0x20, 8, false, 0x0, 0xffffffff, 0x0, 0x0, 0x0, 0x0, 0x0, 0x0⟩,
  ⟨0x40200514, 0x20, 8, false, 0x0, 0xffffffff, 0x0, 0x0, 0x0, 0x0, 0x0, 0x0⟩,
  ⟨0x40201000, 0x4, 320, false, 0x0, 0xbf, 0x0, 0x0, 0x0, 0x0, 0x0, 0x0⟩]

/-- The registers of block DLR. -/
def regsDLR : List RegDesc := [
  ⟨0x40300000, 0x0, 1, false, 0x0, 0x0, 0xf, 0x0, 0x0, 0x0, 0x0, 0x0⟩,
  ⟨0x40300004, 0x0, 1, false, 0x1000300, 0x0, 0xfff03ff, 0x0, 0x0, 0x0, 0x0, 0x0⟩,
  ⟨0x40300008, 0x0, 1, false, 0x0, 0x0, 0x0, 0x0, 0x0, 0x0, 0x0, 0xf1⟩,
  ⟨0x4030000c, 0x0, 1, false, 0x4000400, 0x0, 0x0, 0x0, 0x0, 0x0, 0x0, 0x7ff07ff⟩,
  ⟨0x40300010, 0x0, 1, false, 0x0, 0x0, 0x0, 0x0, 0x0, 0xffffffff, 0x0, 0x0⟩,
  ⟨0x40300014, 0x0, 1, false, 0x0, 0x0, 0x0, 0x0, 0x0, 0xffffffff, 0x0, 0x0⟩,
  ⟨0x40300018, 0x0, 1, false, 0x0, 0x0, 0x0, 0x0, 0x0, 0xffff, 0x0, 0x0⟩,
  ⟨0x40300020, 0x0, 1, false, 0x0, 0x0, 0x0, 0x1ff, 0x0, 0x0, 0x0, 0x0⟩,
  ⟨0x40300024, 0x0, 1, false, 0x0, 0x1ff, 0x0, 0x0, 0x0, 0x0, 0x0, 0x0⟩,
  ⟨0x40300030, 0x0, 1, false, 0x0, 0x0, 0x0, 0x0, 0x0, 0x0, 0x3fff, 0x0⟩,
  ⟨0x40300034, 0x0, 1, false, 0x0, 0x0, 0x0, 0x8, 0x0, 0x0, 0x0, 0x3fff0007⟩,
  ⟨0x40300040, 0x0, 1, false, 0x0, 0x0, 0x0, 0x0, 0x3, 0x0, 0x0, 0x0⟩,
  ⟨0x40300044, 0x0, 1, false, 0x0, 0x3fffc0, 0x0, 0x0, 0x0, 0x0, 0x0, 0x0⟩,
  ⟨0x40300048, 0x0, 1, false, 0x0, 0x0, 0x0, 0x0, 0x0, 0x0, 0x0, 0xfffff⟩,
  ⟨0x40300080, 0x4, 8, false, 0x0, 0xfffff, 0x0, 0x0, 0x0, 0x0, 0x0, 0x0⟩,
  ⟨0x40300100, 0x10, 32, false, 0x0, 0x0, 0x0, 0x0, 0x0, 0x0, 0x0, 0xffffffff⟩,
  ⟨0x40300104, 0x10, 32, false, 0x0, 0x0, 0x0, 0x0, 0x0, 0x0, 0x0, 0xffffffff⟩,
  ⟨0x40300108, 0x10, 32, false, 0x400, 0x0, 0x0, 0x0, 0x0, 0x0, 0x0, 0x1ff77ff⟩,
  ⟨0x40300300, 0x4, 32, false, 0x43210, 0x0, 0x0, 0x0, 0x0, 0x0, 0x0, 0x77777⟩]

/-- The registers of block VAL. -/
def regsVAL : List RegDesc := [
  ⟨0x40400000, 0x0, 1, false, 0x10, 0x0, 0x3f, 0x0, 0x0, 0x0, 0x0, 0x0⟩,
  ⟨0x40400004, 0x0, 1, false, 0x0, 0x0, 0x0, 0x0, 0x0, 0x0, 0x0, 0x3fff3fff⟩,
  ⟨0x40400008, 0x0, 1, false, 0x0, 0x0, 0x0, 0x0, 0x0, 0xffffffff, 0x0, 0x0⟩,
  ⟨0x4040000c, 0x0, 1, false, 0x0, 0x0, 0x0, 0x0, 0x0, 0xffffffff, 0x0, 0x0⟩,
  ⟨0x40400010, 0x0, 1, false, 0x0, 0x0, 0x0, 0x0, 0x0, 0xffffffff, 0x0, 0x0⟩,
  ⟨0x40400014, 0x0, 1, false, 0x0, 0x0, 0x0, 0x0, 0x0, 0xffffffff, 0x0, 0x0⟩,
  ⟨0x40400020, 0x0, 1, false, 0x0, 0x0, 0x0, 0x3f, 0x0, 0x0, 0x0, 0x0⟩,
  ⟨0x40400024, 0x0, 1, false, 0x0, 0x3f, 0x0, 0x0, 0x0, 0x0, 0x0, 0x0⟩,
  ⟨0x40400040, 0x0, 1, false, 0x0, 0x0, 0x0, 0x0, 0x0, 0x0, 0x33fff, 0x0⟩,
  ⟨0x40400044, 0x0, 1, false, 0x0, 0x0, 0x0, 0x8, 0x0, 0x0, 0x0, 0x7⟩,
  ⟨0x40400048, 0x4, 4, false, 0x0, 0x0, 0x0, 0x0, 0x0, 0x0, 0x0, 0xffffffff⟩]

/-- The registers of block SHT. -/
def regsSHT : List RegDesc := [
  ⟨0x40500000, 0x0, 1, false, 0x400, 0x0, 0xffff, 0x0, 0x0, 0x0, 0x0, 0x0⟩,
  ⟨0x40500004, 0x0, 1, false, 0x480040, 0x0, 0x1fff1fff, 0x0, 0x0, 0x0, 0x0, 0x0⟩,
  ⟨0x40500020, 0x0, 1, false, 0x0, 0x0, 0x0, 0xf, 0x0, 0x0, 0x0, 0x0⟩,
  ⟨0x40500024, 0x0, 1, false, 0x0, 0xf, 0x0, 0x0, 0x0, 0x0, 0x0, 0x0⟩,
  ⟨0x40500030, 0x0, 1, false, 0x0, 0xff, 0x0, 0x0, 0x100, 0x0, 0x0, 0x0⟩,
  ⟨0x40500100, 0x4, 32, false, 0x0, 0x0, 0x0, 0x0, 0x0, 0xffffffff, 0x0, 0x0⟩,
  ⟨0x40501000, 0x10, 160, false, 0x0, 0x0, 0x0, 0x0, 0x0, 0x0, 0x0, 0x3fffffff⟩,
  ⟨0x40501004, 0x10, 160, false, 0x0, 0x0, 0x0, 0x0, 0x0, 0x0, 0x0, 0xffff1fff⟩,
  ⟨0x40501008, 0x10, 160, false, 0x0, 0x0, 0x0, 0x0, 0x0, 0x0, 0x0, 0xffffffff⟩,
  ⟨0x4050100c, 0x10, 160, false, 0x0, 0x0, 0x0, 0x0, 0x0, 0xffffffff, 0x0, 0x0⟩]

/-- The registers of block MIX. -/
def regsMIX : List RegDesc := [
  ⟨0x40600000, 0x0, 1, false, 0xf, 0xf, 0x0, 0x0, 0x0, 0x0, 0x0, 0x0⟩,
  ⟨0x40600004, 0x0, 1, false, 0xf, 0x0, 0x0, 0x0, 0x0, 0x0, 0x0, 0xfff⟩,
  ⟨0x40600008, 0x0, 1, false, 0x0, 0x0, 0x0, 0x0, 0x0, 0xffffffff, 0x0, 0x0⟩,
  ⟨0x4060000c, 0x0, 1, false, 0x0, 0x0, 0x0, 0x0, 0x0, 0xffffffff, 0x0, 0x0⟩,
  ⟨0x40600010, 0x0, 1, false, 0x0, 0x0, 0x0, 0x0, 0x0, 0xffff, 0x0, 0x0⟩,
  ⟨0x40600020, 0x0, 1, false, 0x0, 0x0, 0x0, 0xf, 0x0, 0x0, 0x0, 0x0⟩,
  ⟨0x40600024, 0x0, 1, false, 0x0, 0xf, 0x0, 0x0, 0x0, 0x0, 0x0, 0x0⟩,
  ⟨0x40600100, 0x4, 256, false, 0x0, 0x1ffff, 0x0, 0x0, 0x0, 0x0, 0x0, 0x0⟩,
  ⟨0x40600500, 0x4, 256, false, 0x0, 0x0, 0x0, 0x0, 0x0, 0x0, 0x0, 0xffff1fff⟩]

/-- The registers of block DCH. -/
def regsDCH : List RegDesc := [
  ⟨0x40700000, 0x0, 1, false, 0x80, 0x0, 0x1ff, 0x0, 0x0, 0x0, 0x0, 0x0⟩,
  ⟨0x40700004, 0x0, 1, false, 0x0, 0x0, 0x0, 0x0, 0x0, 0x0, 0x0, 0xffffffff⟩,
  ⟨0x40700010, 0x0, 1, false, 0x0, 0x1fff, 0x0, 0x0, 0x0, 0x0, 0x0, 0x0⟩,
  ⟨0x40700014, 0x0, 1, false, 0x0, 0x0, 0x0, 0x0, 0x0, 0x0, 0x0, 0xffffffff⟩,
  ⟨0x40700020, 0x0, 1, false, 0x0, 0x0, 0x0, 0xf, 0x0, 0x0, 0x0, 0x0⟩,
  ⟨0x40700024, 0x0, 1, false, 0x0, 0xf, 0x0, 0x0, 0x0, 0x0, 0x0, 0x0⟩,
  ⟨0x40700400, 0x4, 256, false, 0x27, 0x7777f, 0x0, 0x0, 0x0, 0x0, 0x0, 0x0⟩,
  ⟨0x40700800, 0x4, 256, false, 0x7, 0x0, 0x0, 0x1f0000, 0x0, 0x0, 0x0, 0x7ff⟩,
  ⟨0x40700c00, 0x4, 128, false, 0x27, 0x7f, 0x0, 0x0, 0x0, 0x0, 0x0, 0x0⟩,
  ⟨0x40700e00, 0x4, 128, false, 0x7, 0x0, 0x0, 0x110000, 0x0, 0x0, 0x0, 0x7ff⟩,
  ⟨0x40701000, 0x4, 128, false, 0x0, 0x1ff3, 0x0, 0x0, 0x0, 0x0, 0x0, 0x0⟩]

/-- The registers of block SAP. -/
def regsSAP : List RegDesc := [
  ⟨0x40800000, 0x1000, 8, false, 0x0, 0x1, 0x0, 0x0, 0x2, 0x0, 0x0, 0x0⟩,
  ⟨0x40800004, 0x1000, 8, false, 0x10a0, 0x0, 0x3fff, 0x0, 0x0, 0x0, 0x0, 0x0⟩,
  ⟨0x40800008, 0x1000, 8, false, 0x0, 0xffffffff, 0x0, 0x0, 0x0, 0x0, 0x0, 0x0⟩,
  ⟨0x4080000c, 0x1000, 8, false, 0x0, 0x0, 0x0, 0x0, 0x0, 0x0, 0x0, 0xffffffff⟩,
  ⟨0x40800010, 0x1000, 8, false, 0x0, 0x7f7f, 0x0, 0x0, 0x0, 0x0, 0x0, 0x0⟩,
  ⟨0x40800014, 0x1000, 8, false, 0x0, 0x0, 0x0, 0x0, 0x0, 0x0, 0x0, 0x7f7f⟩,
  ⟨0x40800018, 0x1000, 8, false, 0x0, 0x0, 0x0, 0x20, 0x0, 0x0, 0x0, 0x1f1f1f⟩,
  ⟨0x4080001c, 0x1000, 8, false, 0x0, 0x0, 0x0, 0x0, 0x0, 0xffffffff, 0x0, 0x0⟩,
  ⟨0x40800020, 0x1000, 8, false, 0x0, 0x0, 0x0, 0x0, 0x0, 0xffffffff, 0x0, 0x0⟩,
  ⟨0x40800024, 0x1000, 8, false, 0x0, 0x0, 0x0, 0x0, 0x0, 0xffffffff, 0x0, 0x0⟩,
  ⟨0x40800028, 0x1000, 8, false, 0x0, 0x0, 0x0, 0x0, 0x0, 0x0, 0x0, 0xffffffff⟩,
  ⟨0x40800030, 0x1000, 8, false, 0x0, 0x0, 0x0, 0x1f, 0x0, 0x0, 0x0, 0x0⟩,
  ⟨0x40800034, 0x1000, 8, false, 0x0, 0x1f, 0x0, 0x0, 0x0, 0x0, 0x0, 0x0⟩]

/-- The registers of block CVO. -/
def regsCVO : List RegDesc := [
  ⟨0x40900000, 0x0, 1, false, 0x0, 0x0, 0x0, 0x0, 0x0, 0x0, 0x0, 0x7⟩,
  ⟨0x40900004, 0x0, 1, false, 0x0, 0x0, 0x0, 0x0, 0x0, 0xffff, 0x0, 0x0⟩,
  ⟨0x40900020, 0x0, 1, false, 0x0, 0x0, 0x0, 0x7, 0x0, 0x0, 0x0, 0x0⟩,
  ⟨0x40900024, 0x0, 1, false, 0x0, 0x7, 0x0, 0x0, 0x0, 0x0, 0x0, 0x0⟩,
  ⟨0x40900100, 0x20, 32, false, 0x0, 0xff37, 0x0, 0x0, 0x0, 0x0, 0x0, 0x0⟩,
  ⟨0x40900104, 0x20, 32, false, 0x0, 0xffffff, 0x0, 0x0, 0x0, 0x0, 0x0, 0x0⟩,
  ⟨0x40900108, 0x20, 32, false, 0x0, 0xffff, 0x0, 0x0, 0x0, 0x0, 0x10000, 0x0⟩,
  ⟨0x4090010c, 0x20, 32, false, 0x0, 0xffff, 0x0, 0x0, 0x0, 0x0, 0x0, 0x0⟩,
  ⟨0x40900110, 0x20, 32, false, 0x0, 0x0, 0x0, 0x0, 0x0, 0x0, 0x0, 0xffffffff⟩]

/-- The registers of block MEM. -/
def regsMEM : List RegDesc := [
  ⟨0x40a00000, 0x0, 1, false, 0x1, 0x0, 0x1, 0x0, 0x0, 0x0, 0x0, 0x0⟩,
  ⟨0x40a00004, 0x0, 1, false, 0x0, 0x0, 0x0, 0x4, 0x0, 0x0, 0x0, 0x1ff0003⟩,
  ⟨0x40a00008, 0x0, 1, false, 0x0, 0x0, 0x0, 0x0, 0x0, 0xffffffff, 0x0, 0x0⟩,
  ⟨0x40a0000c, 0x0, 1, false, 0x0, 0x0, 0x0, 0x0, 0x0, 0xffff, 0x0, 0x0⟩,
  ⟨0x40a00010, 0x0, 1, false, 0x0, 0x0, 0x0, 0x0, 0x0, 0x0, 0x0, 0xffffffff⟩,
  ⟨0x40a00014, 0x0, 1, false, 0x0, 0x0, 0x0, 0x0, 0x0, 0x80000000, 0x0, 0xff07ff⟩,
  ⟨0x40a00018, 0x0, 1, false, 0x0, 0x0, 0x0, 0x0, 0x0, 0x0, 0x0, 0xffffffff⟩,
  ⟨0x40a0001c, 0x0, 1, false, 0x0, 0x0, 0x0, 0x0, 0x0, 0x80000000, 0x0, 0xf1f⟩,
  ⟨0x40a00020, 0x0, 1, false, 0x0, 0x0, 0x0, 0x0, 0x0, 0x0, 0x0, 0x3ffff⟩,
  ⟨0x40a00024, 0x0, 1, false, 0x0, 0x0, 0x0, 0x0, 0x0, 0x0, 0x0, 0xffffffff⟩,
  ⟨0x40a00028, 0x0, 1, false, 0x0, 0x0, 0x0, 0x0, 0x0, 0x0, 0x0, 0xffffffff⟩,
  ⟨0x40a0002c, 0x0, 1, false, 0x0, 0x0, 0x0, 0x0, 0x0, 0x80ff0000, 0x0, 0xff01⟩,
  ⟨0x40a00030, 0x0, 1, false, 0x0, 0x0, 0x0, 0x3f, 0x0, 0x0, 0x0, 0x0⟩,
  ⟨0x40a00034, 0x0, 1, false, 0x0, 0x3f, 0x0, 0x0, 0x0, 0x0, 0x0, 0x0⟩,
  ⟨0x40a00040, 0x4, 3, false, 0x0, 0x0, 0x0, 0x0, 0x0, 0x0, 0x0, 0xffffffff⟩,
  ⟨0x40a00050, 0x0, 1, false, 0x0, 0x701ff, 0x0, 0x0, 0x0, 0x0, 0x0, 0x0⟩,
  ⟨0x40a00054, 0x0, 1, false, 0x0, 0x0, 0x0, 0x0, 0x0, 0x0, 0x0, 0x187ff⟩,
  ⟨0x40a00100, 0x4, 96, false, 0x0, 0xf, 0x0, 0x200, 0x0, 0x0, 0x0, 0x1f0⟩]

/-- The registers of block BMX. -/
def regsBMX : List RegDesc := [
  ⟨0x40b00000, 0x0, 1, false, 0x0, 0x0, 0x0, 0x0, 0x0, 0x0, 0x0, 0xfff⟩,
  ⟨0x40b00004, 0x0, 1, false, 0x0, 0x0, 0x0, 0x0, 0x0, 0x0, 0x0, 0xffffffff⟩,
  ⟨0x40b00008, 0x0, 1, false, 0x0, 0x0, 0x0, 0x0, 0x0, 0x80000000, 0x0, 0x3ffff⟩,
  ⟨0x40b0000c, 0x0, 1, false, 0x0, 0x0, 0x0, 0x0, 0x0, 0xffffffff, 0x0, 0x0⟩,
  ⟨0x40b00020, 0x0, 1, false, 0x0, 0x0, 0x0, 0xf3, 0x0, 0x0, 0x0, 0x0⟩,
  ⟨0x40b00024, 0x0, 1, false, 0x0, 0xf3, 0x0, 0x0, 0x0, 0x0, 0x0, 0x0⟩,
  ⟨0x40b00100, 0x20, 4, true, 0x0, 0xffffffffff, 0x0, 0x0, 0x0, 0x0, 0x0, 0x0⟩,
  ⟨0x40b00108, 0x20, 4, true, 0x0, 0xffffffffff, 0x0, 0x0, 0x0, 0x0, 0x0, 0x0⟩,
  ⟨0x40b00110, 0x20, 4, false, 0x0, 0xfffffff, 0x0, 0x0, 0x0, 0x0, 0x0, 0x0⟩,
  ⟨0x40b00114, 0x20, 4, false, 0x0, 0xc, 0x0, 0x0, 0x3, 0x0, 0x0, 0x0⟩,
  ⟨0x40b00118, 0x20, 4, false, 0x0, 0x0, 0x0, 0x10, 0x0, 0x0, 0x0, 0xf0f⟩,
  ⟨0x40b0011c, 0x20, 4, false, 0x0, 0x0, 0x0, 0x0, 0x0, 0x0, 0x0, 0xffffffff⟩]

/-- The registers of block DRC. -/
def regsDRC : List RegDesc := [
  ⟨0x40c00000, 0x0, 1, false, 0x0, 0x0, 0x1, 0x0, 0x0, 0x0, 0x0, 0x0⟩,
  ⟨0x40c00004, 0x0, 1, false, 0x0, 0x0, 0x0, 0x0, 0x0, 0x0, 0x0, 0xf3f⟩,
  ⟨0x40c00008, 0x0, 1, false, 0x0, 0x0, 0x0, 0x0, 0x0, 0x0, 0x0, 0xffffffff⟩,
  ⟨0x40c0000c, 0x0, 1, false, 0x0, 0x0, 0x0, 0x0, 0x0, 0x0, 0x0, 0xffffffff⟩,
  ⟨0x40c00010, 0x0, 1, false, 0x0, 0x0, 0x0, 0x0, 0x0, 0xffffffff, 0x0, 0x0⟩,
  ⟨0x40c00014, 0x0, 1, false, 0x0, 0x0, 0x0, 0x0, 0x0, 0x80000000, 0x0, 0x1fffffff⟩,
  ⟨0x40c00018, 0x0, 1, false, 0x0, 0x0, 0x0, 0x0, 0x0, 0x80000000, 0x0, 0x1f3fffff⟩,
  ⟨0x40c00020, 0x0, 1, false, 0x0, 0x0, 0x0, 0xf, 0x0, 0x0, 0x0, 0x0⟩,
  ⟨0x40c00024, 0x0, 1, false, 0x0, 0xf, 0x0, 0x0, 0x0, 0x0, 0x0, 0x0⟩,
  ⟨0x40c00040, 0x4, 2, false, 0x0, 0x0, 0x0, 0x0, 0x0, 0xffff0000, 0x0, 0x3ff⟩,
  ⟨0x40c00080, 0x8, 4, false, 0x0, 0x0, 0x0, 0x0, 0x0, 0x0, 0x0, 0x8003ffff⟩,
  ⟨0x40c00084, 0x8, 4, false, 0x0, 0x0, 0x0, 0x0, 0x0, 0x0, 0x0, 0x3ffff⟩]

/-- The registers of block WFT. -/
def regsWFT : List RegDesc := [
  ⟨0x40d00000, 0x0, 1, false, 0x0, 0x0, 0x0, 0x0, 0x3, 0x0, 0x0, 0x0⟩,
  ⟨0x40d00004, 0x0, 1, false, 0x60000, 0x0, 0x3ff1fff, 0x0, 0x0, 0x0, 0x0, 0x0⟩,
  ⟨0x40d00008, 0x0, 1, false, 0x0, 0x0, 0x0, 0x0, 0x0, 0x0, 0x0, 0x3ff⟩,
  ⟨0x40d0000c, 0x0, 1, false, 0x0, 0x0, 0x0, 0x0, 0x0, 0x0, 0x0, 0xffffffff⟩,
  ⟨0x40d00010, 0x4, 2, false, 0x0, 0x0, 0x0, 0x0, 0x0, 0x0, 0x0, 0xffff00ff⟩,
  ⟨0x40d00018, 0x0, 1, false, 0x0, 0x0, 0x0, 0x0, 0x0, 0xffffffff, 0x0, 0x0⟩,
  ⟨0x40d0001c, 0x0, 1, false, 0x0, 0x0, 0x0, 0x0, 0x0, 0xffffffff, 0x0, 0x0⟩,
  ⟨0x40d00020, 0x0, 1, false, 0x0, 0x0, 0x0, 0x1f, 0x0, 0x0, 0x0, 0x0⟩,
  ⟨0x40d00024, 0x0, 1, false, 0x0, 0x1f, 0x0, 0x0, 0x0, 0x0, 0x0, 0x0⟩,
  ⟨0x40d00030, 0x0, 1, false, 0x0, 0x3ff07ff, 0x0, 0x0, 0x0, 0x0, 0x0, 0x0⟩,
  ⟨0x40d00040, 0x0, 1, false, 0x0, 0x7ff, 0x0, 0x0, 0x1800, 0x0, 0x0, 0x0⟩,
  ⟨0x40d00044, 0x0, 1, false, 0x0, 0x3fffffc, 0x0, 0x0, 0x0, 0x0, 0x0, 0x0⟩,
  ⟨0x40d00048, 0x0, 1, false, 0x0, 0xffffffff, 0x0, 0x0, 0x0, 0x0, 0x0, 0x0⟩,
  ⟨0x40d0004c, 0x0, 1, false, 0x0, 0x0, 0x0, 0x10, 0x0, 0x0, 0x0, 0xf⟩,
  ⟨0x40d00100, 0x4, 512, false, 0x0, 0x1ff, 0x0, 0x0, 0x0, 0x0, 0x0, 0x0⟩,
  ⟨0x40d01000, 0x10, 1024, true, 0x0, 0x0, 0x0, 0x0, 0x0, 0x0, 0x0, 0xffffffffffffffff⟩,
  ⟨0x40d01008, 0x10, 1024, false, 0x0, 0x0, 0x0, 0x0, 0x0, 0x0, 0x0, 0xffff⟩,
  ⟨0x40d0100c, 0x10, 1024, false, 0x0, 0x0, 0x0, 0x0, 0x0, 0x0, 0x0, 0xffffff⟩]

/-- The registers of block LEG. -/
def regsLEG : List RegDesc := [
  ⟨0x40e00000, 0x0, 1, false, 0x0, 0x0, 0xf, 0x0, 0x0, 0x0, 0x0, 0x0⟩,
  ⟨0x40e00004, 0x0, 1, false, 0x0, 0x0, 0xfff, 0x0, 0x0, 0x0, 0x0, 0x0⟩,
  ⟨0x40e00008, 0x0, 1, false, 0x0, 0x0, 0x0, 0x0, 0x0, 0x0, 0x0, 0xfff003f⟩,
  ⟨0x40e0000c, 0x0, 1, false, 0x0, 0x0, 0x0, 0x0, 0x0, 0xffffffff, 0x0, 0x0⟩,
  ⟨0x40e00020, 0x0, 1, false, 0x0, 0x0, 0x0, 0x7f, 0x0, 0x0, 0x0, 0x0⟩,
  ⟨0x40e00024, 0x0, 1, false, 0x0, 0x7f, 0x0, 0x0, 0x0, 0x0, 0x0, 0x0⟩,
  ⟨0x40e00030, 0x0, 1, false, 0x0, 0x1ff, 0x0, 0x0, 0x0, 0x0, 0x0, 0x0⟩,
  ⟨0x40e00034, 0x0, 1, false, 0x0, 0x0, 0x0, 0x0, 0x0, 0x0, 0x0, 0xffff⟩,
  ⟨0x40e00100, 0x10, 4, false, 0x0, 0x0, 0xffffff, 0x0, 0x0, 0x0, 0x0, 0x0⟩,
  ⟨0x40e00104, 0x10, 4, true, 0x0, 0x0, 0x0, 0x0, 0x0, 0x0, 0x0, 0xffffffffffffffff⟩,
  ⟨0x40e0010c, 0x10, 4, false, 0x0, 0x0, 0x0, 0x0, 0x0, 0x0, 0x0, 0x1ffffff⟩,
  ⟨0x40e01000, 0x4, 256, false, 0x0, 0x0, 0x0, 0x0, 0x0, 0x0, 0x0, 0xff⟩]

/-- The registers of block SYS. -/
def regsSYS : List RegDesc := [
  ⟨0x40000000, 0x0, 1, false, 0x40960b00, 0x0, 0x0, 0x0, 0x0, 0x0, 0x0, 0xffffffff⟩,
  ⟨0x40000004, 0x0, 1, false, 0x0, 0x1, 0x0, 0x0, 0x2, 0x0, 0x0, 0x0⟩,
  ⟨0x40000008, 0x0, 1, false, 0x105, 0x0, 0x7ff, 0x0, 0x0, 0x0, 0x0, 0x0⟩,
  ⟨0x4000000c, 0x0, 1, false, 0x0, 0x0, 0x0, 0x20000000, 0x0, 0x0, 0x0, 0x1fffffff⟩,
  ⟨0x40000010, 0x0, 1, false, 0x0, 0x0, 0x0, 0x0, 0x0, 0x0, 0xffff0003, 0x0⟩,
  ⟨0x40000014, 0x0, 1, false, 0x1f4, 0x0, 0xffff, 0x0, 0x0, 0x0, 0x0, 0x0⟩,
  ⟨0x40000018, 0x0, 1, false, 0x0, 0x0, 0x0, 0x0, 0x0, 0x0, 0xffff, 0x0⟩,
  ⟨0x4000001c, 0x0, 1, false, 0x0, 0x0, 0x0, 0x0, 0x0, 0xff00, 0x0, 0x7f00ff⟩,
  ⟨0x40000020, 0x0, 1, false, 0x0, 0x0, 0x0, 0x0, 0x0, 0xffffff, 0x0, 0x0⟩,
  ⟨0x40000024, 0x0, 1, false, 0x0, 0x0, 0x0, 0x0, 0x0, 0x0, 0x0, 0x3ffff⟩,
  ⟨0x40000028, 0x0, 1, false, 0x0, 0x3fffffff, 0x0, 0x0, 0x0, 0x0, 0x0, 0x0⟩,
  ⟨0x4000002c, 0x0, 1, false, 0x0, 0x0, 0x0, 0x0, 0x0, 0x0, 0x0, 0xffff⟩,
  ⟨0x40000040, 0x0, 1, false, 0x0, 0x0, 0x0, 0x0, 0x0, 0x0, 0x0, 0x7ffffff⟩,
  ⟨0x40000044, 0x0, 1, false, 0x0, 0x7ffffff, 0x0, 0x0, 0x0, 0x0, 0x0, 0x0⟩]

/-- The registers of block HIF. -/
def regsHIF : List RegDesc := [
  ⟨0x40f00000, 0x0, 1, false, 0x40, 0x1ff, 0x0, 0x0, 0x0, 0x0, 0x0, 0x0⟩,
  ⟨0x40f00004, 0x0, 1, false, 0x0, 0x0, 0x0, 0x1, 0x0, 0x0, 0x0, 0xe⟩,
  ⟨0x40f00008, 0x0, 1, false, 0x0, 0x0, 0x0, 0x0, 0x0, 0xffffff, 0x0, 0x0⟩,
  ⟨0x40f00010, 0x0, 1, false, 0x0, 0x0, 0x0, 0x0, 0x0, 0x0, 0x0, 0x7f⟩,
  ⟨0x40f00014, 0x0, 1, false, 0x0, 0x0, 0x0, 0x0, 0x0, 0xffffff, 0x0, 0x0⟩,
  ⟨0x40f00018, 0x0, 1, true, 0x0, 0x3fff00000, 0x0, 0x0, 0x0, 0x0, 0x0, 0x0⟩,
  ⟨0x40f00020, 0x0, 1, false, 0x0, 0x0, 0x0, 0x0, 0x200, 0xffff0000, 0x0, 0x1ff⟩,
  ⟨0x40f00024, 0x0, 1, false, 0x40960000, 0x0, 0x0, 0x0, 0x0, 0x0, 0x0, 0xffffffff⟩,
  ⟨0x40f00028, 0x0, 1, false, 0x0, 0x0, 0xffffffff, 0x0, 0x0, 0x0, 0x0, 0x0⟩,
  ⟨0x40f00030, 0x0, 1, false, 0x0, 0x0, 0x0, 0x7, 0x0, 0x0, 0x0, 0x0⟩,
  ⟨0x40f00034, 0x0, 1, false, 0x0, 0x7, 0x0, 0x0, 0x0, 0x0, 0x0, 0x0⟩]

/-- The registers of block XCH. -/
def regsXCH : List RegDesc := [
  ⟨0x41000000, 0x0, 1, false, 0x0, 0x0, 0x0, 0x0, 0x3, 0x0, 0x0, 0x0⟩,
  ⟨0x41000004, 0x0, 1, false, 0x0, 0x0, 0x0, 0x100000, 0x0, 0x0, 0x0, 0xfffff⟩,
  ⟨0x41000008, 0x0, 1, false, 0x32, 0xffff, 0x0, 0x0, 0x0, 0x0, 0x0, 0x0⟩,
  ⟨0x4100000c, 0x0, 1, false, 0x0, 0x0, 0x0, 0x1, 0x0, 0x0, 0x0, 0x0⟩,
  ⟨0x41000010, 0x0, 1, false, 0x0, 0x0, 0x0, 0x3, 0x0, 0x0, 0x0, 0x0⟩,
  ⟨0x41000014, 0x0, 1, false, 0x0, 0x3, 0x0, 0x0, 0x0, 0x0, 0x0, 0x0⟩]

/-- The registers of block PWR. -/
def regsPWR : List RegDesc := [
  ⟨0x40010000, 0x0, 1, false, 0x7ff, 0x0, 0x0, 0x0, 0x0, 0x0, 0x0, 0x3fff⟩,
  ⟨0x40010004, 0x0, 1, false, 0x28, 0x3f, 0x0, 0x0, 0x0, 0x0, 0x0, 0x0⟩,
  ⟨0x40010008, 0x0, 1, false, 0x3c, 0x0, 0x1ff, 0x0, 0x0, 0x0, 0x0, 0x0⟩,
  ⟨0x4001000c, 0x0, 1, false, 0x14, 0x0, 0x3ff, 0x0, 0x0, 0x0, 0x0, 0x0⟩,
  ⟨0x40010010, 0x0, 1, false, 0x870385, 0x0, 0xff03ff, 0x0, 0x0, 0x0, 0x0, 0x0⟩,
  ⟨0x40010014, 0x0, 1, false, 0x400, 0x0, 0x0, 0x0, 0x0, 0x0, 0x0, 0x707ff⟩,
  ⟨0x40010018, 0x0, 1, false, 0x0, 0x0, 0x0, 0x0, 0x0, 0xffff0000, 0x0, 0xffff⟩,
  ⟨0x4001001c, 0x0, 1, false, 0x0, 0x0, 0x0, 0x0, 0x0, 0xffff0000, 0x0, 0xffff⟩,
  ⟨0x40010020, 0x0, 1, false, 0x0, 0x0, 0x0, 0x0, 0x0, 0x0, 0x0, 0xfff0fff⟩,
  ⟨0x40010024, 0x0, 1, false, 0x0, 0x0, 0x0, 0x0, 0x0, 0xffffffff, 0x0, 0x0⟩,
  ⟨0x40010030, 0x0, 1, false, 0x0, 0x0, 0x0, 0x3f, 0x0, 0x0, 0x0, 0x0⟩,
  ⟨0x40010034, 0x0, 1, false, 0x0, 0x3f, 0x0, 0x0, 0x0, 0x0, 0x0, 0x0⟩]

/-- The registers of block THM. -/
def regsTHM : List RegDesc := [
  ⟨0x40020000, 0x0, 1, false, 0x0, 0x0, 0x0, 0x0, 0x0, 0x0, 0x0, 0xf⟩,
  ⟨0x40020004, 0x0, 1, false, 0x16964, 0x0, 0x1ffff, 0x0, 0x0, 0x0, 0x0, 0x0⟩,
  ⟨0x40020008, 0x0, 1, false, 0x0, 0x0, 0x0, 0x0, 0x0, 0x0, 0x0, 0x3ff⟩,
  ⟨0x4002000c, 0x0, 1, false, 0x0, 0x0, 0x0, 0x0, 0x0, 0xffffff, 0x0, 0x0⟩,
  ⟨0x40020010, 0x4, 6, false, 0x0, 0x0, 0x0, 0x0, 0x0, 0xffff0000, 0x0, 0xffff⟩,
  ⟨0x40020040, 0x0, 1, false, 0x0, 0x0, 0x0, 0x1f, 0x0, 0x0, 0x0, 0x0⟩,
  ⟨0x40020044, 0x0, 1, false, 0x0, 0x1f, 0x0, 0x0, 0x0, 0x0, 0x0, 0x0⟩]

/-- The registers of block REL. -/
def regsREL : List RegDesc := [
  ⟨0x41200000, 0x0, 1, false, 0xbb819, 0x0, 0xffff7f, 0x0, 0x0, 0x0, 0x0, 0x0⟩,
  ⟨0x41200004, 0x0, 1, false, 0x0, 0x0, 0x0, 0x0, 0xf, 0x0, 0x0, 0x0⟩,
  ⟨0x41200008, 0x0, 1, false, 0x0, 0x0, 0x0, 0x0, 0x0, 0x0, 0x0, 0xff0f1f⟩,
  ⟨0x4120000c, 0x0, 1, false, 0x0, 0x0, 0x0, 0x0, 0x0, 0xff00ffff, 0x0, 0xff0000⟩,
  ⟨0x41200010, 0x0, 1, false, 0x0, 0x0, 0x0, 0x0, 0x0, 0x0, 0x0, 0xffffffff⟩,
  ⟨0x41200014, 0x0, 1, false, 0x0, 0x0, 0x0, 0x0, 0x0, 0x80000000, 0x0, 0xffff⟩,
  ⟨0x41200018, 0x0, 1, false, 0x0, 0x0, 0x0, 0x0, 0x0, 0x80000000, 0x0, 0x1f⟩,
  ⟨0x4120001c, 0x0, 1, false, 0x0, 0x0, 0x0, 0x0, 0x0, 0x80000000, 0x0, 0xffff0f⟩,
  ⟨0x41200020, 0x0, 1, false, 0x0, 0x0, 0x0, 0x7f, 0x0, 0x0, 0x0, 0x0⟩,
  ⟨0x41200024, 0x0, 1, false, 0x0, 0x7f, 0x0, 0x0, 0x0, 0x0, 0x0, 0x0⟩,
  ⟨0x41200030, 0x0, 1, false, 0x0, 0x0, 0x0, 0x0, 0x0, 0xffffffff, 0x0, 0x0⟩,
  ⟨0x41200040, 0x4, 5, false, 0x0, 0x0, 0x0, 0x0, 0x0, 0x0, 0x0, 0xffffffff⟩,
  ⟨0x41200060, 0x0, 1, true, 0x0, 0x0, 0x0, 0x0, 0x0, 0x0, 0x0, 0xffffffffffffffff⟩,
  ⟨0x41200068, 0x0, 1, true, 0x0, 0x0, 0x0, 0x0, 0x0, 0x0, 0x0, 0xffffffffffffffff⟩,
  ⟨0x41200070, 0x0, 1, true, 0x0, 0x0, 0x0, 0x0, 0x0, 0x0, 0x0, 0xffffffffffffffff⟩]

/-- The registers of block SEC. -/
def regsSEC : List RegDesc := [
  ⟨0x41100000, 0x0, 1, false, 0x0, 0x0, 0x0, 0x0, 0x0, 0x0, 0x0, 0x3f0fff⟩,
  ⟨0x41100008, 0x0, 1, true, 0x0, 0x0, 0x0, 0x0, 0x0, 0x0, 0x0, 0xffffffffffffffff⟩,
  ⟨0x41100010, 0x0, 1, false, 0x0, 0x7, 0x0, 0x0, 0x300, 0x0, 0x0, 0x3000⟩,
  ⟨0x41100020, 0x4, 4, false, 0x0, 0x0, 0x0, 0x0, 0x0, 0x0, 0x0, 0xffffffff⟩,
  ⟨0x41100040, 0x4, 8, false, 0x0, 0x0, 0x0, 0x0, 0x0, 0x0, 0xffffffff, 0x0⟩,
  ⟨0x41100060, 0x0, 1, false, 0x0, 0x0, 0x0, 0x0, 0x0, 0xffffffff, 0x0, 0x0⟩,
  ⟨0x41100064, 0x0, 1, false, 0x0, 0x0, 0x0, 0x0, 0x0, 0xff00, 0x0, 0x1⟩,
  ⟨0x41100070, 0x0, 1, false, 0x0, 0x0, 0x0, 0x7, 0x0, 0x0, 0x0, 0x0⟩,
  ⟨0x41100074, 0x0, 1, false, 0x0, 0x7, 0x0, 0x0, 0x0, 0x0, 0x0, 0x0⟩]

/-- The register kinds of the block at `base` (R2); none outside every block. -/
def regBlock (base : Nat) : Option (List RegDesc) :=
  if base = 0x40000000 then some regsSYS else
  if base = 0x40010000 then some regsPWR else
  if base = 0x40020000 then some regsTHM else
  if base = 0x40100000 then some regsTBU else
  if base = 0x40200000 then some regsEFE else
  if base = 0x40300000 then some regsDLR else
  if base = 0x40400000 then some regsVAL else
  if base = 0x40500000 then some regsSHT else
  if base = 0x40600000 then some regsMIX else
  if base = 0x40700000 then some regsDCH else
  if base = 0x40800000 then some regsSAP else
  if base = 0x40900000 then some regsCVO else
  if base = 0x40a00000 then some regsMEM else
  if base = 0x40b00000 then some regsBMX else
  if base = 0x40c00000 then some regsDRC else
  if base = 0x40d00000 then some regsWFT else
  if base = 0x40e00000 then some regsLEG else
  if base = 0x40f00000 then some regsHIF else
  if base = 0x41000000 then some regsXCH else
  if base = 0x41100000 then some regsSEC else
  if base = 0x41200000 then some regsREL else
  none

/-- Where an address falls in the register table: the kind, the index, and whether it is the high word of a pair. -/
structure RegHit where
  desc : RegDesc
  idx : Nat
  high : Bool
deriving DecidableEq, Repr

/-- The register that holds the byte address `a` among the kinds `l` (`a` aligned). -/
def findReg (a : Nat) : List RegDesc → Option RegHit
  | [] => none
  | d :: l =>
    if d.base ≤ a ∧ (a - d.base) / d.stride < d.count ∧
        ((a - d.base) % d.stride = 0 ∨ (d.wide = true ∧ (a - d.base) % d.stride = 4)) then
      some ⟨d, (a - d.base) / d.stride, decide ((a - d.base) % d.stride = 4)⟩
    else findReg a l

/-- The 64 KiB block an address lies in. -/
def regBlockBase (a : Nat) : Nat := a / 65536 * 65536

/-- The register at the aligned address `a`: none where no register occupies it (R4). -/
def regAt (a : Nat) : Option RegHit :=
  match regBlock (regBlockBase a) with
  | none => none
  | some l => findReg a l

/-- The address whose entry holds the register: the low word's for a pair. -/
def RegHit.key (h : RegHit) : Nat := h.desc.base + h.desc.stride * h.idx

/-- The reset owner of bank `n` of R311: banks 0 to 31 are the chip's, bank 32 + 16L + b is bank b of loom L. -/
def bankResetOwner (n : Nat) : Nat := if n = 30 then 1 else if n < 32 then 0 else 2 + (n - 32) / 16

/-- What a register that nothing has written holds: its reset value (R5's Reset column). SAP_CHMAP and SAP_CHMAP_ACT of port n
reset to 0x1010 × n, MEM_BANK_OWNn to the owner of R311. Values the chapters mark F are loaded from the fuses at power-on. -/
def regReset (a : Nat) : Long :=
  match regAt a with
  | none => 0
  | some h =>
    if h.desc.base = 0x40800010 ∨ h.desc.base = 0x40800014 then BitVec.ofNat 64 (0x1010 * h.idx)
    else if h.desc.base = 0x40a00100 then BitVec.ofNat 64 (bankResetOwner h.idx)
    else BitVec.ofNat 64 h.desc.reset

/-- The register file: a map from the address of each register (of its low word) to its value. -/
abbrev Regs := FMap Long

/-- The value of the register at `a`. -/
def Regs.rd (m : Regs) (a : Nat) : Long := FMap.get regReset m a
/-- Set the register at `a`. -/
def Regs.wr (m : Regs) (a : Nat) (v : Long) : Regs := FMap.set regReset m a v
/-- The width of a field. -/
def Fld.width (f : Fld) : Nat := f.hi + 1 - f.lo
/-- The largest value of a field. -/
def Fld.max (f : Fld) : Nat := 2 ^ f.width - 1
/-- The field's bits in place. -/
def Fld.mask (f : Fld) : Long := BitVec.ofNat 64 (f.max * 2 ^ f.lo)
/-- The value of a field of a register's value. -/
def Fld.of (f : Fld) (x : Long) : Nat := x.toNat / 2 ^ f.lo % 2 ^ f.width
/-- A register's value with the field `f` set to `v` (modulo its width). -/
def Fld.put (f : Fld) (x : Long) (v : Nat) : Long :=
  (x &&& ~~~ f.mask) ||| BitVec.ofNat 64 (v % 2 ^ f.width * 2 ^ f.lo)
/-- The value of a field. -/
def Regs.f (m : Regs) (f : Fld) : Nat := f.of (m.rd f.addr)
/-- Whether a field is not zero. -/
def Regs.on (m : Regs) (f : Fld) : Bool := m.f f != 0
/-- Set a field. -/
def Regs.setF (m : Regs) (f : Fld) (v : Nat) : Regs := m.wr f.addr (f.put (m.rd f.addr) v)
/-- Count `n` more in a saturating counter field. -/
def Regs.bump (m : Regs) (f : Fld) (n : Nat) : Regs := m.setF f (min f.max (m.f f + n))
/-- Set bit `i` of a field of flags. -/
def Regs.setBit (m : Regs) (f : Fld) (i : Nat) : Regs := m.setF f (m.f f ||| 2 ^ i)
/-- Clear bit `i` of a field of flags. -/
def Regs.clrBit (m : Regs) (f : Fld) (i : Nat) : Regs := m.setF f (m.f f - (m.f f / 2 ^ i % 2) * 2 ^ i)
/-- Bit `i` of a field of flags. -/
def Regs.bit (m : Regs) (f : Fld) (i : Nat) : Bool := (m.f f).testBit i

end Sys2Proof.Machine
end

