-- ==== Sys2Proof/Machine/State.lean ====
section
/-! DEFINITION. The state of the engine as plain data: one structure per unit, the register file, the memory, and the queue of
waiting commands. The default value of every field is its value at reset. Maps are `FMap`s in canonical form (FMap.lean). -/

namespace Sys2Proof.Machine

/-! ### Register access (R7, R329) -/

/-- What a bus master's last read returned: the data, and whether the access got an error response (R3, R312) or a decode
error (R331). -/
structure Resp where
  data : List Word := []
  err : Bool := false
  decode : Bool := false
deriving DecidableEq, Repr

/-- Per-master state of register access: the two shadows of R7 and the last response; all keyed by master number (R328). -/
structure Bus where
  rdShadow : FMap Word := []
  wrShadow : FMap Word := []
  resp : FMap Resp := []
deriving DecidableEq, Repr

/-! ### Time base unit (chapter 02) -/

/-- A reference selection staged for the next pick boundary (R29): TBU_REF_CFG's src, sap and rate. -/
structure RefSel where
  src : Nat
  sap : Nat
  rate : Nat
deriving DecidableEq, Repr

/-- Why picks are held stopped beside the reference state: a brown-out (R417), T3 (R419), the chip safe state (R432). -/
inductive Hold where
  | brownOut
  | thermal
  | safe
deriving DecidableEq, Repr

/-- The time base unit. Counters, status and setup are registers; this is the rest. Beat positions are in units of 2^-64 beat
(`phase`, `clamp`, `lastB`, `delta`) or 2^-24 beat (40.24) as named; frame positions φ are in units of 2^-24 frame. -/
structure Tbu where
  /-- the selection in force (R29) -/
  sel : RefSel := ⟨0, 0, 2⟩
  /-- the selection staged for the next pick boundary (R29) -/
  staged : Option RefSel := none
  /-- the code of the OSR in force (R16) -/
  osr : Nat := 1
  /-- whether a frame has been presented since reset -/
  started : Bool := false
  /-- picks run: frames are presented as SAMPLE_CNT counts them -/
  running : Bool := false
  /-- picks stop at the end of this pick, which is faded to silence (R29, R30, R417, R419) -/
  stopAfter : Option Nat := none
  /-- what keeps picks stopped -/
  holds : List Hold := []
  /-- the pick whose block fades in, the one whose block fades out, and the first pick since picks last resumed (R30) -/
  fadeIn : Option Nat := none
  fadeOut : Option Nat := none
  firstPick : Nat := 0
  /-- the last pick while the outputs still send what it left (R285, R417) -/
  drain : Option Nat := none
  /-- the last accepted reference edge, in CYCLE_CNT -/
  edgeT : Option Nat := none
  /-- the last frame edge presented, in CYCLE_CNT (holdover frames included) -/
  frameT : Nat := 0
  /-- the last frame intervals in ns, newest first, at most 256, glitches excluded -/
  hist : List Nat := []
  /-- entry to HOLDOVER, in CYCLE_CNT -/
  holdT : Nat := 0
  /-- holdover frames generated so far: the grid index of the newest one -/
  holdK : Nat := 0
  /-- frames to drop (positive) or repeat (negative) at the next edge (R31) -/
  slip : Int := 0
  /-- repeats of the last frame still to make (R31) -/
  repeats : Nat := 0
  /-- the number of the edge that opens a weft node's first pick (R342); whether the next pick takes its number so, the TBU having been
  in NONE -/
  loadAt : Option Nat := none
  number : Bool := true
  /-- picks last ran before src = 3: SAMPLE_CNT resumes rounded up to a multiple of P (R30) -/
  fromNone : Bool := false
  /-- BEAT_POS with its sub-LSB phase, in 2^-64 beat, and where within the frame presented it stands so, in 2^-24 frame (R36) -/
  phase : Nat := 0
  sub : Nat := 0
  /-- BEAT_POS at the last accepted edge or LOCATE and the frame position φ of it, from which β is extrapolated (R36) -/
  freeB : Nat := 0
  freePhi : Nat := 0
  /-- BEAT_POS never passes this (2^-64 beat); none after a LOCATE and for the internal source -/
  clamp : Option Nat := none
  /-- integral and applied rate, 0.64 beats per frame (R36) -/
  rhoI : Nat := 0
  rho : Nat := 0
  /-- the beat value of the last accepted pulse, in 2^-64 beat -/
  lastB : Nat := 0
  /-- φ of the last accepted edge and of the last edge of any kind -/
  lastPhi : Nat := 0
  anyPhi : Nat := 0
  /-- the pulse value Δ of the last accepted edge, in 2^-64 beat -/
  delta : Nat := 0
  /-- consecutive anomalies (R37) -/
  anomalies : Nat := 0
  /-- the target of ρ_i after a rate change (R37) -/
  target : Option Nat := none
  /-- whether a tempo has been tracked since reset (R38) -/
  tracked : Bool := false
  /-- the next accepted edge takes the beat value BEAT_POS (R41) -/
  rebase : Bool := false
  /-- the conversion frontier (R40), 40.24 -/
  frontier : Option Nat := none
  /-- whether a LOCATE has taken effect, and whether the last one carried keep_past (R41) -/
  located : Bool := false
  keepPast : Bool := false
  /-- frames TEMPO_OUT stays high (R42); the pin is high while it is not 0 -/
  toutLeft : Nat := 0
  /-- the pending buffers of the captures (R45), keyed by unit; TBU_CAPn_STAT.pend says whether one is full -/
  capPend : FMap Long := []
  /-- timers whose tick after 0 has come and whose underflow is due (R47) -/
  tmrDue : List Nat := []
deriving DecidableEq, Repr

/-! ### Event front end (chapter 03) -/

/-- What an event does beyond its native form: the attribute pitch of a UMP Note On, and the part-table changes of MIDI
messages that have no native opcode (R68, R70, R73, R75). -/
inductive EvExt where
  | none
  /-- attribute type 3, pitch 7.9 (R75) -/
  | pitch (p : Half)
  /-- CC 121: the part's controllers to their defaults (R68) -/
  | ctlDefaults
  /-- CC 126, 127: the part's mode (R68) -/
  | mono (on : Bool)
  /-- RPN 0, 2, 5 (R70); RPN 0 on a member channel (R73): the 14-bit data value -/
  | bendRange (v : Nat)
  | transpose (v : Nat)
  | modRange (v : Nat)
  | pnRange (v : Nat)
  /-- a timed write of the legacy port (R364): instance, context (voice, or 32 for the globals), address, value -/
  | legacy (i v a x : Nat)
  /-- UMP Per-Note Management of a key (R75) -/
  | manage (key : Nat) (reset detach : Bool)
deriving DecidableEq, Repr

/-- A parsed event: the 16 bytes of R52 and its extension. -/
structure Ev where
  time : Long := 0
  head : Half := 0
  target : Half := 0
  data : Word := 0
  ext : EvExt := .none
deriving DecidableEq, Repr

/-- A parsed item waiting for an entry slot (R61): its source, its sequence number (none where R63 gives none, and then it writes
no status entry), the events it maps to that have not entered, the highest code so far, its quiet flag (R52), and the cycle in which its
parsing was complete. -/
structure Item where
  src : Nat
  seq : Option Nat
  evs : List Ev
  code : Nat
  quiet : Bool := false
  t : Nat := 0
deriving DecidableEq, Repr

/-- An accepted event in the delay lists (R60): the event, its source and sequence number (R65), its order of entry, and for a
beat-time event its beat. `frame` is the presentation frame; none for an immediate or late one, which takes effect at offset 0
of the next pick released. -/
structure Timed where
  ev : Ev
  src : Nat
  seq : Option Nat
  stamp : Nat
  frame : Option Nat
  beat : Option Nat := none
  /-- held by R41 until a later LOCATE -/
  held : Bool := false
  /-- a beat-time event accepted as ACC_LATE: the next pick start converts it (R40) -/
  late : Bool := false
  /-- start offset in output samples, set at release (R25) -/
  offset : Nat := 0
deriving DecidableEq, Repr

/-- The RPN state of one binding entry (R70): the selection (RPN 0x7F7F: nothing selected) and the 14-bit data value. -/
structure Rpn where
  nrpn : Bool := false
  msb : Nat := 127
  lsb : Nat := 127
  val : Nat := 0
deriving DecidableEq, Repr

/-- The most recent JR Clock of a source (R76): the frame presented at its arrival and its value. -/
structure JrClock where
  frame : Nat
  c : Nat
deriving DecidableEq, Repr

/-- The debounce of one GPIO binding (R78): the level being timed, its first edge's time and frame, and the stable level before. -/
structure Debounce where
  timing : Bool := false
  level : Bool := false
  t0 : Nat := 0
  frame : Nat := 0
  stable : Bool := false
deriving DecidableEq, Repr

/-- The event front end. -/
structure Efe where
  /-- parsed items in the order of their waiting (R61) -/
  waiting : List Item := []
  /-- events the resident firmware holds until its queue has room (R61) -/
  mpWait : List Ev := []
  /-- accepted events: the sample-time and beat-time lists in one, in order of entry (R60) -/
  delayed : List Timed := []
  /-- events of the pick just released, in the order of R61, not yet acted on -/
  released : List Timed := []
  /-- released events that act at their presentation frame: TEMPO, LOCATE, TRANSPORT, MARK -/
  present : List Timed := []
  /-- the next order of entry -/
  stamp : Nat := 0
  /-- event-apply units taken, keyed by pick × 32 + harness (R59) -/
  units : FMap Nat := []
  /-- status FIFOs, keyed by source: (sequence number, code), oldest first (R63) -/
  status : FMap (List (Nat × Nat)) := []
  /-- mark FIFO, oldest first (R79) -/
  marks : List Word := []
  /-- RPN state, keyed by binding entry (R70) -/
  rpn : FMap Rpn := []
  /-- bank select held per part: MSB × 128 + LSB (R68) -/
  bank : FMap Nat := []
  /-- running status, keyed by MIDI input; 0 where there is none (R67) -/
  running : FMap Nat := []
  /-- MIDI inputs that have seen a status byte since they were enabled (R51) -/
  synced : List Nat := []
  /-- active sensing armed (R71), keyed by MIDI input: 0, or 1 + the time of the last byte -/
  sense : FMap Nat := []
  /-- JR Clock, keyed by source; JR Timestamp for the next message, keyed by source × 16 + group (R76) -/
  jrClock : FMap (Option JrClock) := []
  jrTime : FMap (Option Nat) := []
  /-- debounce of the GPIO bindings -/
  gpio : FMap Debounce := []
deriving DecidableEq, Repr

/-! ### Parts, notes and voices (chapters 05, 06) -/

/-- A part (R112): the settings of its ALLOC entry (R141), zero until an image is applied, and the live state that events
write. -/
structure Part where
  program : Nat := 0
  prot : Bool := false
  atomic : Bool := false
  mode : Nat := 0
  monoPrio : Nat := 0
  retrig : Nat := 0
  glideMode : Nat := 0
  cls : Nat := 0
  stealPrio : Nat := 0
  stealFade : Nat := 0
  pool : Nat := 0
  tuning : Nat := 0
  bendRange : Nat := 0
  pnBendRange : Nat := 0
  glideTime : Nat := 0
  transpose : Int := 0
  vol : Nat := 0
  pan : Nat := 0
  expr : Nat := 0
  /-- 24-bit controller values, keyed by controller 0–128 -/
  ctl : FMap Nat := []
  bend : Nat := 0x8000
  sustain : Nat := 0
  sostenuto : Nat := 0
  soft : Nat := 0
  /-- fine tune in cents, Q8.8 (R55) -/
  fine : Int := 0
  /-- modulation depth range, the 14-bit value of RPN 5 (R70) -/
  modRange : Nat := 0
  /-- held keys of a MONO or LEGATO part, oldest first, with their velocities (R132) -/
  keys : List (Nat × Nat) := []
  /-- the note that sounds in a MONO or LEGATO part -/
  monoNote : Option Nat := none
  /-- the previous note pitch, Q16.16, where a glide starts (R133) -/
  lastPitch : Option Int := none
deriving DecidableEq, Repr

/-- One change that the Dealer mirrors to the harnesses at step 2 (R58): the part or the voice it concerns, which value, and its
start offset. -/
inductive MirrorField where
  | ctl (c : Nat)
  | bend
  | sustain
  | sostenuto
  | soft
  | fine
  | transpose
  | bendRange
  | pnBendRange
  | modRange
  | tuningKey (table key : Nat)
  | release (voice : Nat)
  | pressure (voice : Nat)
  | pnBend (voice : Nat)
  | pnCtl (voice slot : Nat)
  | pnReset (voice : Nat)
deriving DecidableEq, Repr

/-- A mirrored change with its start offset in output samples. -/
structure Mirror where
  part : Nat
  field : MirrorField
  value : Int
  offset : Nat
deriving DecidableEq, Repr

/-- A note (R114): its identity, its source for VAL_DROPPED, and what holds it. -/
structure Note where
  part : Nat
  key : Nat
  noteId : Nat
  vel : Nat
  src : Nat := 0
  seq : Option Nat := none
  startFrame : Nat := 0
  /-- booked for a later pick (R137) -/
  booked : Bool := false
  /-- its contexts were taken over by another note (R126): it no longer answers -/
  gone : Bool := false
  /-- ended (R127): in release, or marked sustained -/
  released : Bool := false
  sustained : Bool := false
  latched : Bool := false
  /-- the velocity of the NOTE_OFF that ended it -/
  relVel : Nat := 0x8000
deriving DecidableEq, Repr

/-- What a voice context is doing (R140). Held and sustained are the note's. -/
inductive VState where
  | free
  | booked
  | sounding
  | released
  | fading
deriving DecidableEq, Repr

/-- The loop fields of a source staged by PARAM (R156): each halfword written, and each field completed. -/
structure LoopStage where
  xfade : Option Nat := none
  startLo : Option Nat := none
  start : Option Nat := none
  lenLo : Option Nat := none
  len : Option Nat := none
deriving DecidableEq, Repr

/-- An envelope of a native voice between control sub-blocks (R188–R193). Levels and values are Q1.31. -/
structure EnvSt where
  /-- the running segment -/
  seg : Nat := 0
  /-- L0, the level at the segment's start -/
  l0 : Int := 0
  /-- the progress x = xn / xd -/
  xn : Nat := 0
  xd : Nat := 1
  /-- its length in internal samples, and the time modulation sum of its start (R188): taken when it first advances -/
  len : Option Nat := none
  mTime : Int := 0
  /-- it holds the end of the sustain segment -/
  held : Bool := false
  /-- its last segment is complete -/
  done : Bool := false
  /-- the value at the end of the last sub-block -/
  v : Int := 0
deriving DecidableEq, Repr

/-- An LFO of a native voice (R196, R197): its phase (0.32), the random values drawn, and the previous and the next of them. -/
structure LfoSt where
  phase : Nat := 0
  draws : Nat := 0
  prev : Int := 0
  next : Int := 0
deriving DecidableEq, Repr

/-- A step or ramp residual that a VA source still adds (R164): a ramp, its fractional time (0.28), its next tap, its height. -/
structure Resid where
  ramp : Bool
  frac : Nat
  tap : Nat
  height : Int
deriving DecidableEq, Repr

/-- A source of a native voice between internal samples (R162–R168): phases (0.32), the residuals of VA, the last output of FM
operator 4, and the noise generator. A SAMPLE source's position lies in the state header (R213). -/
structure SrcSt where
  phase : Nat := 0
  resid : List Resid := []
  phases : List Nat := []
  op4 : Int := 0
  noise : Nat := 1
  /-- internal samples rendered -/
  n : Nat := 0
deriving DecidableEq, Repr

/-- A glide in progress (R195): p_from − p_to, the internal samples since the new pitch took effect, and the glide's length. -/
structure Glide where
  diff : Int
  n : Nat
  len : Nat
deriving DecidableEq, Repr

/-- The values that the I destinations reached at the end of the last sub-block (R201): phase increments of the sources (0.32), source
levels, the cutoffs of each filter in semitones (units of 2^-45; three in a formant filter), the amplifier, and the sends. Levels are in
units of 2^-59 or 2^-60. -/
structure Ramps where
  incA : Int := 0
  incB : Int := 0
  lvlA : Int := 0
  lvlB : Int := 0
  cut1 : List Int := []
  cut2 : List Int := []
  amp : Int := 0
  sends : List Int := []
deriving DecidableEq, Repr

/-- The committed state of a ROM voice program (R143, R213) beyond the state header: bytes 0x040–0x1FF of the half, whose layout the
spec leaves to the program, held by content. -/
structure Native where
  /-- the voice has not rendered since it was initialised -/
  fresh : Bool := true
  env : List EnvSt := []
  lfo : List LfoSt := []
  /-- smoothed copies of the matrix sources, by slot (R199) -/
  smooth : List Int := []
  /-- the sums of destinations 20–29 that act from the next sub-block (R201), in units of 2^-45 -/
  mods : List Int := []
  ramps : Ramps := {}
  /-- the drift in force, Q1.31 of drift_depth (R146) -/
  drift : Int := 0
  glide : Option Glide := none
  srcA : SrcSt := {}
  srcB : SrcSt := {}
  filt1 : List Int := []
  filt2 : List Int := []
  /-- internal samples since the voice's start, sub-blocks rendered, and values drawn from the voice seed -/
  age : Nat := 0
  blocks : Nat := 0
  released : Bool := false
  /-- the pick and the internal sample at which the last sub-block started: changes at or before it have taken effect -/
  seen : Option (Nat × Nat) := none
  /-- BEAT_POS of the voice's start frame (R197) -/
  beat0 : Nat := 0
deriving DecidableEq, Repr

/-- A value of a voice that a change replaced, to be used for the sub-blocks before the change's offset (R58, R174). -/
inductive OldValue where
  /-- the halfword at an offset of the parameter block -/
  | param (o : Nat)
  | pnBend
  | pressure
  | key
  | vel
  | pitch
  | attr
  | detune
  | pan
deriving DecidableEq, Repr

/-- A replaced value: the pick and the internal sample of the change, and what stood before it. -/
structure Undo where
  pick : Nat
  off : Nat
  what : OldValue
  old : Int
deriving DecidableEq, Repr

/-- What a release or a note's event-apply card asks of a voice at an internal sample of a pick (R126, R127, R132, R133, R175): a release, or a
start with a retrigger and a glide (its start pitch and time code). `no` numbers the voice's commands in the order of R61; one that an
event-apply card brings is ready once that card has completed OK. -/
structure VoiceCmd where
  no : Nat
  pick : Nat
  off : Nat
  release : Bool := false
  retrig : Bool := false
  glide : Option (Int × Nat) := none
  ready : Bool := false
deriving DecidableEq, Repr

/-- A voice of a booked group that takes over a context in use (R126, R137): the context's voice plays on until the target pick. -/
structure Start where
  /-- the number of its note -/
  note : Nat
  part : Nat
  key : Nat
  noteId : Nat
  vel : Nat
  layer : Nat
  unison : Nat
  uniCount : Nat
  program : Nat
  template : Nat
  prog : Nat
  startFrame : Nat
  startPick : Nat
  /-- start offset in output samples (R25) -/
  offset : Nat
  /-- the note's UMP pitch attribute in Q16.16, -1 with none (R147) -/
  attr : Int
  /-- the pick of its booking -/
  admitPick : Nat
deriving DecidableEq, Repr

/-- A voice context (R12). -/
structure Voice where
  st : VState := .free
  /-- the number of its note -/
  note : Nat := 0
  /-- ignores later per-note controllers and bends (R75, R128) -/
  detached : Bool := false
  part : Nat := 0
  key : Nat := 0
  noteId : Nat := 0
  layer : Nat := 0
  unison : Nat := 0
  uniCount : Nat := 1
  program : Nat := 0
  template : Nat := 0
  prog : Nat := 0
  startFrame : Nat := 0
  startPick : Nat := 0
  /-- start offset in output samples (R25) -/
  offset : Nat := 0
  relFrame : Nat := 0
  /-- the committed-half bit (R214) -/
  half : Nat := 0
  fadePos : Nat := 0
  fadeLen : Nat := 0
  /-- the pick in which the fade starts -/
  fadePick : Nat := 0
  cost : Nat := 0
  /-- B_v (R158) -/
  bytes : Nat := 0
  /-- its cost and bytes are in the admitted sums (R99, R123) -/
  charged : Bool := false
  /-- the pick of its admission, in which it charges its bytes twice (R159) -/
  admitPick : Nat := 0
  /-- picks in a row whose cards ended FENCED or FAULT (R97), and the last such pick -/
  fails : Nat := 0
  failPick : Nat := 0
  /-- the template copy is complete (R145) -/
  copied : Bool := false
  /-- 1 + the pick whose windows are all in the pool (R159) -/
  winPick : Nat := 0
  stageA : LoopStage := {}
  stageB : LoopStage := {}
  /-- a loop length has been committed (R155, R156): a length of 0 is then no loop -/
  lenA : Bool := false
  lenB : Bool := false
  /-- the pitch of its key in the tuning table, Q16.16, and the note's UMP pitch attribute, -1 with none (R147) -/
  pKey : Int := 0
  attr : Int := -1
  /-- a booked voice waits to take the context over (R137) -/
  next : Option Start := none
  /-- per-note bend and pressure as last mirrored (R58) -/
  pnBend : Nat := 0x8000
  pressure : Nat := 0
  /-- key and velocity at the note's start, which choose the sample zones (R151) -/
  zoneKey : Nat := 0
  zoneVel : Nat := 0
  /-- a ROM program's state, what is asked of it and how much has been, and the values replaced in this pick and the last -/
  nat : Native := {}
  cmds : List VoiceCmd := []
  cmdNo : Nat := 0
  undo : List Undo := []
deriving DecidableEq, Repr

/-- A voice's offer to a CV channel (R202): the channel, the pick and the sub-block, the voice and its start frame, the value. -/
structure CvOffer where
  chan : Nat
  pick : Nat
  sub : Nat
  voice : Nat
  startFrame : Nat
  value : Word
deriving DecidableEq, Repr

/-- What an event-apply card will carry (R82): the voice, the opcode, the event data, the start offset in output samples. -/
structure Apply where
  voice : Nat
  op : Nat
  data : Word
  offset : Nat
  /-- the card initialises a starting voice -/
  init : Bool := false
  /-- retrigger flag (R126, R132) -/
  retrig : Bool := false
  /-- glide: start pitch and time code (R133) -/
  glide : Option (Int × Nat) := none
  /-- the unison offsets of a voice that starts (R115): cents Q8.8, pan Q1.15 -/
  uni : Option (Int × Int) := none
  /-- a per-note value for a voice that was detached when the event was released (R203): without effect -/
  ignore : Bool := false
  /-- the number of the voice's command that it brings -/
  cmd : Nat := 0
deriving DecidableEq, Repr

/-- A pooled note awaiting its booking pick or its answer (R137–R139). -/
structure Pooled where
  ev : Timed
  /-- target pick and booking pick -/
  nt : Nat
  nb : Nat
  /-- layers not placed here -/
  left : List Nat
  /-- layers booked here, and the number of the note that holds them -/
  booked : List Nat
  note : Option Nat := none
  booking : Bool := false
  passed : Bool := false
  /-- the answer: PLACED or EXHAUSTED -/
  answer : Option Bool := none
deriving DecidableEq, Repr

/-- A passed note that reached this member (R138), not yet decided: the origin, the note, frame and layer mask. -/
structure PassIn where
  origin : Nat
  pool : Nat
  /-- the origin's tag -/
  tag : Nat
  part : Nat
  key : Nat
  vel : Nat
  noteId : Nat
  frame : Nat
  layers : Nat
deriving DecidableEq, Repr

/-- What the harnesses hold at the start of a pick (R58): the pick, the part table, β at each of its presentation frames (40.24, R39), the
tempo in BPM 16.16, and how far each global LFO has advanced since pick 0 (32 fraction bits, R198). -/
structure MirrorBase where
  pick : Nat := 0
  parts : FMap Part := []
  beats : List Nat := []
  tempo : Nat := 0
  glfo : FMap Nat := []
deriving DecidableEq, Repr

/-- The allocator and its tables. -/
structure Alloc where
  parts : FMap Part := []
  voices : FMap Voice := []
  notes : FMap (Option Note) := []
  nextNote : Nat := 0
  /-- voices started or booked in the pick in progress (R118) -/
  started : Nat := 0
  /-- tuning tables, keyed by table × 128 + key, Q16.16 (R148) -/
  tuning : FMap Nat := []
  /-- tuning changes written by the firmware, for the next pick boundary (R148): table, key, value, retune sounding voices -/
  tuningNext : List (Nat × Nat × Nat × Bool) := []
  /-- mirrored changes of the pick in progress, in the order of R61 -/
  mirror : List Mirror := []
  /-- what the mirrored changes of the pick in progress start from, and the same with the changes of the pick before (R58) -/
  base : MirrorBase := {}
  last : MirrorBase := {}
  lastMirror : List Mirror := []
  /-- W_c as recomputed at the pick boundary, the same for both channels (R102) -/
  wc : Int := 0
  /-- bytes per channel that the legacy windows charge (R369) -/
  fixedBytes : Nat := 0
  /-- T_hop and H_pass of each pool in frames (R136) -/
  hop : FMap Nat := []
  horizon : FMap Nat := []
  /-- query in progress (R140): op and index -/
  query : Option (Nat × Nat) := none
  /-- whether step 2 of the pick in progress has ended -/
  step2Done : Bool := true
  pooled : List Pooled := []
  passIn : List PassIn := []
  /-- B_max over the VPARAM templates (R161) -/
  bMax : Nat := 0
  /-- notes that end at the next pick boundary, a voice of theirs having been freed by R97 (R135) -/
  endNext : List Nat := []
  /-- context slots withdrawn by R427, by voice number -/
  withdrawn : List Nat := []
deriving DecidableEq, Repr

/-! ### The Dealer (chapter 04) -/

/-- A card's state short of DONE (R86). -/
inductive CardSt where
  | waiting
  | ready
  | held
  | inService (s : Nat)
deriving DecidableEq, Repr

/-- Completion status (R96). -/
inductive Status where
  | ok
  | fenced
  | fault
  | cancelled
  | lapsed
deriving DecidableEq, Repr

/-- A card that is not DONE (R81): the fields of its 128 bits, its order of creation, its deck (harness 0–31, loom 32 + L), its
state and its ready time in CYCLE_CNT. `pick` is the whole pick number; the card shows its low 16 bits. -/
structure Card where
  no : Nat
  flow : Nat
  level : Nat
  type : Nat
  prog : Nat
  budget : Nat
  pick : Nat
  payload : Long
  deck : Nat
  st : CardSt
  readyT : Nat
  /-- the cycle in which it counts in the depth of its deck from: it became READY or HELD (R107) -/
  deepT : Nat
  /-- the cycle of a cancel that waits for its next permitted point (R106) -/
  cancel : Option Nat := none
  /-- its event-apply data, for types 1 -/
  apply : Option Apply := none
deriving DecidableEq, Repr

/-- A completion record (R96): the card's flow, type, pick and deck, and its status. -/
structure CardRecord where
  flow : Nat
  type : Nat
  pick : Nat
  deck : Nat
  status : Status
deriving DecidableEq, Repr

/-- The Dealer's statistics (R107), keyed as named. -/
structure Stats where
  /-- depth at the boundary and maximum depth, keyed by deck × 8 + level -/
  depth : FMap Nat := []
  maxDepth : FMap Nat := []
  /-- keyed by level -/
  maxWait : FMap Nat := []
  sumWait : FMap Nat := []
  count : FMap Nat := []
  /-- keyed by shuttle -/
  busy : FMap Nat := []
  busyNow : FMap Nat := []
  winMax : FMap Nat := []
  served : FMap Nat := []
  /-- keyed by loom: lowest slack (none before any), late count -/
  slack : FMap (Option Int) := []
  late : FMap Nat := []
  /-- keyed by harness -/
  fences : FMap Nat := []
  faults : FMap Nat := []
  /-- picks in the window -/
  picks : Nat := 0
  /-- peak of the admitted bytes in the window -/
  peak : Nat := 0
deriving DecidableEq, Repr

/-- The Dealer. -/
structure Dealer where
  cards : List Card := []
  nextNo : Nat := 0
  /-- event-apply cards to create at step 2, in the order of R61 -/
  applies : List Apply := []
  /-- steal ledger use per harness in the pick (R101) -/
  steal : FMap Nat := []
  /-- 1 + the pick whose cards have been created -/
  createdPick : Nat := 0
  /-- CYCLE_CNT at the start of the pick in progress -/
  pickT : Nat := 0
  /-- looms whose bus phase of the pick in progress has ended, with the cycle of its end -/
  busEnd : FMap (Option Nat) := []
  /-- looms whose bus gate of the pick in progress has opened (R89) -/
  gateOpen : List Nat := []
  /-- starting voices whose event-apply card was not created: freed at the end of the pick (R84) -/
  lost : List Nat := []
  /-- housekeeping flows that have had a card DONE -/
  doneFlows : List Nat := []
  /-- the completion records of the cards of the pick in progress and of the pick before (R96), in order -/
  records : List CardRecord := []
  /-- 1 + the cycle of the last selection of each harness and of each loom deck, keyed as decks (R92) -/
  selT : FMap Nat := []
  /-- voice modulation offers of the pick in progress (R202) -/
  offers : List CvOffer := []
  /-- accumulators of the loom saturated in the pick in progress (R255) -/
  satLooms : List Nat := []
  /-- the next BIST step of each harness's spare (R434) -/
  bistStep : FMap Nat := []
  /-- the snapshot being copied: its destination and its boundary's image, to be written at its end (R108) -/
  snap : Option (Nat × List Byte) := none
  /-- the cycle of the pending request, and that of a cancel that dropped one (R109) -/
  snapT : Nat := 0
  snapDrop : Option Nat := none
  /-- whether the harness's rotation is due, and the pick at which it fell due (R94, R433) -/
  rotDue : FMap (Option Nat) := []
  /-- whether the spare of a harness has completed its test card -/
  testDone : List Nat := []
  stats : Stats := {}
deriving DecidableEq, Repr

/-! ### Shuttles (chapter 08) -/

/-- A register write on its way (R219): the bundle in which it is readable, its register (class and number), its value, the bundle
that issued it, and its rank there (C over X over M1 over M0). Classes are MOVX's (R247), and 16 accumulator as extraction reads it,
17 accumulator as accumulation reads it, 18 the four ALU flags (value: written flags × 16 + their values), 19 sticky flags. -/
structure Flight where
  due : Nat
  cls : Nat
  reg : Nat
  val : Acc
  issued : Nat
  rank : Nat
deriving DecidableEq, Repr

/-- An outstanding loom transfer (R217): direction, loom byte offset, local address in the private alias, size, what the ECC check finds in
what it reads. -/
structure Xfer where
  store : Bool
  loom : Nat
  priv : Nat
  size : Nat
  ecc : Ecc
deriving DecidableEq, Repr

/-- A send bank (R218): the target of each bound lane, keyed by lane (0 unbound, 1 + target), and the sends in issue order:
lane, internal sample, value. -/
structure Bank where
  binds : FMap Nat := []
  sends : List (Nat × Nat × Word) := []
  /-- it is draining into the loom accumulators -/
  draining : Bool := false
deriving DecidableEq, Repr

/-- A store on its way: its address, or its offset in the parameter block, and its bytes. -/
structure Store where
  addr : Nat
  bytes : List Byte
deriving DecidableEq, Repr

/-- One of the 160 voice cores (R206). Role, state, cause, program, flow, position, captures and counts are the SHT registers. -/
structure Shuttle where
  d : FMap Word := []
  acc : FMap Acc := []
  /-- the accumulators as accumulation forwards them (R219) -/
  accFwd : FMap Acc := []
  p : FMap Word := []
  m : FMap Word := []
  cb : FMap Word := []
  cl : FMap Word := []
  /-- the lengths in force for addressing, one bundle behind the readable ones (R223) -/
  clNow : FMap Word := []
  lc : FMap Nat := []
  ls : FMap Nat := []
  le : FMap Nat := []
  /-- loop levels open (0–2) -/
  levels : Nat := 0
  it : FMap Word := []
  flg : Word := 0
  epc : Word := 0
  eflg : Word := 0
  ecause : Nat := 0
  eaddr : Word := 0
  bnd : Word := 0
  /-- WIN_FR0, WIN_NF0, WIN_FR1, WIN_NF1 -/
  win : FMap Word := []
  /-- the card's stream windows (R158, R215): the spans of frames in them (first, count), where the frames lie, their format. Windows 0 and 1
  are those of WIN_FR and WIN_NF; 2 and 3 hold the entries of sources A and B, 4 and 5 their half-rate copies -/
  winSpan : FMap (List (Nat × Nat)) := []
  winAt : FMap Nat := []
  winFmt : FMap Nat := []
  /-- the tempo when the card started, at which a bus program's beats convert (R263) -/
  tempo : Nat := 0
  /-- cycles left in the fence counter -/
  fence : Nat := 0
  /-- the fence has reached 0 and waits for a permitted point -/
  fencePending : Bool := false
  /-- the card in service, by order of creation -/
  card : Option Nat := none
  /-- CYCLE_CNT at which DRAW issued -/
  drawT : Nat := 0
  /-- the next bundle's index, and the number of bundles issued -/
  pc : Nat := 0
  bundle : Nat := 0
  /-- the target of a branch taken, and the delay slots left of a branch, taken or not (R250) -/
  branch : Option Nat := none
  slotsLeft : Nat := 0
  /-- the repetitions left of the next bundle (R251) -/
  rep : Option Nat := none
  /-- folds due: bundle, descriptor, new length (R223) -/
  folds : List (Nat × Nat × Word) := []
  flights : List Flight := []
  /-- the slots given so far for the next bundle -/
  m0 : MOp := .nop
  m1 : MOp := .nop
  x : XOp := .nop
  /-- parameter queue (R212), oldest first -/
  queue : List Store := []
  xfers : List Xfer := []
  banks : FMap Bank := []
  active : Nat := 0
  /-- DONE has issued: its E flag -/
  done : Option Bool := none
  /-- a pending fault: cause and address -/
  fault : Option (Nat × Word) := none
  tapReq : Bool := false
deriving DecidableEq, Repr

/-! ### The DV32 personality (chapter 15) -/

/-- The playing state of a DV32 voice (R357): position 24.16, envelope level and phase (0 attack, 1 decay, 2 sustain, 3 release),
filter state, and its end flag since the last readback (R370). -/
structure DvState where
  playing : Bool := false
  pos : Nat := 0
  phase : Nat := 0
  env : Nat := 0
  lp : Int := 0
  bp : Int := 0
  endf : Bool := false
deriving DecidableEq, Repr

/-- A legacy context (R366): voice 0–31 or the output context (32) of an instance. `regs` are its registers at the start of the pick,
keyed by address; `list` is its pick list (offset, address, value); `st` is the committed playing state. -/
structure DvContext where
  regs : FMap Nat := []
  list : List (Nat × Nat × Nat) := []
  st : DvState := {}
  /-- a read of the pick fell outside its windows (R369) -/
  clamp : Bool := false
deriving DecidableEq, Repr

/-- The port side of an instance: the last written byte keyed by page × 64 + address (globals at page 0), the page, irq_en, ENDF,
the readback image keyed by voice (position, VSTAT), and the position shadow (R361–R363). -/
structure DvPort where
  image : FMap Nat := []
  page : Nat := 0
  irqEn : Bool := false
  endf : Nat := 0
  pos : FMap Nat := []
  vstat : FMap Nat := []
  shadow : Nat := 0
  /-- the cycle of the last readback update; the positions before it, and the end flags that it set (R362, R371) -/
  upT : Option Nat := none
  posWas : FMap Nat := []
  fresh : Nat := 0
deriving DecidableEq, Repr

/-- The legacy state, keyed by instance, and by instance × 64 + context. -/
structure Legacy where
  ports : FMap DvPort := []
  ctx : FMap DvContext := []
deriving DecidableEq, Repr


/-! ### Memories, DMA, reliability (chapters 13, 18) -/

/-- A system DMA channel that is busy (R333): what it copies, its owner group, and whether an abort came in time (R334). -/
structure Dma where
  src : Nat
  dst : Nat
  len : Nat
  host : Bool
  aborted : Bool := false
deriving DecidableEq, Repr

/-- An access held by a handover until the new owner takes effect (R313): master and owner group, ID, write, address, data with strobes. -/
structure HeldXact where
  master : Nat
  host : Bool
  id : Nat
  write : Bool
  addr : Nat
  len : Nat
  data : List (Option Byte)
deriving DecidableEq, Repr

/-- Memory-side state beside the registers. -/
structure Mem where
  /-- busy DMA channels, keyed by channel (R333) -/
  dma : FMap (Option Dma) := []
  /-- accesses held for a bank, keyed by bank, oldest first (R313) -/
  held : FMap (List HeldXact) := []
  /-- requests held while their master drains, oldest first (R332) -/
  drainHeld : List HeldXact := []
  /-- the DRAM key drawn at the last compute-die reset (R325): data written before it reads as noise -/
  era : Nat := 0
  /-- repair map of the factory fuses, keyed by array × 8 + spare: 0, or 1 + column (R319) -/
  repair : FMap Nat := []
  /-- where start-up step 8 placed SAMPDATA in DRAM (R171) -/
  sampBase : Nat := 0x100000000
  /-- arrays that failed boot BIST (R320) -/
  bistFail : List Nat := []
deriving DecidableEq, Repr

/-- Reliability state (R424–R435). -/
structure Rel where
  /-- shuttles to retire, looms to quarantine (with the cause of REL_LCAP) and looms to release at the next pick boundary -/
  retireNext : List Nat := []
  quarNext : List (Nat × Nat) := []
  unquarNext : List Nat := []
  /-- 1 + the pick of a shuttle's first register-file parity fault (R425) -/
  parityPick : FMap Nat := []
  /-- uncorrectable errors in a shuttle's private scratch set, and in a context slot (by voice number), since the last compute-die
  reset (R425, R427) -/
  scratchUe : FMap Nat := []
  ctxUe : FMap Nat := []
  /-- voices to free at the next pick boundary (R427) -/
  ueVoices : List Nat := []
  /-- consecutive picks in which a loom was late (R429) -/
  lateRun : FMap Nat := []
  /-- whether the pick in progress is impaired (R435), and by a cause outside the promise (R436) -/
  impaired : Bool := false
  outside : Bool := false
  /-- whether the pick before lay outside the promise, and whether it was impaired and is not in REL_IMPX (R436) -/
  lastOut : Bool := false
  lastImp : Bool := false
  /-- uncorrectable inline-ECC errors in the pick in progress (R431) -/
  dramUe : Nat := 0
  /-- MP watchdog restarts without a kick between them (R431) -/
  wdRun : Nat := 0
  /-- self-test sequences passed and failed since reset, and when each shuttle passed its last one, by CYCLE_CNT (R447) -/
  passes : Nat := 0
  fails : Nat := 0
  tested : FMap Nat := []
  /-- retire fuses burned, by shuttle (R425) -/
  fused : List Nat := []
deriving DecidableEq, Repr

/-! ### Mix stage and chain (chapter 10) -/

/-- One response set running in a lane (R266, R268): the newest samples of its three stages, newest first, and the outputs its pad
holds back, oldest first. -/
structure Chain where
  h1 : List Word := []
  h2 : List Word := []
  h3 : List Word := []
  pad : List Word := []
deriving DecidableEq, Repr

/-- A decimation or input lane. Its sets are DCH_LSTATl's or DCH_ISTATi's; this is the rest. -/
structure Lane where
  cur : Chain := {}
  inc : Chain := {}
  /-- output samples of the running crossfade made, and its k; the k of the queued request (R269) -/
  xf : Nat := 0
  xk : Nat := 4
  qk : Nat := 4
  /-- the cycle of the last request, and the set and k that were queued before that cycle: a request in a boundary's cycle waits for the next -/
  askT : Option Nat := none
  held : Option (Nat × Nat) := none
  /-- the shifts in force (R270) -/
  sh1 : Nat := 0
  sh2 : Nat := 0
  sh3 : Nat := 0
  /-- the newest 256 samples that entered the lane, newest first -/
  past : List Word := []
  /-- the block of the pick in progress, after the pad: P output samples in Q5.27 (decimation lanes) -/
  out : List Word := []
  /-- the blocks of earlier picks, newest first: what pad_w holds back (R268), and what the node adds to weft buses (R345) -/
  older : List (List Word) := []
deriving DecidableEq, Repr

/-- Mix stage, chain and outputs. -/
structure Mix where
  /-- looms whose factor f_L is 0 (R265) -/
  off : List Nat := []
  /-- the cycle of the last write of MIX_CTL.live, and what it held before that cycle (R265) -/
  liveT : Option Nat := none
  liveWas : Nat := 0
  /-- the loom plan's N, and whether it has input blocks, once the MIX section is applied (R257) -/
  layout : Option (Nat × Bool) := none
  /-- deferred bus parameter writes: loom, bus, offset, halfword (R261) -/
  deferred : List (Nat × Nat × Nat × Nat) := []
  /-- the delay lines of DELAY and the look-ahead of DYNAMICS (R263), newest first, and the delay times of DELAY's last card, keyed by
  512 × loom + 2 × entry + channel -/
  lines : FMap (List Word) := []
  times : FMap Nat := []
  lanes : FMap Lane := []
  inputs : FMap Lane := []
  /-- frames received on each input channel, newest first (R271) -/
  recv : FMap (List Word) := []
  /-- output samples waiting for their frames, keyed by output channel, oldest first; all begin at the frame `head` -/
  queue : FMap (List Word) := []
  head : Nat := 0
  /-- 1 + the last pick that the chip stage has summed -/
  mixed : Nat := 0
  /-- the word that each output channel presents -/
  shown : FMap Word := []
deriving DecidableEq, Repr


/-! ### Control-voltage outputs (chapter 12) -/

/-- One entry of a channel's block on its way to its presentation frame (R297, R298): the frame, the source that made it (0 a CV_SET,
1 a voice offer, 2 a lane), its value (a code, or the Q1.31 word), its bypass flag, and whether its source was the channel's when
it was made (a CV_SET that fails this is discarded at its presentation, R296). -/
structure CvEntry where
  frame : Nat
  src : Nat
  value : Word
  bypass : Bool
  good : Bool
deriving DecidableEq, Repr

/-- A control-voltage channel. Targets and limiter outputs are duty values (R295). -/
structure CvChan where
  /-- the pin is driven; otherwise it is high-impedance (R305) -/
  driven : Bool := false
  /-- span and source in force (R300, R302) -/
  bip : Bool := false
  src : Nat := 0
  target : Nat := 0
  /-- the limiter output y -/
  y : Nat := 0
  /-- periods since the last update, and whether an update of the current period is due (R301) -/
  count : Nat := 0
  due : Bool := false
  /-- a register write waiting for the next boundary: code and bypass (R299) -/
  val : Option (Nat × Bool) := none
  /-- entries waiting for their frames, in order of making -/
  entries : List CvEntry := []
  /-- clocks for which the pin is high in the current period (R294) -/
  high : Nat := 0
deriving DecidableEq, Repr

/-- The CV outputs: the channels, and the current period of the dither cycle (R294). -/
structure Cvo where
  chans : FMap CvChan := []
  k : Nat := 63
deriving DecidableEq, Repr


/-! ### Serial audio ports (chapter 11) -/

/-- One port beside its registers. A frame is kept as the words of its slots; an output frame waiting in the elastic buffer as the
words of all output channels. -/
structure SapPort where
  /-- the word FIFOs (R286), oldest first -/
  ofifo : List Word := []
  ififo : List Word := []
  /-- the elastic buffers (R281), oldest first, and the frames sent and read last -/
  oel : List (FMap Word) := []
  olast : FMap Word := []
  iel : List (List Word) := []
  ilast : List Word := []
  /-- the words of the frame that DO is sending, and of the one before, slot by slot, in the word length (R276): none in a slot in which DO is
  high-impedance (R279), and none at all while it always is -/
  out : Option (List (Option Word)) := none
  was : Option (List (Option Word)) := none
  /-- the cycles of the last change of SAP_CTL.en and of the restart that waits: an edge of the same cycle does not see them (R288, R291) -/
  enT : Option Nat := none
  restartT : Option Nat := none
  /-- the frame in progress is the quiet one of a realignment (R287) -/
  quiet : Bool := false
  /-- the clock was lost and has not returned (R284) -/
  lost : Bool := false
  /-- CYCLE_CNT at the last frame start -/
  t0 : Nat := 0
  /-- writes of SAP_MASK and SAP_CHMAP not yet sampled (R290): time and both pending values after the write, oldest first -/
  writes : List (Nat × Word × Word) := []
  /-- the frame-rate measurement: its start and the frames since (SAP_FRATE) -/
  rateT : Nat := 0
  rateN : Nat := 0
deriving DecidableEq, Repr


/-! ### The weft link (chapter 14) -/

/-- What a node puts on the ring of its own: the payload of a frame or a marker (R340, R341). MGMT and BOOT payloads, whose bytes the
spec leaves open, are kept by content. -/
inductive WSend where
  /-- a marker: kind, value -/
  | marker (kind value : Nat)
  /-- a frame of this class passed on: its header as it left, with a good or an inverted CRC -/
  | passOn (cls src dst ttl : Nat) (bcast wrapped crcOk : Bool)
  /-- AUDIO: lap 2, wrapped path, pick [15:0], segment, words bus-major -/
  | audio (lap2 wrapped : Bool) (pick seg : Nat) (words : List Word)
  /-- EVENT: to a node (none: broadcast), the event, whether it came as UMP -/
  | event (dst : Option Nat) (e : Ev) (ump : Bool)
  /-- PASS: destination, kind (0 PASS, 1 PLACED, 2 EXHAUSTED), fields -/
  | pass (dst kind : Nat) (m : PassMsg)
  /-- ENUM: the root's serial, count, the (serial, hop) of each node that has an ID, whether a node took none -/
  | enumerate (root count : Nat) (table : List (Nat × Nat)) (tooMany : Bool)
  /-- ENUM_DONE: N, the table, the root's L_out, whether the ring is wrapped -/
  | enumDone (n : Nat) (table : List (Nat × Nat)) (lout : Nat) (wrapped : Bool)
  /-- UNWRAP at a pick -/
  | unwrap (pick : Nat)
  /-- tunnel request: node, tag, write, offset, data; response: node, tag, error, data -/
  | tunRequest (dst tag : Nat) (write : Bool) (offset data : Nat)
  | tunResponse (dst tag : Nat) (err : Bool) (data : Nat)
  /-- BOOT: the 4,096-byte blocks sent, by number -/
  | boot (blocks : List Nat)
  /-- MGMT: the blocks that a booting node has missed -/
  | bootMissed (blocks : List Nat)
deriving DecidableEq, Repr

/-- The weft unit beside its registers. -/
structure Weft where
  /-- what the node has sent since the pick in progress began, oldest first -/
  tx : List WSend := []
  /-- the root's enumeration is under way -/
  enumerating : Bool := false
  /-- D in force, and D to apply when the picks have stopped (R346) -/
  d : Nat := 0
  dNext : Option Nat := none
  /-- lap 2 words received, keyed by pick × 32 + segment -/
  sums : FMap (List Word) := []
  /-- the picks still to be presented whose saturation was counted -/
  satPicks : List Nat := []
  /-- tag of the tunnelled access in progress, and whether it is a write -/
  tunTag : Nat := 0
  tunWrite : Bool := false
  /-- frames of the pick in progress that failed their CRC at WA and at WB (R336) -/
  crcA : Nat := 0
  crcB : Nat := 0
  /-- PROBE markers sent (R339) -/
  probes : Nat := 0
  /-- pick of an UNWRAP command (R353) -/
  unwrapAt : Option Nat := none
deriving DecidableEq, Repr


/-! ### Identity and secrets (R437–R442) -/

/-- The customer fuses (R439); an empty list is a blank field. -/
structure Fuses where
  dbgLock : Bool := false
  imgAuth : Bool := false
  method : Nat := 0
  keyHash : List Byte := []
  unlockKey : List Byte := []
  password : List Byte := []
  lkek : List Byte := []
deriving DecidableEq, Repr

/-- The security unit beside its registers. -/
structure Sec where
  /-- factory fuses: SERIAL (R437), the PCIe vendor ID, the stepping's ID word -/
  serial : Nat := 0
  vendor : Nat := 0
  /-- the customer fuses as burned, and as loaded at the last start-up (R448) -/
  burned : Fuses := {}
  fuses : Fuses := {}
  /-- refused responses since power-on (R442) -/
  fails : Nat := 0
  /-- a nonce is valid -/
  nonce : Bool := false
  /-- the 1 s lockout is running -/
  lockout : Bool := false
  /-- words drawn from the TRNG so far -/
  drawn : Nat := 0
  /-- the library key of the SEC section in force (R444) -/
  libKey : Option (List Byte) := none
  /-- the TAP's instruction (R445): IDCODE after power-on -/
  tap : Byte := 0x02
deriving DecidableEq, Repr

/-! ### System, host and mailbox (chapter 16) -/

/-- The command that the mailbox has latched at go (R400). -/
structure MbCmd where
  seq : Nat
  op : Nat
  len : Nat
  /-- the firmware has claimed it (R401) -/
  claimed : Bool := false
  /-- a cancel waits for the next safe point (R402) -/
  cancel : Bool := false
deriving DecidableEq, Repr

/-- A patch that waits for its pick boundary (R403): its sections by type. -/
structure Patch where
  sections : FMap (List Byte)
deriving DecidableEq, Repr

/-- System state beside its registers. -/
structure Sys where
  /-- the boot flash: bytes (erased ones read 0xFF), size, and whether it has valid SFDP -/
  flash : FMap Byte := []
  flashSize : Nat := 0
  sfdp : Bool := false
  /-- the compute die is held in reset, and by a high TEST_EN (R451) -/
  held : Bool := true
  testEn : Bool := false
  /-- a fuse that a provisioning burns fails its read-back (R448), as COMPUTE_RESET_RELEASE brings it -/
  burnBad : Bool := false
  /-- requests made by a register write, performed when the access ends: chip reset, MP reset, push boot -/
  reqChip : Bool := false
  reqMp : Bool := false
  reqBoot : Bool := false
  /-- CYCLE_CNT at compute-die reset release -/
  releaseT : Nat := 0
  /-- bytes of the image's SAMPDATA, 0 while it has none; bytes of the image in force -/
  sampLen : Nat := 0
  imgLen : Nat := 0
  /-- blocks of 4,096 bytes received in a weft boot, and the rounds of resending (R354) -/
  bootBlocks : FMap (List Byte) := []
  bootRounds : Nat := 0
  /-- the SysEx queue of chip SRAM (R405): source and message, oldest first -/
  syx : List (Nat × List Byte) := []
  /-- the MPFW patch in force: its length, 0 for none -/
  mpfw : Nat := 0
  /-- the resident firmware is stopped by a reset of the MP (R401, R406) -/
  mpDown : Bool := false
  /-- what the firmware sends on MIDI_TX0 (R148) -/
  midiTx : List (List Byte) := []
  /-- the mailbox command in progress -/
  mb : Option MbCmd := none
  /-- a patch that waits for a pick boundary -/
  patch : Option Patch := none
  /-- a mailbox RESET has completed and its chip reset is due (R402) -/
  resetDue : Bool := false
  /-- doorbell bytes collected, keyed by slot × 16 + byte (R396) -/
  doorbell : FMap (Option Byte) := []
  /-- the last SPI status byte (R392) -/
  spiStatus : Byte := 0
  /-- MSI-X (R398): table words keyed by word index (masked at reset), pending bits, the group ORs as last seen, messages sent since
  the pick in progress began (address, data) -/
  msix : FMap Word := []
  msixPend : List Nat := []
  msixWas : List Nat := []
  msixTx : List (Nat × Word) := []
deriving DecidableEq, Repr

/-! ### Power and heat (chapter 17) -/

/-- A temperature sensor (R418): its level, and the samples in a row at or above each threshold, and below each less 3 °C. -/
structure Sensor where
  level : Nat := 0
  up1 : Nat := 0
  up2 : Nat := 0
  up3 : Nat := 0
  below1 : Nat := 0
  below2 : Nat := 0
  below3 : Nat := 0
deriving DecidableEq, Repr

/-- The power die and the sensors beside their registers. -/
structure Pwr where
  /-- VIN has passed UVLO and the rails are to be up -/
  powered : Bool := false
  /-- over-voltage stop; a rail failed and its retry is awaited; a controlled shutdown awaits repower (R407, R410, R417) -/
  overVolt : Bool := false
  retry : Bool := false
  shut : Bool := false
  /-- PFW_N is low; CYCLE_CNT at its fall; VIN is good again (R417) -/
  pfw : Bool := false
  boT : Nat := 0
  good : Option Nat := none
  /-- the lowest VIN measured in the pick in progress and in the last one, in mV -/
  vinLow : Option Nat := none
  vinPick : Option Nat := none
  /-- the values of PWR_ILIM and PWR_GOV in force; the cycle of their last write, and what they held before that cycle (R414) -/
  ilim : Nat := 0x28
  gov : Nat := 0x00870385
  setT : Option Nat := none
  ilimWas : Nat := 0
  govWas : Nat := 0
  sensors : FMap Sensor := []
  /-- d_pdie is 0.5; the power die was at 140 °C and has not been below 120 °C since (R420) -/
  hot : Bool := false
  tooHot : Bool := false
  /-- samples in a row with every loom and chip sensor below t1 − 5 °C (R419) -/
  cool : Nat := 0
  /-- the level factors in force since the last boundary, by sensor (R418) -/
  levels : FMap Nat := []
deriving DecidableEq, Repr

/-! ### The whole -/

/-- Everything the engine holds but the queue of waiting commands. -/
structure Block where
  /-- the register file -/
  regs : Regs := []
  /-- the SRAMs and the DRAM, a byte per 40-bit address (R307) -/
  mem : List Host.Cell := []
  bus : Bus := {}
  tbu : Tbu := {}
  efe : Efe := {}
  alc : Alloc := {}
  dlr : Dealer := {}
  sht : FMap Shuttle := []
  mm : Mem := {}
  rel : Rel := {}
  leg : Legacy := {}
  mix : Mix := {}
  cvo : Cvo := {}
  sap : FMap SapPort := []
  wft : Weft := {}
  sec : Sec := {}
  sys : Sys := {}
  pwr : Pwr := {}
  /-- the image sections in force, as bytes, keyed by section type (R384) -/
  img : FMap (List Byte) := []
deriving DecidableEq, Repr

/-- The engine's state: the block and the commands that wait, first in, first out. -/
structure State where
  blk : Block
  pending : List Instr
deriving DecidableEq, Repr

/-- Why a run stops with a fault. No command of this model ends in one: where the spec gives an error it is a response, a
status code or a counter, which is state. -/
inductive Fault where
  /-- raised by nobody; kept so that the type has a value. Safe. -/
  | none
deriving DecidableEq, Repr

/-- Why a command has no meaning. -/
inductive Refusal where
  /-- raised by the arm of a command that has no meaning yet. Safe. -/
  | notModelled (mnemonic : String)
deriving DecidableEq, Repr

/-- The machine right after power-on reset with nothing commanded: every register at its reset value, every memory byte at what
an unlisted byte reads as, every queue empty. -/
def State.reset : State := { blk := {}, pending := [] }

end Sys2Proof.Machine
end

