-- ==== Sys2Proof/Machine/Ops.lean ====
section
/-! DEFINITION. The named operations over registers, memory and time that every meaning uses. -/

namespace Sys2Proof.Machine

/-! ### Registers -/

/-- The value of a register field. -/
def Block.get (b : Block) (f : Fld) : Nat := b.regs.f f
/-- Whether a register field is not zero. -/
def Block.on (b : Block) (f : Fld) : Bool := b.regs.on f
/-- Bit `i` of a field of flags. -/
def Block.bit (b : Block) (f : Fld) (i : Nat) : Bool := b.regs.bit f i
/-- Set a register field. -/
def Block.put (b : Block) (f : Fld) (v : Nat) : Block := { b with regs := b.regs.setF f v }
/-- Set every bit of a one-bit flag. -/
def Block.flag (b : Block) (f : Fld) : Block := b.put f 1
/-- Set bit `i` of a field of flags. -/
def Block.setBit (b : Block) (f : Fld) (i : Nat) : Block := { b with regs := b.regs.setBit f i }
/-- Clear bit `i` of a field of flags. -/
def Block.clrBit (b : Block) (f : Fld) (i : Nat) : Block := { b with regs := b.regs.clrBit f i }
/-- Count in a saturating counter. -/
def Block.bump (b : Block) (f : Fld) (n : Nat := 1) : Block := { b with regs := b.regs.bump f n }
/-- The whole of a register (a pair is one 64-bit value). -/
def Block.rd (b : Block) (a : Nat) : Long := b.regs.rd a
/-- Set the whole of a register. -/
def Block.wr (b : Block) (a : Nat) (v : Long) : Block := { b with regs := b.regs.wr a v }
/-- A register's value as a number. -/
def Block.num (b : Block) (a : Nat) : Nat := (b.regs.rd a).toNat
/-- Set a register to a number. -/
def Block.setNum (b : Block) (a v : Nat) : Block := b.wr a (BitVec.ofNat 64 v)

/-! ### Format and rate (R16, R24) -/

/-- The rate of a rate code in Hz; the reserved codes 6 and 7 have the shortest supported period, 192 kHz's (R30). -/
def fsHz (code : Nat) : Nat :=
  match code with
  | 0 => 32000
  | 1 => 44100
  | 2 => 48000
  | 3 => 88200
  | 4 => 96000
  | _ => 192000

/-- The rate in force: TBU_REF_STAT.det_rate (R33). -/
def Block.rateCode (b : Block) : Nat := b.get TBU_REF_STAT_det_rate
/-- The output rate in force in Hz. -/
def Block.fs (b : Block) : Nat := fsHz b.rateCode
/-- The pick size P (R16): SYS_CFG.pick. The code 3 fails validation; DESIGN CHOICE (notes/assumptions): written by a register access,
it acts as the code 2. -/
def Block.pick (b : Block) : Nat := 16 * 2 ^ min 2 (b.get SYS_CFG_pick)
/-- The oversampling ratio in force (R16). -/
def Block.osr (b : Block) : Nat := 2 ^ b.tbu.osr
/-- Internal samples in a pick (R16). -/
def Block.nInt (b : Block) : Nat := b.pick * b.osr
/-- The output latency (R24). -/
def Block.lOut (b : Block) : Nat := b.get DCH_LOUT_lout
/-- The frame that the reference port presents (R27). -/
def Block.sample (b : Block) : Nat := b.num TBU_SAMPLE
/-- The pick in progress (R27). -/
def Block.pickNo (b : Block) : Nat := b.num TBU_PICK
/-- CYCLE_CNT. -/
def Block.now (b : Block) : Nat := b.num TBU_CYCLE
/-- The code of the OSR in force: the largest at or below the configured OSR that keeps OSR × fs at or below 192 kHz (R16). The
configured code 3 acts as 2 (DESIGN CHOICE, notes/assumptions). -/
def osrFor (cfg fs : Nat) : Nat :=
  if cfg ≥ 2 ∧ 4 * fs ≤ 192000 then 2 else if cfg ≥ 1 ∧ 2 * fs ≤ 192000 then 1 else 0

/-! ### Memory (R307): one byte per 40-bit address -/

/-- The canonical form of the memory: addresses strictly rising, and no listed byte equal to what an unlisted one reads as. -/
def Memory.wf (m : List Host.Cell) : Bool := FMap.wf (fun _ => (0 : Byte)) m
/-- The byte at an address; an unlisted one reads 0 (notes/assumptions). -/
def Memory.byte (m : List Host.Cell) (a : Nat) : Byte := FMap.get (fun _ => (0 : Byte)) m a
/-- Write one byte. -/
def Memory.setByte (m : List Host.Cell) (a : Nat) (v : Byte) : List Host.Cell := FMap.set (fun _ => (0 : Byte)) m a v
/-- `n` bytes from an address. -/
def Memory.bytes (m : List Host.Cell) (a n : Nat) : List Byte := (List.range n).map fun i => Memory.byte m (a + i)
/-- Write bytes from an address, lowest first. -/
def Memory.setBytes (m : List Host.Cell) : Nat → List Byte → List Host.Cell
  | _, [] => m
  | a, x :: l => Memory.setBytes (Memory.setByte m a x) (a + 1) l
/-- A little-endian number of `n` bytes. -/
def Memory.num (m : List Host.Cell) (a n : Nat) : Nat := leNat (Memory.bytes m a n)
/-- Write a little-endian number of `n` bytes. -/
def Memory.setNum (m : List Host.Cell) (a n v : Nat) : List Host.Cell := Memory.setBytes m a (leBytes n v)

/-! ### Interrupts (R398) -/

/-- The blocks whose interrupt is raised, as SYS_IRQ_STAT shows them: status and enable registers share a set bit. -/
def raised (b : Block) : Nat :=
  let on (st en i : Nat) : Nat := if b.num st &&& b.num en = 0 then 0 else 2 ^ i
  (on TBU_IRQ_STAT TBU_IRQ_EN 0 ||| on TBU_EVT_STAT TBU_EVT_EN 0) + on EFE_IRQ_STAT EFE_IRQ_EN 1 + on DLR_IRQ_STAT DLR_IRQ_EN 2 +
  on VAL_IRQ_STAT VAL_IRQ_EN 3 + on SHT_IRQ_STAT SHT_IRQ_EN 4 + on MIX_IRQ_STAT MIX_IRQ_EN 5 + on DCH_IRQ_STAT DCH_IRQ_EN 6 +
  sumNat ((List.range 8).map fun n => on (SAP_IRQ_STAT n) (SAP_IRQ_EN n) (7 + n)) + on CVO_IRQ_STAT CVO_IRQ_EN 15 +
  on MEM_IRQ_STAT MEM_IRQ_EN 16 + on BMX_IRQ_STAT BMX_IRQ_EN 17 + on DRC_IRQ_STAT DRC_IRQ_EN 18 + on WFT_IRQ_STAT WFT_IRQ_EN 19 +
  on LEG_IRQ_STAT LEG_IRQ_EN 20 + on XCH_IRQ_STAT XCH_IRQ_EN 21 + on PWR_IRQ_STAT PWR_IRQ_EN 22 + on THM_IRQ_STAT THM_IRQ_EN 23 +
  on REL_IRQ_STAT REL_IRQ_EN 24 + on SEC_IRQ_STAT SEC_IRQ_EN 25 + on HIF_IRQ_STAT HIF_IRQ_EN 26

/-- IRQ_N is low. -/
def irqLow (b : Block) : Bool := raised b &&& b.num SYS_IRQ_PIN_EN != 0

/-- The blocks of each MSI-X vector, as a mask over SYS_IRQ_STAT: XCH; EFE; TBU; DLR, VAL, SHT; MIX, DCH, SAP, CVO, LEG; MEM, BMX,
DRC; WFT; PWR, THM, REL, SEC, HIF. -/
def msixGroups : List Nat := [0x200000, 0x2, 0x1, 0x1C, 0x10FFE0, 0x70000, 0x80000, 0x7C00000]

/-- The vectors whose group's OR is 1. -/
def msixOrs (b : Block) : List Nat := (List.range 8).filter fun v => raised b &&& msixGroups.getD v 0 != 0

/-- A word of the MSI-X table; a vector is masked at reset. -/
def msixWord (b : Block) (k : Nat) : Word := FMap.get (fun k => if k % 4 = 3 then 1 else 0) b.sys.msix k
/-- Whether a vector is masked. -/
def msixMasked (b : Block) (v : Nat) : Bool := (msixWord b (4 * v + 3)).getLsbD 0
/-- Send the message of a vector: its address and data. -/
def msixSend (v : Nat) (b : Block) : Block :=
  { b with sys := { b.sys with msixTx := b.sys.msixTx ++
    [((msixWord b (4 * v)).toNat + 2 ^ 32 * (msixWord b (4 * v + 1)).toNat, msixWord b (4 * v + 2))] } }

/-- The vectors whose group has risen send their messages, or become pending while masked (R398). -/
def msixUpdate (b : Block) : Block :=
  let now := msixOrs b
  let b1 := (now.filter fun v => !b.sys.msixWas.contains v).foldl (fun acc v =>
    if msixMasked acc v then { acc with sys := { acc.sys with msixPend := insertBy (· ≤ ·) v (acc.sys.msixPend.filter (· != v)) } }
    else msixSend v acc) b
  { b1 with sys := { b1.sys with msixWas := now } }

end Sys2Proof.Machine
end

