-- ==== Sys2Proof/Machine/Img.lean ====
section
/-! DEFINITION. Reading the sections of the image in force (chapters 05 to 16): each section is kept as its bytes, and its fields
are read where they are used. -/

namespace Sys2Proof.Machine

/-- The little-endian number of `n` bytes at `off` of a byte string; bytes past its end read 0. -/
def numAt (l : List Byte) (off n : Nat) : Nat := leNat ((l.drop off).take n)
/-- One byte. -/
def byteAt (l : List Byte) (off : Nat) : Nat := numAt l off 1
/-- A signed number of `n` bytes. -/
def sintAt (l : List Byte) (off n : Nat) : Int :=
  let v := numAt l off n
  if v < 2 ^ (8 * n - 1) then v else (v : Int) - (2 ^ (8 * n) : Nat)
/-- `n` bytes from `off`. -/
def slice (l : List Byte) (off n : Nat) : List Byte := (l.drop off).take n
/-- Whether the `n` bytes at `off` are all zero. -/
def zeros (l : List Byte) (off n : Nat) : Bool := (slice l off n).all (· == 0)

/-- The section of a type (R381's types): empty where the image has none. -/
def Block.sect (b : Block) (ty : Nat) : List Byte := FMap.get (fun _ => []) b.img ty

/-- A layer of a program (R142). -/
structure Layer where
  keyLo : Nat
  keyHi : Nat
  unison : Nat
  mask : Nat
  velLo : Nat
  velHi : Nat
  template : Nat
  prog : Nat
  detune : Nat
  spread : Nat
deriving DecidableEq, Repr

/-- The layer entry at `off` of the PROGS section. -/
def layerAt (s : List Byte) (off : Nat) : Layer :=
  { keyLo := byteAt s off, keyHi := byteAt s (off + 1), unison := byteAt s (off + 2), mask := byteAt s (off + 3) % 16
    velLo := numAt s (off + 4) 2, velHi := numAt s (off + 6) 2, template := numAt s (off + 8) 2, prog := byteAt s (off + 10)
    detune := numAt s (off + 12) 2, spread := numAt s (off + 14) 2 }

/-- The layers of program `p` (R142); none when the program is absent. -/
def Block.layers (b : Block) (p : Nat) : Option (List Layer) :=
  let s := b.sect 7
  let off := numAt s (4 * p) 4
  if off = 0 ∨ p ≥ 4096 then none else some ((List.range (byteAt s off)).map fun i => layerAt s (off + 4 + 32 * i))

/-- Template `i` of the VPARAM section (R170), 1,024 bytes. -/
def Block.templateBytes (b : Block) (i : Nat) : List Byte := slice (b.sect 8) (64 + 1024 * i) 1024
/-- The number of templates. -/
def Block.templateCount (b : Block) : Nat := numAt (b.sect 8) 0 4

/-- The index into a cost row for N (R144, R234): 16, 32, 64, 128, 256. -/
def costIx (n : Nat) : Nat := if n ≤ 16 then 0 else if n ≤ 32 then 1 else if n ≤ 64 then 2 else if n ≤ 128 then 3 else 4

/-- The declared costs of the ROM programs at N = 16, 32, 64, 128, 256 (R144, R262). -/
def romCost (prog n : Nat) : Nat :=
  match prog with
  | 0 => [4900, 9600, 19500, 39000, 78100].getD (costIx n) 0
  | 1 => [1950, 3800, 7500, 14900, 29700].getD (costIx n) 0
  | 2 => [1600, 3050, 6000, 11900, 23700].getD (costIx n) 0
  | 8 => 180
  | 16 => [5900, 7500, 10600, 16900, 29500].getD (costIx n) 0
  | 17 => [4900, 5500, 6600, 8900, 13500].getD (costIx n) 0
  | 18 => [5500, 6700, 9000, 13700, 23100].getD (costIx n) 0
  | 19 => [10300, 16300, 28200, 52100, 99900].getD (costIx n) 0
  | 20 => [5200, 6100, 7800, 11300, 18300].getD (costIx n) 0
  | _ => 0

/-- The energy classes of the ROM programs (R233, R262); the spec gives none for housekeeping and BIST programs. -/
def romClass (prog : Nat) : Nat :=
  match prog with
  | 0 => 6
  | 1 => 5
  | 2 => 4
  | 3 => 3
  | 8 => 2
  | 16 => 5
  | 17 => 2
  | 18 => 4
  | 19 => 5
  | 20 => 4
  | n => Config.bistClass n % 8

/-- The offset of the VCODE record of a customer program (R234). -/
def Block.vcodeRec (b : Block) (prog : Nat) : Option Nat :=
  let s := b.sect 9
  ((List.range (numAt s 0 4)).find? fun i => byteAt s (64 + 64 * i) = prog).map fun i => 64 + 64 * i

/-- The declared cost of a program at N (R95, R144, R234); 0 when it declares none. -/
def Block.voiceCost (b : Block) (prog n : Nat) : Nat :=
  if prog < 64 then romCost prog n
  else match b.vcodeRec prog with
    | none => 0
    | some off => numAt (b.sect 9) (off + 8 + 4 * costIx n) 4

end Sys2Proof.Machine
end

