-- ==== Sys2Proof/Machine/MixPlan.lean ====
section
/-! DEFINITION. The loom plan (R257–R259): the entries of the MIX section and where their areas lie in each loom's SRAM. -/

namespace Sys2Proof.Machine

/-- A plan entry (R273). -/
structure Entry where
  ix : Nat
  bus : Nat
  prog : Nat
  looms : Nat
  stereo : Bool
  dry : Bool
  ret0 : Nat
  ret1 : Nat
  gain : Nat
  mem : Nat
deriving DecidableEq, Repr

/-- Entry `i` of a MIX section. -/
def entryAt (s : List Byte) (i : Nat) : Entry :=
  let o := 0x240 + 32 * i
  { ix := i, bus := byteAt s o, prog := byteAt s (o + 1), looms := byteAt s (o + 2) % 16, stereo := byteAt s (o + 3) % 2 == 1
    dry := byteAt s (o + 3) / 2 % 2 == 1, ret0 := byteAt s (o + 4), ret1 := byteAt s (o + 5), gain := numAt s (o + 6) 2
    mem := numAt s (o + 8) 4 }

/-- The entries of the plan in force, in ascending bus order. -/
def Block.plan (b : Block) : List Entry := (List.range (numAt (b.sect 0xD) 0 4)).map (entryAt (b.sect 0xD))

/-- The plan entry that a bus heads (R258). -/
def headOf (b : Block) (bus : Nat) : Option Entry := b.plan.find? fun e => e.bus == bus

/-- Whether an entry runs on loom `l`. -/
def Entry.on (e : Entry) (l : Nat) : Bool := e.looms / 2 ^ l % 2 == 1

/-- The entries that run on loom `l`. -/
def planOn (b : Block) (l : Nat) : List Entry := b.plan.filter fun e => e.on l

/-- The entry of a bus on loom `l`. -/
def entryFor (b : Block) (l bus : Nat) : Option Entry := (planOn b l).find? fun e => e.bus == bus

/-- B_L: the declared cost of the bus programs of loom `l` (R21, R258). -/
def busLoad (b : Block) (l : Nat) : Nat := sumNat ((planOn b l).map fun e => b.voiceCost e.prog b.nInt)

/-- The largest N that the configured OSR and the reachable rates allow (R257). -/
def plannedN (b : Block) : Nat :=
  if b.on TBU_REF_CFG_auto_rate then b.pick * 2 ^ min 2 (b.get SYS_CFG_osr) else b.nInt

/-- The N that the areas are laid out for, and whether there are input blocks: those of the plan's application (R257). -/
def layoutOf (b : Block) : Nat × Bool := b.mix.layout.getD (plannedN b, b.on DCH_CFG_inputs)

/-- The base of the returns of the entry of index `ix` on loom `l`. -/
def retBase (b : Block) (l ix : Nat) : Nat :=
  let (n, inputs) := layoutOf b
  2048 * n + (if inputs then 1024 * n else 0) + 16 * n * ((planOn b l).filter fun e => e.ix < ix).length

/-- The base of the parameter area of an entry. -/
def parBase (b : Block) (l ix : Nat) : Nat :=
  retBase b l 256 + 1024 * ((planOn b l).filter fun e => e.ix < ix).length

/-- The base of the state area of an entry. -/
def stateBase (b : Block) (l ix : Nat) : Nat :=
  parBase b l 256 + sumNat (((planOn b l).filter fun e => e.ix < ix).map fun e => ceilMul e.mem 64)

/-- Where the wavetables of loom `l` begin. -/
def waveBase (b : Block) (l : Nat) : Nat := stateBase b l 256

/-- Bytes 0x3F0–0x3FF of a parameter area (R259). -/
def parTail (b : Block) (l : Nat) (e : Entry) : List Byte :=
  leBytes 4 (retBase b l e.ix) ++ leBytes 2 b.nInt ++ leBytes 1 e.bus ++ leBytes 1 (if e.stereo then 1 else 0) ++
  leBytes 4 (stateBase b l e.ix) ++ leBytes 4 e.mem

end Sys2Proof.Machine
end

