-- ==== Sys2Proof/Machine/Ring.lean ====
section
/-! DEFINITION. The weft ring as a node knows it (chapter 14): the node table, D, the pools, and what the node sends. -/

namespace Sys2Proof.Machine

/-- The node puts something on the ring. -/
def wsend (x : WSend) (b : Block) : Block := { b with wft := { b.wft with tx := b.wft.tx ++ [x] } }

/-- The node's ID and the number of nodes. -/
def nodeId (b : Block) : Nat := b.get WFT_NODE_id
def nodeCount (b : Block) : Nat := b.get WFT_NODE_n
/-- Whether the node has its place in the ring. -/
def inRing (b : Block) : Bool := b.on WFT_STAT_enum
/-- Whether the node acts as the root: by its strap, unless it has yielded to another root (R338). -/
def isRoot (b : Block) : Bool := b.on WFT_STAT_root && !b.on WFT_STAT_dup_root

/-- Segments the ring carries (R344). -/
def nseg (b : Block) : Nat := min 32 (b.get WFT_CFG_nseg)

/-- Hop delay into node `i`, from the node table. -/
def hopOf (b : Block) (i : Nat) : Nat := b.get (WFT_NT_HOP_hop i)
/-- droot of node `i` (R339): the sum of the hop delays from the root. -/
def drootOf (hop : Nat → Nat) (i : Nat) : Nat := sumNat ((List.range i).map fun k => hop (k + 1))
/-- The largest hop delay of the table. -/
def maxHop (b : Block) : Nat := (List.range (nodeCount b)).foldl (fun m i => max m (hopOf b i)) 0
/-- This node's delay from the root in ns. -/
def droot (b : Block) : Nat := if inRing b then b.get (WFT_NT_DROOT_droot (nodeId b)) else 0

/-- The sum of the hop delays from node `x` to node `y` along the primary; once round from a node to itself. -/
def transit (b : Block) (x y : Nat) : Nat :=
  let n := nodeCount b
  if n = 0 then 0
  else
    let d := (y + n - x % n) % n
    sumNat ((List.range (if d = 0 then n else d)).map fun k => hopOf b ((x + k + 1) % n))

/-- Whether an output channel takes a weft bus (R272). -/
def takesWeft (b : Block) : Bool := (List.range 128).any fun c => b.get (DCH_OUT_kind c) == 2
/-- Whether the node adds a lane to a bus that exists. -/
def addsWeft (b : Block) : Bool := (List.range (16 * nseg b)).any fun w => b.on (WFT_BUS_add w)

/-- ceil(laps × hops × h / T) + 1, T = P / fs (R346, R352). -/
def ringPicks (b : Block) (hops : Nat) : Nat := ceilDiv (2 * hops * maxHop b * b.fs) (b.pick * 1000000000) + 1

/-- D by R346. -/
def weftD (b : Block) : Nat :=
  if nseg b = 0 ∨ !(addsWeft b || takesWeft b) then 0 else max (b.get WFT_CFG_dmin) (ringPicks b (nodeCount b))

/-! ### Pools (R136, R350, R355) -/

/-- Whether node `i` is in the mask of pool `p`. -/
def poolHas (b : Block) (p i : Nat) : Bool :=
  decide (1 ≤ p ∧ p ≤ 15 ∧ i < 1024) && (byteAt (b.sect 0x11) (0x840 + 128 * (p - 1) + i / 8)).testBit (i % 8)

/-- The members of a pool, in ascending ID. -/
def poolMembers (b : Block) (p : Nat) : List Nat := (List.range 1024).filter (poolHas b p)

/-- The next member after node `i`: the next higher ID, wrapping to the lowest (R350). -/
def nextMember (b : Block) (p i : Nat) : Nat :=
  let l := poolMembers b p
  ((l.find? fun x => decide (i < x)) <|> l.head?).getD i

/-- The pool that a part takes part in: none where the mask excludes this node (R355). -/
def poolOf (b : Block) (part : Nat) : Nat :=
  let p := (FMap.get (fun _ => {}) b.alc.parts part : Part).pool
  if p ≠ 0 ∧ poolHas b p (nodeId b) then p else 0

/-- τ of a pool in ns: the largest transit between consecutive members, with 6 µs for queuing (R350). -/
def poolTransit (b : Block) (p : Nat) : Nat :=
  let l := poolMembers b p
  l.foldl (fun m x => max m (transit b x (nextMember b p x))) 0 + 6000

/-- T_hop of a pool: P + ceil(τ) (R136). -/
def poolHop (b : Block) (p : Nat) : Nat := b.pick + ceilDiv (poolTransit b p * b.fs) 1000000000
/-- H_pass of a pool (R136). -/
def poolHorizon (b : Block) (p : Nat) : Nat := ((poolMembers b p).length - 1) * poolHop b p + b.pick

/-- T_hop and H_pass of every pool, derived when the section is applied, at ENUM_DONE and after a rate change (R136). -/
def derivePools (b : Block) : Block :=
  (List.range 15).foldl (fun acc k =>
    let p := k + 1
    if (poolMembers acc p).isEmpty then
      { acc with alc := { acc.alc with hop := FMap.set (fun _ => 0) acc.alc.hop p 0, horizon := FMap.set (fun _ => 0) acc.alc.horizon p 0 } }
    else
      { acc with alc := { acc.alc with
          hop := FMap.set (fun _ => 0) acc.alc.hop p (poolHop acc p)
          horizon := FMap.set (fun _ => 0) acc.alc.horizon p (poolHorizon acc p) } }) b

/-- pool_out follows the parts (R355). -/
def checkPools (b : Block) : Block :=
  b.put WFT_STAT_pool_out (if b.alc.parts.any fun kv => kv.2.pool != 0 && !poolHas b kv.2.pool (nodeId b) then 1 else 0)

/-! ### Event forwarding (R139, R348) -/

/-- An event that source `src` has accepted is sent on: by WFT_EVFWD, and, an event of a pool part after its NOTE_ON, to every other
member. Source 7 forwards nothing. -/
def forwardEvent (src : Nat) (e : Ev) (b : Block) : Block :=
  if src = 7 ∨ !inRing b then b
  else
    let ump := (src == 4 || src == 5) && b.on (EFE_SRC_CFG_fmt src)
    let b1 :=
      if b.bit WFT_EVFWD_mask src then
        wsend (.event (if b.on WFT_EVFWD_bcast then none else some (b.get WFT_EVFWD_dst)) e ump) b
      else b
    let part := bitsOf e.target.toNat 5 0
    let pool := if bitsOf e.target.toNat 15 14 = 0 then poolOf b part else 0
    if pool = 0 ∨ bitsOf e.head.toNat 15 10 = 1 then b1
    else (poolMembers b pool).foldl (fun acc i => if i = nodeId b then acc else wsend (.event (some i) e ump) acc) b1

/-- The checks of a WEFT section (R355), given the pools that the parts name. -/
def weftOk (s : List Byte) (pools : List Nat) : Bool :=
  s.length == 4032 && decide (numAt s 0 4 &&& 0x03FF1FFF = numAt s 0 4) && decide (numAt s 4 4 &&& 0x03FF07FF = numAt s 4 4) &&
  decide (numAt s 8 4 < 32) && decide (numAt s 0xC 4 < 2) && zeros s 0x10 48 &&
  (List.range 512).all (fun w => decide (numAt s (0x40 + 4 * w) 4 < 512)) &&
  pools.all fun p => p == 0 || !zeros s (0x840 + 128 * (p - 1)) 128

/-- Apply a WEFT section (R355). -/
def applyWeft (s : List Byte) (b : Block) : Block :=
  let b1 := ((b.setNum WFT_CFG (numAt s 0 4)).setNum WFT_EVFWD (numAt s 4 4)).setNum WFT_IRQ_EN (numAt s 8 4)
  derivePools ((List.range 512).foldl (fun acc w => acc.setNum (WFT_BUS w) (numAt s (0x40 + 4 * w) 4)) b1)

end Sys2Proof.Machine
end

