-- ==== Sys2Proof/Machine/Efe.lean ====
section
/-! DEFINITION. The event front end (chapter 03): parsing, queues, acceptance, status, and the delay lists. -/

namespace Sys2Proof.Machine

/-! ### Event fields (R52–R55) -/

/-- The opcode of an event: [15:10] of its head. -/
def Ev.op (e : Ev) : Nat := bitsOf e.head.toNat 15 10
/-- tmode: [9:8]. -/
def Ev.tmode (e : Ev) : Nat := bitsOf e.head.toNat 9 8
/-- The quiet flag: [7]. -/
def Ev.quiet (e : Ev) : Bool := bitsOf e.head.toNat 7 7 == 1
/-- oflags: [3:0]. -/
def Ev.oflags (e : Ev) : Nat := bitsOf e.head.toNat 3 0
/-- The target kind: 0 part, 1 voice, 2 bus, 3 chip. -/
def Ev.kind (e : Ev) : Nat := bitsOf e.target.toNat 15 14
/-- The target index. -/
def Ev.index (e : Ev) : Nat := bitsOf e.target.toNat 13 0
/-- The part of a part target. -/
def Ev.part (e : Ev) : Nat := bitsOf e.target.toNat 5 0
/-- The key of a per-note part target. -/
def Ev.key (e : Ev) : Nat := bitsOf e.target.toNat 12 6
/-- A bit range of the data word. -/
def Ev.bits (e : Ev) (hi lo : Nat) : Nat := bitsOf e.data.toNat hi lo

/-- A native event from its 16 bytes as one little-endian number (R52). -/
def Ev.ofNat (x : BitVec 128) : Ev :=
  { time := x.setWidth 64, head := (x >>> 64).setWidth 16, target := (x >>> 80).setWidth 16, data := (x >>> 96).setWidth 32 }

/-- An event from its parts; its tmode and time are set by `Ev.at`. -/
def Ev.mk' (op oflags kind index data : Nat) (ext : EvExt := .none) : Ev :=
  { head := BitVec.ofNat 16 (op * 1024 + oflags), target := BitVec.ofNat 16 (kind * 16384 + index), data := BitVec.ofNat 32 data
    ext := ext }

/-- Give an event its tmode and time (R66, R76): immediate, or at a frame. -/
def Ev.at (time : Option Nat) (e : Ev) : Ev :=
  match time with
  | none => { e with time := 0, head := BitVec.ofNat 16 (e.op * 1024 + e.oflags) }
  | some t => { e with time := BitVec.ofNat 64 t, head := BitVec.ofNat 16 (e.op * 1024 + 256 + e.oflags) }

/-- The per-note opcodes, whose part index carries a key (R54). -/
def perNote (op : Nat) : Bool := op == 1 || op == 2 || op == 3 || op == 5 || op == 7

/-- Whether the kinds of an opcode allow a target kind (R55). -/
def kindAllowed (op kind : Nat) : Bool :=
  match op with
  | 0x02 | 0x03 | 0x05 | 0x07 => kind == 0 || kind == 1
  | 0x09 => kind == 1
  | 0x0A => kind == 0 || kind == 1 || kind == 3
  | 0x0B => kind == 0 || kind == 3
  | 0x0C => kind == 2
  | 0x0D | 0x0E | 0x0F | 0x10 | 0x11 => kind == 3
  | _ => kind == 0

/-- The oflags bits that an opcode defines (R55), as a mask. -/
def oflagsMask (op : Nat) : Nat :=
  match op with
  | 0x0B | 0x0D | 0x0F => 1
  | 0x13 => 3
  | _ => 0

/-- Whether the data word of an opcode is well formed (R55, R261). -/
def dataOk (e : Ev) : Bool :=
  match e.op with
  | 0x01 | 0x02 | 0x03 | 0x07 => e.bits 31 24 == 0
  | 0x04 => e.bits 31 24 ≤ 128
  | 0x05 => true
  | 0x06 => e.bits 31 16 == 0
  | 0x08 => e.bits 31 12 == 0
  | 0x09 => e.bits 15 10 == 0 && e.bits 0 0 == 0
  | 0x0C => e.bits 15 10 == 0 && e.bits 0 0 == 0 && e.bits 9 0 < 0x3F0
  | 0x0A => e.bits 31 10 == 0 && e.bits 9 0 ≤ 512
  | 0x0B => e.bits 31 0 == 0
  | 0x0D => e.bits 31 16 == 0
  | 0x0E | 0x0F | 0x11 => true
  | 0x10 => e.bits 31 0 ≤ 1
  | 0x12 => e.bits 15 2 == 0 && e.bits 1 0 != 3
  | 0x13 => e.bits 15 4 == 0
  | _ => false

/-- Test 1 of R62: the event is well formed. Events the EFE forms itself with an extension are. -/
def formatOk (e : Ev) : Bool :=
  (e.ext != .none && (match e.ext with | .pitch _ => dataOk e | _ => true)) ||
  (e.tmode != 3 && bitsOf e.head.toNat 6 4 == 0 && e.oflags &&& (15 - oflagsMask e.op) == 0 && dataOk e)

/-- Whether a voice number is a legacy flow (R366): slot 4v of voice v and slot 128 of the output context, in harness i of an enabled
instance. -/
def legacyFlow (b : Block) (v : Nat) : Bool :=
  v / 256 < 4 && b.bit LEG_CTL_en (v / 256) && v % 256 ≤ 128 && v % 4 == 0

/-- Test 2 of R62: the target is one the opcode allows and in range (R54), not a legacy voice (R368), a bus that heads a plan entry
(R261), and a PROGRAM's program is present (R55). A legacy write names its own context. -/
def targetOk (b : Block) (e : Ev) : Bool :=
  (match e.ext with | .legacy _ _ _ _ => true | _ => false) ||
  kindAllowed e.op e.kind && !(e.kind == 1 && legacyFlow b e.index) &&
  (match e.kind with
   | 0 => if perNote e.op then e.index < 8192 else e.index < 64
   | 1 => e.index < 8192 && e.tmode != 2
   | 2 => e.index < 256 && (headOf b e.index).isSome
   | _ => if e.op == 0x0D then e.index < 32 else e.index == 0) &&
  (e.op != 0x08 || (b.layers (e.bits 11 0)).isSome)

/-! ### Sources, queues and status (R50, R51, R61–R65) -/

/-- Whether a source is enabled (R51). -/
def srcOn (b : Block) (src : Nat) : Bool := b.bit EFE_CTL_en src

/-- The room of a source's queue in events (R61). -/
def queueRoom (src : Nat) : Nat := if src = 4 ∨ src = 5 ∨ src = 6 ∨ src = 7 then 64 else 16

/-- The events of a source that wait for an entry slot; an item without an event takes the place of one. -/
def queueFill (b : Block) (src : Nat) : Nat :=
  sumNat ((b.efe.waiting.filter (·.src == src)).map fun i => max 1 i.evs.length)

/-- The status FIFO of a source. -/
def statusFifo (b : Block) (src : Nat) : List (Nat × Nat) := FMap.get (fun _ => []) b.efe.status src

/-- Write a status entry (R63): none for a source that is not enabled (R51), and subject to the source's report filter and the quiet
bit; a full FIFO loses and counts it. -/
def writeStatus (src seq code : Nat) (quiet : Bool) (b : Block) : Block :=
  let rep := b.get (EFE_SRC_CFG_report src)
  if !srcOn b src ∨ (rep = 1 ∧ code < 2) ∨ rep ≥ 2 ∨ (quiet ∧ code = 0) then b
  else
    let q := statusFifo b src
    if q.length ≥ 256 then b.bump (EFE_SRC_CNT_lost src)
    else ({ b with efe := { b.efe with status := FMap.set (fun _ => []) b.efe.status src (q ++ [(seq, code)]) } }).setBit EFE_IRQ_STAT_stat src

/-- Take the next sequence number of a source (R63). -/
def takeSeq (src : Nat) (b : Block) : Nat × Block :=
  let n := b.get (EFE_SRC_SEQ_nxt src)
  (n, b.put (EFE_SRC_SEQ_nxt src) (n + 1))

/-- A refused legacy write is counted (R365). -/
def noteLegacy (e : Ev) (code : Nat) (b : Block) : Block :=
  match e.ext with
  | .legacy _ _ _ _ => if 2 ≤ code then (b.bump LEG_CNT_rej).flag LEG_IRQ_STAT_rej else b
  | _ => b

/-- Queue an item whose parsing is complete: behind every item that was complete earlier, and among those of the same cycle by
ascending source (R61). -/
def queueItem (it : Item) (l : List Item) : List Item :=
  let before (x : Item) : Bool := x.t != it.t || decide (x.src ≤ it.src)
  l.takeWhile before ++ it :: l.dropWhile before

/-- Whether a source's queue has no room for an item of `n` events (R61). -/
def queueFull (b : Block) (src n : Nat) : Bool := decide (queueRoom src < queueFill b src + max 1 n)

/-- A parsed item of an enabled source (R51, R61, R63): it takes a number when numbered, and waits for an entry slot, or is refused
with REJ_FULL when its queue is full. -/
def submit (src : Nat) (numbered : Bool) (evs : List Ev) (code : Nat) (quiet : Bool) (b : Block) : Block :=
  if !srcOn b src then b
  else
    let (seq, b1) := if numbered then (let (n, b') := takeSeq src b; (some n, b')) else (none, b)
    if queueFull b1 src evs.length then
      let b2 := evs.foldl (fun acc e => noteLegacy e 2 acc) b1
      match seq with
      | some n => writeStatus src n 2 false b2
      | none => b2
    else { b1 with efe := { b1.efe with waiting := queueItem ⟨src, seq, evs, code, quiet, b1.now⟩ b1.efe.waiting } }

/-- A native event of source 4, 5, 7, 8 (a GPIO template) or 9. While a source 4, 5 or 7 carries UMP (R74) its bytes are no native
events; its messages are the UMP rows. -/
def submitNative (src : Nat) (e : Ev) (b : Block) : Block :=
  if (src = 4 ∨ src = 5 ∨ src = 7) ∧ b.on (EFE_SRC_CFG_fmt src) then b else submit src true [e] 0 e.quiet b

/-- A native event of the resident firmware (R61): it waits for room instead of being refused. -/
def submitMp (e : Ev) (b : Block) : Block :=
  if !srcOn b 9 then b
  else if b.efe.mpWait ≠ [] ∨ queueFill b 9 ≥ queueRoom 9 then
    { b with efe := { b.efe with mpWait := b.efe.mpWait ++ [e] } }
  else submitNative 9 e b

/-! ### Acceptance (R26, R40, R41, R59, R60, R62) -/

/-- The last pick released: none before the first pick start. -/
def lastReleased (b : Block) : Option Nat := if b.tbu.started then some b.pickNo else none

/-- The first pick released after now. -/
def nextRelease (b : Block) : Nat := match lastReleased b with | none => b.pickNo | some n => n + 1

/-- The target pick of a frame (R25): none for a frame below the output latency. -/
def targetPick (b : Block) (t : Nat) : Option Nat := if t < b.lOut then none else some ((t - b.lOut) / b.pick)

/-- Event-apply units per harness and pick (R59): 0 and values above 256 act as 64. -/
def eMax (b : Block) : Nat := let v := b.get EFE_PCAP_e_max; if 1 ≤ v ∧ v ≤ 256 then v else 64

/-- Units taken on harness `h` in pick `n`. -/
def unitsUsed (b : Block) (n h : Nat) : Nat := FMap.get (fun _ => 0) b.efe.units (n * 32 + h)
/-- Take a unit on harness `h` in pick `n`. -/
def takeUnit (n h : Nat) (b : Block) : Block :=
  { b with efe := { b.efe with units := FMap.set (fun _ => 0) b.efe.units (n * 32 + h) (unitsUsed b n h + 1) } }
/-- Forget the units of picks before `n`. -/
def dropUnits (n : Nat) (b : Block) : Block :=
  { b with efe := { b.efe with units := b.efe.units.filter fun kv => decide (n * 32 ≤ kv.1) } }

/-- Whether an event's beat lies below the last LOCATE's target (R41). -/
def pastLocate (b : Block) (e : Ev) : Bool := e.tmode == 2 && b.tbu.located && decide (e.time < b.rd TBU_LOC_TGT)

/-- The pick at which an event takes effect, and whether it is late (R26): a timed event whose target pick has been released, and
an immediate one, take effect at the next release. A beat-time event has none yet. -/
def pickOf (b : Block) (e : Ev) : Nat × Bool :=
  if e.tmode = 1 then
    match targetPick b e.time.toNat with
    | some n => if n < nextRelease b then (nextRelease b, true) else (n, false)
    | none => (nextRelease b, true)
  else (nextRelease b, true)

/-- Whether a beat-time event arrives at or below the conversion frontier (R40), one that R41 holds excepted. -/
def beatLate (b : Block) (e : Ev) : Bool :=
  e.tmode == 2 && !pastLocate b e && (match b.tbu.frontier with
    | some f => decide (e.time.toNat ≤ f)
    | none => false)

/-- Enter an accepted event into the delay lists (R60). -/
def enterList (src : Nat) (seq : Option Nat) (e : Ev) (b : Block) : Block :=
  let late := (pickOf b e).2
  let entry : Timed :=
    { ev := e, src := src, seq := seq, stamp := b.efe.stamp
      frame := if e.tmode = 1 ∧ !late then some e.time.toNat else none
      beat := if e.tmode = 2 then some e.time.toNat else none
      held := pastLocate b e, late := beatLate b e }
  let b1 := { b with efe := { b.efe with delayed := b.efe.delayed ++ [entry], stamp := b.efe.stamp + 1 } }
  let n := b1.efe.delayed.length
  let b2 := b1.put EFE_PEND_peak (max (b1.get EFE_PEND_peak) n)
  if n = 16384 then b2.flag EFE_IRQ_STAT_full else b2

/-- Legacy writes that wait for context `v` of instance `i` with target pick `n` (R365). -/
def legacyCount (b : Block) (i v n : Nat) : Nat :=
  (b.efe.delayed.filter fun x => match x.ev.ext with
    | .legacy j w _ _ => j == i && w == v && (x.frame.bind (targetPick b)) == some n
    | _ => false).length

/-- Whether the pick list of a legacy write is full at 240 (R365). -/
def legacyFull (b : Block) (e : Ev) (n : Nat) : Bool :=
  match e.ext with
  | .legacy i v _ _ => 240 ≤ legacyCount b i v n
  | _ => false

/-- The acceptance tests of R62, in order; an event that passes enters the delay lists and, when voice-targeted other than KILL,
takes its unit (R59). Answers the status code. -/
def acceptEvent (src : Nat) (seq : Option Nat) (e : Ev) (b : Block) : Nat × Block :=
  if !formatOk e then (5, b)
  else if !targetOk b e then (4, b)
  else if pastLocate b e && !b.tbu.keepPast then (6, b)
  else if b.efe.delayed.length ≥ 16384 then (2, b)
  else
    let (n, late) := pickOf b e
    let h := e.index / 256
    let units := e.kind == 1 && e.op != 0x0A && e.ext == .none
    if legacyFull b e n then (3, b)
    else if units && eMax b ≤ unitsUsed b n h then (3, b)
    else
      let b1 := forwardEvent src e (enterList src seq e (if units then takeUnit n h b else b))
      (if (if e.tmode = 2 then beatLate b e else late) then 1 else 0, b1)

/-- One entry slot (R61, R62): the item that has waited longest gives its next event, which is tested and accepted or refused;
an item with no event left writes its status. -/
def eventEntry (b : Block) : Block :=
  match b.efe.waiting with
  | [] => b
  | it :: rest =>
    let (code, b1, left) := match it.evs with
      | [] => (it.code, b, [])
      | e :: es => let (c, b') := acceptEvent it.src it.seq e b; (max it.code c, noteLegacy e c b', es)
    if left ≠ [] then
      { b1 with efe := { b1.efe with waiting := { it with evs := left, code := code } :: rest } }
    else
      let b2 := { b1 with efe := { b1.efe with waiting := rest } }
      let b3 := match it.seq with
        | some n => writeStatus it.src n code it.quiet b2
        | none => b2
      -- the firmware's next event takes the room made in its queue
      match it.src, b3.efe.mpWait with
      | 9, e :: es => submitNative 9 e { b3 with efe := { b3.efe with mpWait := es } }
      | _, _ => b3

/-- A read of EFE_SRCs_STAT (R64): the oldest entry, which is removed; 0 when there is none. An entry written in the same cycle
enters after the read (R64). -/
def statusRead (src : Nat) (b : Block) : Word × Block :=
  match statusFifo b src with
  | [] => (0, b)
  | (seq, code) :: q =>
    (BitVec.ofNat 32 (seq % 65536 + code * 65536 + 2 ^ 20),
     { b with efe := { b.efe with status := FMap.set (fun _ => []) b.efe.status src q } })

/-- A read of EFE_MARK (R79): the oldest tag, which is removed; 0 when there is none. -/
def markRead (b : Block) : Word × Block :=
  match b.efe.marks with
  | [] => (0, b)
  | x :: q => (x, { b with efe := { b.efe with marks := q } })

/-! ### Channels (R70, R72, R73) -/

/-- The part bound at binding entry `i` (R72). -/
def boundPart (b : Block) (i : Nat) : Option Nat := if b.on (EFE_BIND_en i) then some (b.get (EFE_BIND_part i)) else none

/-- What a channel of a group selects: its part, and whether it is an MPE member channel (R72, R73). Channels are 0–15. -/
structure Chan where
  part : Option Nat
  member : Bool
deriving DecidableEq, Repr

/-- The channel `c` of channel group `g` (R73): a member channel takes the part of its zone's manager. -/
def chanOf (b : Block) (g c : Nat) : Chan :=
  let lower := min 14 (b.get (EFE_MPE_lower g))
  let upper := min 14 (b.get (EFE_MPE_upper g))
  if 1 ≤ c ∧ c ≤ lower then ⟨boundPart b (16 * g), true⟩
  else if c < 15 ∧ 15 ≤ c + upper then ⟨boundPart b (16 * g + 15), true⟩
  else ⟨boundPart b (16 * g + c), false⟩

/-- The note ID of a member channel (R73). -/
def memberId (c : Nat) : Nat := 0x80 + c

/-- Set the count of a zone by an MPE configuration message (R73): the other zone is reduced when they overlap. -/
def setZone (g : Nat) (isUpper : Bool) (v : Nat) (b : Block) : Block :=
  let v := min 14 v
  if isUpper then (b.put (EFE_MPE_upper g) v).put (EFE_MPE_lower g) (min (min 14 (b.get (EFE_MPE_lower g))) (14 - v))
  else (b.put (EFE_MPE_lower g) v).put (EFE_MPE_upper g) (min (min 14 (b.get (EFE_MPE_upper g))) (14 - v))

/-- A register write of EFE_MPEg (R73): the lower zone is kept and the upper one reduced. -/
def writeZones (g : Nat) (v : Word) (b : Block) : Block :=
  let lo := bitsOf v.toNat 3 0
  (b.put (EFE_MPE_lower g) lo).put (EFE_MPE_upper g) (min (bitsOf v.toNat 11 8) (14 - min 14 lo))

/-- The RPN state of a binding entry. -/
def rpnOf (b : Block) (i : Nat) : Rpn := FMap.get (fun _ => {}) b.efe.rpn i
/-- Set the RPN state of a binding entry. -/
def setRpn (i : Nat) (r : Rpn) (b : Block) : Block := { b with efe := { b.efe with rpn := FMap.set (fun _ => {}) b.efe.rpn i r } }
/-- Whether anything is selected: RPN 0x7F7F deselects (R70). -/
def Rpn.selected (r : Rpn) : Bool := r.nrpn || r.msb != 127 || r.lsb != 127

/-- What a message does: the events it maps to and the code of its refusal, 0 when it is not refused. -/
structure Msg where
  evs : List Ev := []
  code : Nat := 0

/-- A message refused with a code. -/
def Msg.reject (code : Nat) : Msg := { code := code }

/-- round((v14 − 8,192) × 25 / 8), in cents Q8.8 (R70, RPN 1). -/
def rpnFine (v : Nat) : Int := roundShr (((v : Int) - 8192) * 25) 3

/-- The data value of a selected RPN applied (R70): the message, and the block after an MPE configuration. -/
def applyRpn (g c : Nat) (ch : Chan) (r : Rpn) (b : Block) : Msg × Block :=
  match ch.part with
  | none => (.reject 4, b)
  | some part =>
    if !r.selected then ({}, b)
    else if r.nrpn ∨ r.msb ≠ 0 then (.reject 4, b)
    else match r.lsb with
      | 0 => ({ evs := [.mk' 4 0 0 part 0 (if ch.member then .pnRange r.val else .bendRange r.val)] }, b)
      | 1 => ({ evs := [.mk' 0x13 2 0 part ((BitVec.ofInt 16 (rpnFine r.val)).toNat * 65536)] }, b)
      | 2 => ({ evs := [.mk' 4 0 0 part 0 (.transpose (r.val / 128))] }, b)
      | 3 => ({ evs := [.mk' 0x13 1 0 part (r.val / 128 % 16)] }, b)
      | 5 => ({ evs := [.mk' 4 0 0 part 0 (.modRange r.val)] }, b)
      | 6 => if c = 0 ∨ c = 15 then ({}, setZone g (c == 15) (r.val / 128) b) else (.reject 4, b)
      | _ => (.reject 4, b)

/-- RPN and NRPN selection and data entry by the control changes of R70 on channel `c` of group `g`. A refused message has no
effect. -/
def rpnControl (g c cc v : Nat) (b : Block) : Msg × Block :=
  let ch := chanOf b g c
  let i := 16 * g + c
  if ch.part = none then (.reject 4, b)
  else
    let r := rpnOf b i
    let base (n : Bool) : Rpn := if r.nrpn = n then r else { nrpn := n }
    if cc = 101 then ({}, setRpn i { base false with msb := v, val := 0 } b)
    else if cc = 100 then ({}, setRpn i { base false with lsb := v, val := 0 } b)
    else if cc = 99 then ({}, setRpn i { base true with msb := v, val := 0 } b)
    else if cc = 98 then ({}, setRpn i { base true with lsb := v, val := 0 } b)
    else if !r.selected then ({}, b)
    else
      let val := if cc = 6 then v * 128 else if cc = 38 then r.val / 128 * 128 + v
        else if cc = 96 then min 0x3FFF (r.val + 1) else r.val - 1
      let r1 := { r with val := val }
      let (m, b1) := applyRpn g c ch r1 b
      if m.code ≠ 0 then (m, b) else (m, setRpn i r1 b1)

/-- A control change of a 7-bit value on channel `c` of group `g` (R68, R70, R73). -/
def controlChange (g c cc v : Nat) (b : Block) : Msg × Block :=
  let ch := chanOf b g c
  if cc = 6 ∨ cc = 38 ∨ cc = 96 ∨ cc = 97 ∨ (98 ≤ cc ∧ cc ≤ 101) then rpnControl g c cc v b
  else match ch.part with
  | none => (.reject 4, b)
  | some part =>
    if ch.member then ({ evs := [.mk' 5 0 0 part (scaleUp 7 16 v + memberId c * 65536 + cc * 2 ^ 24)] }, b)
    else match cc with
      | 0 => ({}, { b with efe := { b.efe with bank := FMap.set (fun _ => 0) b.efe.bank part (v * 128 + FMap.get (fun _ => 0) b.efe.bank part % 128) } })
      | 32 => ({}, { b with efe := { b.efe with bank := FMap.set (fun _ => 0) b.efe.bank part (FMap.get (fun _ => 0) b.efe.bank part / 128 * 128 + v) } })
      | 64 => ({ evs := [.mk' 0x12 0 0 part (scaleUp 7 16 v * 65536)] }, b)
      | 66 => ({ evs := [.mk' 0x12 0 0 part (1 + scaleUp 7 16 v * 65536)] }, b)
      | 67 => ({ evs := [.mk' 0x12 0 0 part (2 + scaleUp 7 16 v * 65536)] }, b)
      | 120 => ({ evs := [.mk' 0x0A 0 0 part 0] }, b)
      | 121 => ({ evs := [.mk' 4 0 0 part 0 .ctlDefaults] }, b)
      | 123 | 124 | 125 => ({ evs := [.mk' 0x0B 0 0 part 0] }, b)
      | 126 => ({ evs := [.mk' 4 0 0 part 0 (.mono true), .mk' 0x0B 0 0 part 0] }, b)
      | 127 => ({ evs := [.mk' 4 0 0 part 0 (.mono false), .mk' 0x0B 0 0 part 0] }, b)
      | _ => ({ evs := [.mk' 4 0 0 part (scaleUp 7 24 v + cc * 2 ^ 24)] }, b)

/-- A message of a channel that needs its part, and knows whether the channel is a member. -/
def onChan (b : Block) (g c : Nat) (f : Nat → Bool → List Ev) : Msg :=
  let ch := chanOf b g c
  match ch.part with
  | none => .reject 4
  | some part => { evs := f part ch.member }

/-- Note ID of a channel's notes: its own on a member channel, 0 elsewhere. -/
def chanId (member : Bool) (c : Nat) : Nat := if member then memberId c else 0

/-- NOTE_ON, NOTE_OFF or POLY_PRESSURE of a key. -/
def keyEv (op part key v id : Nat) (ext : EvExt := .none) : Ev := .mk' op 0 0 (key * 64 + part) (v + id * 65536) ext

/-- A note on a channel (R68, R73, R75). -/
def noteMsg (op g c key v : Nat) (ext : EvExt) (b : Block) : Msg :=
  onChan b g c fun part mem => [keyEv op part key v (chanId mem c) ext]
/-- A poly pressure (R68, R75): it names the key with note ID 0. -/
def polyMsg (g c key v : Nat) (b : Block) : Msg := onChan b g c fun part _ => [keyEv 3 part key v 0]
/-- A channel pressure (R68, R75): CONTROL 128, or POLY_PRESSURE with the channel's note ID on a member channel (R73). -/
def pressureMsg (g c v16 v24 : Nat) (b : Block) : Msg :=
  onChan b g c fun part mem => if mem then [keyEv 3 part 0 v16 (memberId c)] else [.mk' 4 0 0 part (v24 + 128 * 2 ^ 24)]
/-- A pitch bend (R68, R75): PITCH_BEND, or PN_BEND on a member channel (R73). -/
def bendMsg (g c v : Nat) (b : Block) : Msg :=
  onChan b g c fun part mem => if mem then [keyEv 7 part 0 v (memberId c)] else [.mk' 6 0 0 part v]
/-- A program change (R68, R75): bank × 128 + program; 4,096 or more is refused. -/
def programMsg (g c p : Nat) (bank : Option Nat) (b : Block) : Msg :=
  match (chanOf b g c).part with
  | none => .reject 4
  | some part =>
    let n := (bank.getD (FMap.get (fun _ => 0) b.efe.bank part)) * 128 + p
    if n ≥ 4096 then .reject 4 else { evs := [.mk' 8 0 0 part n] }

/-! ### MIDI 1.0 inputs (R66–R71) -/

/-- The time that EFE_SRCs_CFG gives an untimed item of a source whose arrival frame is `fa` (R66). -/
def arrivalTime (b : Block) (src fa : Nat) : Option Nat :=
  if b.on (EFE_SRC_CFG_timed src) then some (fa + b.get (EFE_SRC_CFG_delay src)) else none

/-- A byte has arrived on a MIDI input: an armed active-sensing timeout restarts (R71). -/
def touchSense (n t : Nat) (b : Block) : Block :=
  if FMap.get (fun _ => 0) b.efe.sense n = 0 then b
  else { b with efe := { b.efe with sense := FMap.set (fun _ => 0) b.efe.sense n (t + 1) } }

/-- The running status of a MIDI input; 0: none. -/
def setRunning (n v : Nat) (b : Block) : Block := { b with efe := { b.efe with running := FMap.set (fun _ => 0) b.efe.running n v } }

/-- A status byte has been seen since the input was enabled (R51). -/
def setSynced (n : Nat) (b : Block) : Block :=
  if n ∈ b.efe.synced then b else { b with efe := { b.efe with synced := b.efe.synced ++ [n] } }

/-- A message of source `src` that has been parsed: it takes a number and waits for an entry slot. What it does of its own (bank select,
RPN and zone state), by which `b1` has become `b2`, it does not do when its queue is full (R51, R61). -/
def submitMsg (src : Nat) (m : Msg) (time : Option Nat) (b1 b2 : Block) : Block :=
  submit src true (m.evs.map (Ev.at time)) m.code false (if queueFull b1 src m.evs.length then b1 else b2)

/-- A whole channel message of status `st` on MIDI input `n` (R66–R68): running status, the sense timer, and the item. -/
def midiChannel (n st t : Nat) (f : Block → Msg × Block) (b : Block) : Block :=
  if !srcOn b n then b
  else
    let b1 := setSynced n (setRunning n st (touchSense n t b))
    let (m, b2) := f b1
    submitMsg n m (arrivalTime b1 n b1.sample) b1 b2

/-- A system message on a MIDI input: a system common one clears running status (R67), a real-time one disturbs nothing. -/
def midiSystem (n t : Nat) (common : Bool) (evs : List Ev) (b : Block) : Block :=
  if !srcOn b n then b
  else
    let b1 := setSynced n (touchSense n t b)
    let b2 := if common then setRunning n 0 b1 else b1
    if evs = [] then b2
    else submit n true (evs.map (Ev.at (arrivalTime b2 n b2.sample))) 0 false b2

/-- LOCATE to a target beat in 24.8, keep_past 0. -/
def locateEv (data : Nat) : Ev := .mk' 0x0F 0 3 0 data
/-- TRANSPORT. -/
def transportEv (run : Nat) : Ev := .mk' 0x10 0 3 0 run

/-- 0xFE arms the timeout of an input (R71). -/
def activeSensing (n t : Nat) (b : Block) : Block :=
  if !srcOn b n then b
  else
    let b1 := setSynced n b
    { b1 with efe := { b1.efe with sense := FMap.set (fun _ => 0) b1.efe.sense n (t + 1) } }

/-- A discarded and counted item (R67). An undefined real-time byte disturbs nothing; the others clear running status. A data byte
before the first status byte of an enabled input is discarded without a count (R51). -/
def midiError (n t : Nat) (e : ParseError) (b : Block) : Block :=
  if !srcOn b n then b
  else
    let b1 := touchSense n t b
    match e with
    | .undefinedRealTime => setSynced n (b1.bump (EFE_SRC_CNT_parse n))
    | .strayData => if n ∈ b1.efe.synced then setRunning n 0 (b1.bump (EFE_SRC_CNT_parse n)) else b1
    | .framing => setRunning n 0 (b1.bump (EFE_SRC_CNT_parse n))
    | .cutMessage | .strayEox | .undefinedCommon => setRunning n 0 (setSynced n (b1.bump (EFE_SRC_CNT_parse n)))

/-- The parts bound to a MIDI input, each once, in ascending channel. -/
def partsOfInput (b : Block) (n : Nat) : List Nat :=
  (List.range 16).foldl (fun acc c => match boundPart b (16 * n + c) with
    | some p => if p ∈ acc then acc else acc ++ [p]
    | none => acc) []

/-- 300 ms without a byte after 0xFE (R71): an ALL_OFF for every part bound to the input, without numbers or status. -/
def senseTimeout (n t : Nat) (b : Block) : Block :=
  let armed := FMap.get (fun _ => 0) b.efe.sense n
  if srcOn b n ∧ b.on (EFE_MIDI_CFG_asense n) ∧ armed ≠ 0 ∧ armed - 1 + 300000000 ≤ t then
    let b1 := { b with efe := { b.efe with sense := FMap.set (fun _ => 0) b.efe.sense n 0 } }
    (partsOfInput b n).foldl (fun acc p => submit n false [(Ev.mk' 0x0B 0 0 p 0).at (arrivalTime b n b.sample)] 0 false acc) b1
  else b

/-! ### UMP (R74–R76) -/

/-- Whether a source carries UMP: enabled, with fmt = 1. -/
def umpOn (b : Block) (src : Nat) : Bool := srcOn b src && b.on (EFE_SRC_CFG_fmt src)

/-- The JR Clock of a source. -/
def jrClockOf (b : Block) (src : Nat) : Option JrClock := FMap.get (fun _ => none) b.efe.jrClock src

/-- The time of the next message of a group of a source, and the block without a used JR Timestamp (R76). -/
def umpTime (src g : Nat) (b : Block) : Option Nat × Block :=
  match FMap.get (fun _ => none) b.efe.jrTime (src * 16 + g) with
  | some t => (some t, { b with efe := { b.efe with jrTime := FMap.set (fun _ => none) b.efe.jrTime (src * 16 + g) none } })
  | none => (arrivalTime b src b.sample, b)

/-- A message of the group that writes no item uses the JR Timestamp up (R76). -/
def umpSkip (src g : Nat) (b : Block) : Block := if umpOn b src then (umpTime src g b).2 else b

/-- A UMP message of group `g` (R63, R74): it takes a number and waits for an entry slot. -/
def umpMsg (src g : Nat) (f : Block → Msg × Block) (b : Block) : Block :=
  if !umpOn b src then b
  else
    let (time, b1) := umpTime src g b
    let (m, b2) := f b1
    submitMsg src m time b1 b2

/-- A JR Clock (R76). -/
def umpJrClock (src c : Nat) (b : Block) : Block :=
  if !umpOn b src then b
  else { b with efe := { b.efe with jrClock := FMap.set (fun _ => none) b.efe.jrClock src (some ⟨b.sample, c⟩) } }

/-- A JR Timestamp (R76): t = F_a + round(((s − c) mod 65,536) × fs / 31,250) + delay; before any JR Clock it sets nothing. -/
def umpJrTimestamp (src g s : Nat) (b : Block) : Block :=
  if !umpOn b src then b
  else match jrClockOf b src with
  | none => b
  | some k =>
    let d := (s + 65536 - k.c % 65536) % 65536
    let t := k.frame + (2 * d * b.fs + 31250) / 62500 + b.get (EFE_SRC_CFG_delay src)
    { b with efe := { b.efe with jrTime := FMap.set (fun _ => none) b.efe.jrTime (src * 16 + g) (some t) } }

/-! ### GPIO bindings (R78) -/

/-- The debounce of a binding. -/
def gpioOf (b : Block) (i : Nat) : Debounce := FMap.get (fun _ => {}) b.efe.gpio i
/-- Set the debounce of a binding. -/
def setGpio (i : Nat) (d : Debounce) (b : Block) : Block := { b with efe := { b.efe with gpio := FMap.set (fun _ => {}) b.efe.gpio i d } }

/-- An edge of a GPIO pin starts the debounce of every active binding that watches it (R78); the level that it leaves has been stable
unless it was being timed. A binding that is not active times nothing. -/
def gpioEdge (pin t : Nat) (level : Bool) (b : Block) : Block :=
  (List.range 8).foldl (fun acc i =>
    let d := gpioOf acc i
    if acc.get (EFE_GPB_CFG_pin i) = pin then
      if acc.on (EFE_GPB_CFG_en i) then
        setGpio i { timing := true, level := level, t0 := t, frame := acc.sample, stable := if d.timing then d.stable else !level } acc
      else setGpio i { d with timing := false } acc
    else acc) b

/-- The template event of a binding: bytes 8–15 from two words (R78). -/
def templateEv (w0 w1 : Nat) : Ev :=
  { head := BitVec.ofNat 16 w0, target := BitVec.ofNat 16 (w0 / 65536), data := BitVec.ofNat 32 w1 }

/-- A level has held for the debounce time (R78): a change of the stable level issues the press or the release template, timed by
source 8's setup; opcode 0 means no event, and `legacy` pins issue nothing. -/
def gpioExpire (i t : Nat) (legacy : Bool) (b : Block) : Block :=
  let d := gpioOf b i
  if d.timing ∧ b.on (EFE_GPB_CFG_en i) ∧ d.t0 + b.get (EFE_GPB_CFG_debounce i) * 1000000 ≤ t then
    let b1 := setGpio i { d with timing := false, stable := d.level } b
    if d.level = d.stable ∨ legacy then b1
    else
      let press := d.level != b.on (EFE_GPB_CFG_invert i)
      let e := if press then templateEv (b.num (EFE_GPB_PRESS0 i)) (b.num (EFE_GPB_PRESS1 i))
        else templateEv (b.num (EFE_GPB_REL0 i)) (b.num (EFE_GPB_REL1 i))
      if e.op = 0 then b1
      else
        let quiet := BitVec.ofNat 16 (bitsOf e.head.toNat 7 4 * 16)
        let timed := e.at (arrivalTime b 8 d.frame)
        submitNative 8 { timed with head := timed.head ||| quiet } b1
  else b

/-! ### Release and conversion (R26, R39–R41, R61, R79) -/

/-- Whether an entry is released at pick `n`: its target pick is `n` or earlier, or it is immediate or late. A beat-time entry not
yet converted is not. -/
def dueAt (b : Block) (n : Nat) (x : Timed) : Bool :=
  match x.beat, x.frame with
  | some _, none => false
  | _, none => true
  | _, some t => match targetPick b t with | none => true | some m => m ≤ n

/-- The entry as released at pick `n` (R25, R26): its frame, and its offset in the pick. -/
def settle (b : Block) (n : Nat) (x : Timed) : Timed :=
  let base := n * b.pick + b.lOut
  match x.frame with
  | some t => if base ≤ t then { x with offset := t - base } else { x with frame := some base, offset := 0 }
  | none => { x with frame := some base, offset := 0 }

/-- Whether an opcode acts at its presentation frame: TEMPO, LOCATE, TRANSPORT, MARK. -/
def presented (op : Nat) : Bool := op == 0x0E || op == 0x0F || op == 0x10 || op == 0x11

/-- The order of released events (R61): by frame, then by entry. -/
def earlier (x y : Timed) : Bool :=
  decide (x.frame.getD 0 < y.frame.getD 0) || (x.frame == y.frame && decide (x.stamp ≤ y.stamp))

/-- Release pick `n` (R17 step 1, R26): due entries leave the delay lists in the order of R61. -/
def releasePick (n : Nat) (b : Block) : Block :=
  let due := sortBy earlier ((b.efe.delayed.filter (dueAt b n)).map (settle b n))
  { b with efe := { b.efe with
    delayed := b.efe.delayed.filter fun x => !dueAt b n x
    released := b.efe.released ++ due.filter fun x => !presented x.ev.op
    present := sortBy earlier (b.efe.present ++ due.filter fun x => presented x.ev.op) } }

/-- The front released event when it has the opcode `op`, and the block without it. -/
def takeReleased (op : Nat) (b : Block) : Option (Timed × Block) :=
  match b.efe.released with
  | [] => none
  | x :: rest => if x.ev.op = op then some (x, { b with efe := { b.efe with released := rest } }) else none

/-- The front presented event when it has the opcode `op` and its frame has been presented. -/
def takePresented (op : Nat) (b : Block) : Option (Timed × Block) :=
  match b.efe.present with
  | [] => none
  | x :: rest =>
    if x.ev.op = op ∧ x.frame.getD 0 ≤ b.sample then some (x, { b with efe := { b.efe with present := rest } }) else none

/-- A MARK presented (R79): its tag enters the 16-entry FIFO, or is lost and counted. -/
def mark (tag : Word) (b : Block) : Block :=
  if b.efe.marks.length ≥ 16 then (b.bump EFE_MARK_STAT_ovf).flag EFE_IRQ_STAT_mark_ovf
  else ({ b with efe := { b.efe with marks := b.efe.marks ++ [tag] } }).flag EFE_IRQ_STAT_mark

end Sys2Proof.Machine
end

