-- ==== Sys2Proof/Machine/Tbu.lean ====
section
/-! DEFINITION. The time base unit (chapter 02): counters, reference measurement, the tempo loop, compares, captures, timers. The
reference edge itself starts picks and stands in Reference.lean. -/

namespace Sys2Proof.Machine

/-! ### Cycle time and timers (R27, R47, R48) -/

/-- Whether timer `n` ticks on the tick source `src` (R47): it is enabled, its tick field names the source, and it is not chained
(an odd timer's chain bit makes it tick on its partner's underflow, R48). -/
def timerOn (b : Block) (n src : Nat) : Bool :=
  b.on (TBU_TMR_CFG_en n) && b.get (TBU_TMR_CFG_tick n) == src && !(n % 2 == 1 && b.on (TBU_TMR_CFG_chain n))

/-- Whether timer `n` is the low half of a chained pair, which counts as one 64-bit timer (R48). -/
def timerPaired (b : Block) (n : Nat) : Bool :=
  n % 2 == 0 && b.on (TBU_TMR_CFG_chain (n + 1)) && b.on (TBU_TMR_CFG_en (n + 1))

/-- The underflow of timer `n` is due. -/
def timerDue (n : Nat) (b : Block) : Block := { b with tbu := { b.tbu with tmrDue := addNew n b.tbu.tmrDue } }

/-- `k` ticks reach timer `n`: it counts down to 0, and a tick after that makes its underflow due (R47). The low half of a chained pair
counts the pair down, whose underflow is the odd timer's (R48). -/
def timerTick (b : Block) (n k : Nat) : Block :=
  if timerPaired b n then
    let c := b.num (TBU_TMR_VAL n) + 2 ^ 32 * b.num (TBU_TMR_VAL (n + 1))
    let b1 := (b.setNum (TBU_TMR_VAL n) ((c - k) % 2 ^ 32)).setNum (TBU_TMR_VAL (n + 1)) ((c - k) / 2 ^ 32)
    if c < k then timerDue (n + 1) b1 else b1
  else
    let c := b.num (TBU_TMR_VAL n)
    let b1 := b.setNum (TBU_TMR_VAL n) (c - k)
    if c < k then timerDue n b1 else b1

/-- `k` ticks of the source `src` reach every timer that takes it. -/
def tickTimers (b : Block) (src k : Nat) : Block :=
  if k = 0 then b else
  (List.range 8).foldl (fun acc n => if timerOn acc n src then timerTick acc n k else acc) b

/-- `d` cycles pass at the shuttles (R95, R107, R226, R227): the fence counters of cards and of fault handlers run, and the cycles not
spent in DRAW count as busy. -/
def shuttlesRun (d : Nat) (b : Block) : Block :=
  ((List.range 160).filter fun s => b.get (SHT_SSTAT_state s) != 0).foldl (fun acc s =>
    let sh := FMap.get (fun _ => {}) acc.sht s
    let st := acc.dlr.stats
    let busy := FMap.set (fun _ => 0) st.busyNow s (FMap.get (fun _ => 0) st.busyNow s + d)
    let runs := (b.get (SHT_SSTAT_state s) == 1 && sh.done.isNone) || b.get (SHT_SSTAT_state s) == 2
    { acc with
      dlr := { acc.dlr with stats := { st with busyNow := busy } }
      sht := if runs then FMap.set (fun _ => {}) acc.sht s { sh with fence := sh.fence - d } else acc.sht }) b

/-- The cycles from `last` to `t`, both CYCLE_CNT values; CYCLE_CNT wraps (R27), and a time more than half its range ahead is one that
has passed: none. -/
def since (last t : Nat) : Nat :=
  let d := (t + 2 ^ 64 - last) % 2 ^ 64
  if d < 2 ^ 63 then d else 0

/-- CYCLE_CNT advances to `t` (R27): the cycle-ticked timers and the shuttles count the cycles passed. A time not after CYCLE_CNT
changes nothing. -/
def advanceTo (t : Nat) (b : Block) : Block :=
  let d := since b.now t
  if d = 0 then b else shuttlesRun d (tickTimers (b.setNum TBU_CYCLE ((b.now + d) % 2 ^ 64)) 0 d)

/-- Timer `n` at its underflow: it reloads or stops, by `mode`. -/
def timerRestart (mode : Bool) (n : Nat) (b : Block) : Block :=
  if mode then b.setNum (TBU_TMR_VAL n) (b.num (TBU_TMR_RLD n)) else b.put (TBU_TMR_CFG_en n) 0

/-- The underflow of timer `n` (R47): its interrupt bit is set, and it reloads or stops. At the underflow of a chained pair, which is
the odd timer's, both halves do by its mode (R48). -/
def timerUnderflow (n : Nat) (b : Block) : Block :=
  if n ∈ b.tbu.tmrDue ∧ b.on (TBU_TMR_CFG_en n) then
    let b1 := { b with tbu := { b.tbu with tmrDue := b.tbu.tmrDue.filter (· != n) } }
    let mode := b1.on (TBU_TMR_CFG_mode n)
    let b2 := timerRestart mode n (b1.setBit TBU_IRQ_STAT_tmr n)
    if n % 2 = 1 ∧ timerPaired b (n - 1) then timerRestart mode (n - 1) b2 else b2
  else b

/-- TBU_TMRn_RLD is written (R47): with en = 0 the count is loaded too. -/
def timerReload (n : Nat) (v : Word) (b : Block) : Block :=
  let b1 := b.setNum (TBU_TMR_RLD n) v.toNat
  if b.on (TBU_TMR_CFG_en n) then b1 else b1.setNum (TBU_TMR_VAL n) v.toNat

/-- Picks are to stop: the pick that starts at the next boundary is rendered with a fade to silence and is the last (R29, R30, R417). -/
def askStop (b : Block) : Block :=
  if b.tbu.running ∧ b.tbu.stopAfter = none then { b with tbu := { b.tbu with stopAfter := some (b.pickNo + 1) } } else b

/-! ### Reference measurement (R30, R32, R33) -/

/-- The nominal frame rate that decides what a glitch is: that of the rate in force; 192 kHz in DETECT and while TBU_REF_CFG.rate
holds a reserved code (R30). -/
def nominalFs (b : Block) : Nat :=
  if b.get TBU_REF_STAT_state = 5 ∨ 6 ≤ b.get TBU_REF_CFG_rate then 192000 else fsHz b.tbu.sel.rate

/-- Whether the mean of `n` intervals that sum to `sum` ns lies within ±0.5 % of the rate `fs` (R30, R33). -/
def within (fs n sum : Nat) : Bool :=
  decide (199 * sum * fs ≤ 200 * n * 1000000000) && decide (200 * n * 1000000000 ≤ 201 * sum * fs)

/-- The rate code whose rate the last 64 intervals match (R33). -/
def detect (hist : List Nat) : Option Nat :=
  if hist.length < 64 then none
  else (List.range 6).find? fun c => within (fsHz c) 64 (sumNat (hist.take 64))

/-- Whether the last 16 intervals lie outside ±0.5 % of the nominal rate; a reserved rate code matches no edge (R30, R33). -/
def rateBad (b : Block) : Bool :=
  if b.tbu.sel.rate ≥ 6 then true
  else b.tbu.hist.length ≥ 16 && !within (fsHz b.tbu.sel.rate) 16 (sumNat (b.tbu.hist.take 16))

/-- The measured frame period in ns, as a fraction (sum of intervals, their number): the last 256 intervals or as many as there
are; the nominal period before any. -/
def period (b : Block) : Nat × Nat :=
  match b.tbu.hist with
  | [] => (1000000000, b.fs)
  | h => (sumNat h, h.length)

/-- TBU_REF_RATE, in mHz, once 256 intervals have been measured; 0 in NONE. -/
def measure (b : Block) : Block :=
  if b.tbu.hist.length < 256 then b
  else b.setNum TBU_REF_RATE (256 * 1000000000000 / sumNat b.tbu.hist)

/-- d_rate × 1024 at a pick boundary (R32): min(1, 1.0002 × f_nom / f_meas), rounded down; 1024 until a rate has been
measured. -/
def updateDRate (b : Block) : Block :=
  if b.tbu.hist.length < 256 then b
  else b.put TBU_REF_STAT_d_rate (min 1024 (1024 * 10002 * b.fs * sumNat b.tbu.hist / (10000 * 256 * 1000000000)))

/-! ### The beat (R28, R34–R38) -/

/-- Whether the tempo source is the internal tempo: src 0 and the reserved codes (R34). -/
def internalTempo (b : Block) : Bool := b.get TBU_TEMPO_CFG_src == 0 || b.get TBU_TEMPO_CFG_src ≥ 4
/-- The clamp of TBU_TEMPO, a Q16.16 (R9), to 20–400 BPM (R35). -/
def clampTempo (v : Word) : Nat := (min (max v.toInt (20 * 65536)) (400 * 65536)).toNat
/-- A tempo in BPM 16.16 as a rate in 0.64 beats per frame (R34). -/
def rateOfTempo (bpm fs : Nat) : Nat := bpm * 2 ^ 48 / (60 * fs)
/-- A rate as BPM in 13.16, TBU_TEMPO_TRK.bpm. -/
def tempoOfRate (rho fs : Nat) : Nat := min (2 ^ 29 - 1) (rho * 60 * fs / 2 ^ 48)
/-- The rate BEAT_POS advances at (R27, R34, R36, R38): the internal tempo while run = 1; the loop's ρ in ACQUIRE and TRACKING; none
while the tempo is stopped or held. -/
def beatRate (b : Block) : Nat :=
  if internalTempo b then (if b.on TBU_TEMPO_CFG_run then rateOfTempo (b.num TBU_TEMPO) b.fs else 0)
  else if b.get TBU_TEMPO_TRK_state = 1 ∨ b.get TBU_TEMPO_TRK_state = 2 then b.tbu.rho else 0
/-- A phase in 40.24, to the nearest (notes/assumptions). -/
def roundBeat (phase : Nat) : Nat := (phase + 2 ^ 39) / 2 ^ 40
/-- A phase bounded by the clamp, which is kept by the tracking sources only (R36); what lies past it stays. -/
def boundPhase (b : Block) (phase : Nat) : Nat :=
  match (if internalTempo b then none else b.tbu.clamp) with
  | none => phase
  | some c => max b.tbu.phase (min phase c)
/-- The phase `n` · 2^-24 frame after the frame presented (R36), bounded by the clamp: it stands at `sub` within that frame. -/
def phaseAt (b : Block) (n : Nat) : Nat := boundPhase b (b.tbu.phase + beatRate b * (n - b.tbu.sub) / 2 ^ 24)
/-- β(f) for a frame `d` frames after the one presented, 40.24, bounded by the clamp (R39). -/
def betaAt (b : Block) (d : Nat) : Nat := roundBeat (phaseAt b (d * 2 ^ 24))
/-- Pulses per quarter note that act: 1–960, other values as 24. -/
def ppqnOf (v : Nat) : Nat := if 1 ≤ v ∧ v ≤ 960 then v else 24
/-- TEMPO_OUT at a frame in which BEAT_POS moves from `old` to `new` (R42): high for width frames when it reaches or passes a
multiple of 1/ppqn; otherwise its remaining frames run out; low while disabled. -/
def tempoOut (b : Block) (hit : Bool) : Block :=
  let left :=
    if !b.on TBU_TOUT_CFG_en then 0
    else if hit then max 1 (b.get TBU_TOUT_CFG_width)
    else b.tbu.toutLeft - 1
  { b with tbu := { b.tbu with toutLeft := left } }
/-- Whether a multiple of 1/ppqn lies in (old, new] (R42). -/
def crossesPulse (b : Block) (old new : Nat) : Bool :=
  old * ppqnOf (b.get TBU_TOUT_CFG_ppqn) / 2 ^ 24 < new * ppqnOf (b.get TBU_TOUT_CFG_ppqn) / 2 ^ 24
/-- BEAT_POS advances by `k` frames (R28): never backwards. -/
def advanceBeat (k : Nat) (b : Block) : Block :=
  let old := b.num TBU_BEAT
  let phase := phaseAt b (k * 2 ^ 24)
  let new := max old (roundBeat phase)
  -- BEAT_POS and the phase wrap together (R27)
  let b1 := { b with tbu := { b.tbu with phase := phase % 2 ^ 104, sub := 0 } }
  tempoOut (b1.setNum TBU_BEAT (new % 2 ^ 64)) (crossesPulse b old new)

/-- The slew limit (R36): `new` no further from `old` than slew/1024 of it. -/
def slewLimit (b : Block) (old : Nat) (new : Int) : Nat :=
  let d := old * max 1 (b.get TBU_TEMPO_CFG_slew) / 1024
  (max (max new ((old : Int) - d)) 0 |> fun x => min x ((old : Int) + d)).toNat

/-- ρ_i or ρ with a loop gain 2^-g applied to the error `num`/Δ (R36): r × (1 + K × e), exact before the floor. -/
def gainBy (r : Nat) (num : Int) (delta g : Nat) : Int :=
  if delta = 0 then r else ((r : Int) * ((delta * 2 ^ g : Nat) + num)) / ((delta * 2 ^ g : Nat) : Int)

/-- log2 of 1/Kp and of 1/Ki for TBU_TEMPO_CFG.bw (R36). -/
def loopGains (bw : Nat) : Nat × Nat := (2 + bw, 5 + 2 * bw)

/-- The fractional presentation frame φ (64.24) of a time `t` between the frame edge presented last and the edge `next` that
follows it (R36); none when the two do not enclose it or SAMPLE_CNT holds (R38). -/
def phiOf (b : Block) (t next : Nat) : Option Nat :=
  let st := b.get TBU_REF_STAT_state
  let d := since b.tbu.frameT t
  if (st = 1 ∨ st = 2) ∧ b.tbu.running ∧ (d ≠ 0 ∨ t = b.tbu.frameT) ∧ d < since b.tbu.frameT next then
    some (b.sample * 2 ^ 24 + d * 2 ^ 24 / since b.tbu.frameT next)
  else none

/-- An anomaly is one more in a row; three in a row declare a rate change (R37): it is counted, and the target of ρ_i becomes Δ
divided by the interval between the last two edges. -/
def anomaly (delta interval : Nat) (b : Block) : Block :=
  let n := b.tbu.anomalies + 1
  if n < 3 then { b with tbu := { b.tbu with anomalies := n } }
  else
    let b1 := (b.bump TBU_TEMPO_CNT_ratechg).flag TBU_EVT_STAT_tempo_rate
    { b1 with tbu := { b1.tbu with anomalies := 0, target := some (if interval = 0 then 0 else delta * 2 ^ 24 / interval) } }

/-- BEAT_POS at the edge at `phi`, which lies in the frame presented, with its sub-frame phase; it advances from there on. -/
def anchorBeat (phi : Nat) (b : Block) : Block :=
  let sub := phi - b.sample * 2 ^ 24
  { b with tbu := { b.tbu with phase := phaseAt b sub, sub := max b.tbu.sub sub } }

/-- The first edge accepted in STOPPED or HOLD (R38): it carries the beat value BEAT_POS, ρ_i is seeded from the last tracked tempo
or TBU_TEMPO, and the state becomes ACQUIRE. BEAT_POS advances from that edge on. -/
def firstEdge (phi delta : Nat) (b : Block) : Block :=
  let seed := rateOfTempo (if b.tbu.tracked then b.get TBU_TEMPO_TRK_bpm else b.num TBU_TEMPO) b.fs
  let b0 := anchorBeat phi b
  let bk := b0.tbu.phase
  let b1 := b0.put TBU_TEMPO_TRK_state 1
  tickTimers { b1 with tbu := { b1.tbu with
    rhoI := seed, rho := seed, lastB := bk, freeB := bk, freePhi := phi, clamp := some (bk + delta), lastPhi := phi,
    anyPhi := phi, delta := delta, anomalies := 0, target := none, rebase := false } } 3 1

/-- A later accepted edge (R36, R37): the loop's update. -/
def trackEdge (phi delta : Nat) (marker : Option Nat) (b : Block) : Block :=
  let u := b.tbu
  let b0 := anchorBeat phi b
  -- β(φ): BEAT_POS at the last accepted edge or LOCATE, extrapolated at ρ; not bounded by the clamp
  let beta := u.freeB + u.rho * (phi - u.freePhi) / 2 ^ 24
  -- the edge after a LOCATE carries BEAT_POS (R41), a marker its own value, a pulse the next
  let bk : Nat := if u.rebase then b0.tbu.phase else match marker with
    | some v => v * 2 ^ 40
    | none => u.lastB + delta
  let num : Int := if u.rebase then 0 else (bk : Int) - beta
  let (kp, ki) := loopGains (b.get TBU_TEMPO_CFG_bw)
  let rhoI := match u.target with
    | some tg => slewLimit b u.rhoI tg
    | none => slewLimit b u.rhoI (gainBy u.rhoI num delta ki)
  let target := if u.target = some rhoI then none else u.target
  let rho := slewLimit b u.rho (gainBy rhoI num delta kp)
  let b1 := (b0.put TBU_TEMPO_TRK_state 2).put TBU_TEMPO_TRK_bpm (tempoOfRate rhoI b.fs)
  tickTimers { b1 with tbu := { b1.tbu with
    rhoI := rhoI, rho := rho, target := target, lastB := bk, freeB := b0.tbu.phase, freePhi := phi, clamp := some (bk + delta), lastPhi := phi, anyPhi := phi,
    delta := delta, tracked := true, rebase := false } } 3 1

/-- A tempo edge at φ with the pulse value `delta` (2^-64 beat) and, from the weft, its own beat value (R36–R38). -/
def tempoPulse (phi delta : Nat) (marker : Option Nat) (b : Block) : Block :=
  let st := b.get TBU_TEMPO_TRK_state
  if st = 0 ∨ st = 3 then firstEdge phi delta b
  else
    let u := b.tbu
    let d := phi - u.lastPhi
    let gap := phi - u.anyPhi
    let early (num den : Nat) : Bool := u.rhoI != 0 && decide (d * den * u.rhoI < num * delta * 2 ^ 24)
    if early 1 2 then
      let b1 := anomaly delta gap (b.bump TBU_TEMPO_CNT_rejected)
      { b1 with tbu := { b1.tbu with anyPhi := phi } }
    else
      let odd := early 3 4 || (u.rhoI != 0 && decide (5 * delta * 2 ^ 24 < d * 4 * u.rhoI))
      let b1 := if odd then anomaly delta gap b else { b with tbu := { b.tbu with anomalies := 0 } }
      trackEdge phi delta marker b1

/-- The pulse value of TEMPO_IN (src 1), 1/ppqn beat, and of MIDI clock (src 2), 1/24 beat, in units of 2^-64 beat (R34). -/
def pulseValue (b : Block) (src : Nat) : Nat :=
  if src = 1 then 2 ^ 64 / ppqnOf (b.get TBU_TEMPO_CFG_ppqn) else 2 ^ 64 / 24

/-- A tempo edge of the source `src` at `t` (R34, R36): it acts when TBU_TEMPO_CFG selects the source and frame edges enclose
it. -/
def tempoEdge (src t next : Nat) (marker : Option Nat) (delta : Nat) (b : Block) : Block :=
  if b.get TBU_TEMPO_CFG_src = src then
    match phiOf b t next with
    | some phi => tempoPulse phi delta marker b
    | none => b
  else b

/-- Tracking enters HOLD (R38). -/
def tempoHold (b : Block) : Block :=
  let st := b.get TBU_TEMPO_TRK_state
  if st = 1 ∨ st = 2 then (b.put TBU_TEMPO_TRK_state 3).flag TBU_EVT_STAT_tempo_hold else b

/-- No edge within tmo/8 of the expected interval Δ/ρ_i (R38), counted in presented frames. -/
def tempoTimeout (b : Block) : Block :=
  let u := b.tbu
  let tmo := let v := b.get TBU_TEMPO_CFG_tmo; if v ≤ 8 then 12 else v
  if !internalTempo b ∧ u.rhoI ≠ 0 ∧ tmo * u.delta * 2 ^ 24 ≤ (b.sample * 2 ^ 24 - u.lastPhi) * 8 * u.rhoI then tempoHold b
  else b

/-- TBU_TEMPO is written, by a register write or a TEMPO event: clamped (R35). -/
def writeTempo (v : Word) (b : Block) : Block := b.setNum TBU_TEMPO (clampTempo v)

/-- TBU_TEMPO_CFG is written (R34): a reserved src sets cfg_err; a change of the source stops the tracking of the old one. -/
def writeTempoCfg (v : Word) (b : Block) : Block :=
  let old := b.get TBU_TEMPO_CFG_src
  let b1 := b.setNum TBU_TEMPO_CFG v.toNat
  let new := b1.get TBU_TEMPO_CFG_src
  let b2 := b1.put TBU_TEMPO_TRK_cfg_err (if new ≥ 4 then 1 else 0)
  if new = old then b2
  else
    let b3 := b2.put TBU_TEMPO_TRK_state 0
    { b3 with tbu := { b3.tbu with phase := b3.num TBU_BEAT * 2 ^ 40, sub := 0, clamp := none, anomalies := 0, target := none } }

/-! ### Compares (R43, R44) -/

/-- The value of the counter a compare or capture selects: 0 CYCLE_CNT, 1 SAMPLE_CNT, 2 PICK_CNT, 3 BEAT_POS. -/
def counterOf (b : Block) (sel : Nat) : Long :=
  match sel with
  | 0 => b.rd TBU_CYCLE
  | 1 => b.rd TBU_SAMPLE
  | 2 => b.rd TBU_PICK
  | _ => b.rd TBU_BEAT

/-- An armed compare whose counter has reached its value fires: its interrupt bit is set and it disarms (R43). -/
def compareFire (n : Nat) (b : Block) : Block :=
  if b.on (TBU_CMP_CFG_armed n) ∧ b.rd (TBU_CMP_VAL n) ≤ counterOf b (b.get (TBU_CMP_CFG_cnt n)) then
    (b.setBit TBU_IRQ_STAT_cmp n).put (TBU_CMP_CFG_armed n) 0
  else b

/-- A write of the whole value of compare `n` arms it (R43); a value the armed unit has just reached fires first (R44). A counter
already at or beyond the new value sets past and leaves the unit disarmed. -/
def compareArm (n : Nat) (v : Long) (b : Block) : Block :=
  let b1 := (compareFire n b).wr (TBU_CMP_VAL n) v
  if v ≤ counterOf b1 (b1.get (TBU_CMP_CFG_cnt n)) then (b1.setBit TBU_CMP_STAT_past n).put (TBU_CMP_CFG_armed n) 0
  else b1.put (TBU_CMP_CFG_armed n) 1

/-- A write of TBU_CMPn_CFG selects the counter and disarms the unit. -/
def compareCfg (n : Nat) (v : Word) (b : Block) : Block :=
  (b.put (TBU_CMP_CFG_cnt n) (v.toNat % 4)).put (TBU_CMP_CFG_armed n) 0

/-- A LOCATE from `old` to `new` skips an armed BEAT_POS compare whose value it passes (R44). -/
def compareSkip (old new : Long) (b : Block) : Block :=
  (List.range 16).foldl (fun acc n =>
    if acc.on (TBU_CMP_CFG_armed n) ∧ acc.get (TBU_CMP_CFG_cnt n) = 3 ∧ old < acc.rd (TBU_CMP_VAL n) ∧ acc.rd (TBU_CMP_VAL n) ≤ new then
      (acc.setBit TBU_CMP_STAT_skipped n).put (TBU_CMP_CFG_armed n) 0
    else acc) b

/-! ### Captures (R45, R46) -/

/-- The pending buffer of a capture. -/
def capPending (b : Block) (n : Nat) : Long := FMap.get (fun _ => 0) b.tbu.capPend n
/-- Set the pending buffer of a capture. -/
def setCapPending (n : Nat) (v : Long) (b : Block) : Block :=
  { b with tbu := { b.tbu with capPend := FMap.set (fun _ => 0) b.tbu.capPend n v } }

/-- Whether capture `n` has a source: kind 1, kind 2 with GPIO 0–23, kind 3 with SAP 0–7 or the weft marker. -/
def captureHasSource (b : Block) (n : Nat) : Bool :=
  match b.get (TBU_CAP_CFG_kind n) with
  | 0 => false
  | 1 => true
  | 2 => b.get (TBU_CAP_CFG_sel n) < 24
  | _ => b.get (TBU_CAP_CFG_sel n) ≤ 8

/-- A capture of the value `x`: into TBU_CAPn_VAL when it is empty, else into the pending buffer, else in place of the pending
value with the overrun counted (R45, R46). -/
def captureValue (n : Nat) (x : Long) (b : Block) : Block :=
  if !b.on (TBU_CAP_STAT_full n) then
    ((b.wr (TBU_CAP_VAL n) x).put (TBU_CAP_STAT_full n) 1).setBit TBU_IRQ_STAT_cap n
  else if !b.on (TBU_CAP_STAT_pend n) then (setCapPending n x b).put (TBU_CAP_STAT_pend n) 1
  else (setCapPending n x b).bump (TBU_CAP_STAT_overrun n)

/-- An active edge of the source of capture `n` (R45). -/
def captureEdge (n : Nat) (b : Block) : Block :=
  if captureHasSource b n then captureValue n (counterOf b (b.get (TBU_CAP_CFG_cnt n))) b else b

/-- A read of TBU_CAPn_VAL_LO empties TBU_CAPn_VAL, and a full pending buffer moves into it (R45). -/
def captureTake (n : Nat) (b : Block) : Block :=
  if b.on (TBU_CAP_STAT_pend n) then
    let b1 := ((b.wr (TBU_CAP_VAL n) (capPending b n)).put (TBU_CAP_STAT_full n) 1).put (TBU_CAP_STAT_pend n) 0
    (setCapPending n 0 b1).setBit TBU_IRQ_STAT_cap n
  else (b.wr (TBU_CAP_VAL n) (Config.capAfterRead n (b.rd (TBU_CAP_VAL n)))).put (TBU_CAP_STAT_full n) 0

/-- A capture in the cycle of a read (R46): the read takes the old value and the capture goes to pending, behind a pending value that
moves in. -/
def captureTakeWith (n : Nat) (x : Long) (b : Block) : Block :=
  (setCapPending n x (captureTake n b)).put (TBU_CAP_STAT_pend n) 1

/-- The tempo that times in beats convert at (R38, R192, R263), in BPM 16.16: the internal tempo, or the tracked one. -/
def tempoNow (b : Block) : Nat :=
  if internalTempo b || !b.tbu.tracked then b.num TBU_TEMPO else b.get TBU_TEMPO_TRK_bpm

end Sys2Proof.Machine
end

