-- ==== Sys2Proof/Machine/Beat.lean ====
section
/-! DEFINITION. From beats to frames (R39–R41) and the events that act at their presentation frame (R35, R41, R79). -/

namespace Sys2Proof.Machine

/-- The conversion of one pending beat-time event at the start of pick `m` (R39): the first frame of the window of pick m + 1 at
which β reaches its beat. -/
def convertOne (b : Block) (f0 : Nat) (x : Timed) : Timed :=
  match x.beat, x.frame, x.held with
  | some beat, none, false =>
    let d0 := f0 - b.sample
    -- accepted at or below the frontier (R40)
    if x.late then { x with frame := some f0 }
    else if betaAt b (d0 + b.pick - 1) < beat then x
    else
      let k := ((List.range b.pick).find? fun i => beat ≤ betaAt b (d0 + i)).getD 0
      { x with frame := some (f0 + k) }
  | _, _, _ => x

/-- At the start of pick `m` the beat-time events for pick m + 1 move to the sample-time list, and the frontier moves (R39,
R40). -/
def convertBeats (m : Nat) (b : Block) : Block :=
  let f0 := (m + 1) * b.pick + b.lOut
  { b with
    efe := { b.efe with delayed := b.efe.delayed.map (convertOne b f0) }
    tbu := { b.tbu with frontier := some (betaAt b (f0 - b.sample + b.pick - 1)) } }

/-- A pending beat-time event at a LOCATE to `target` (R41): one below the target is held with keep_past, else discarded; the
others are ordinary pending events. -/
def locateOne (target : Nat) (keep : Bool) (x : Timed) : Option Timed :=
  match x.beat, x.frame with
  | some beat, none => if beat < target then (if keep then some { x with held := true, late := false } else none)
    else some { x with held := false }
  | _, _ => some x

/-- A LOCATE takes effect (R41, R44): `target` in 40.24. -/
def locate (target : Nat) (keep : Bool) (b : Block) : Block :=
  let old := b.rd TBU_BEAT
  let left := b.efe.delayed.filterMap (locateOne target keep)
  let b1 := { b with efe := { b.efe with delayed := left } }
  let b2 := b1.bump TBU_TEMPO_CNT_discarded (b.efe.delayed.length - left.length)
  let b3 := ((b2.setNum TBU_BEAT target).setNum TBU_LOC_TGT target).flag TBU_EVT_STAT_locate
  let b4 := { b3 with tbu := { b3.tbu with
    phase := target * 2 ^ 40, sub := 0, freeB := target * 2 ^ 40, freePhi := b.sample * 2 ^ 24, clamp := none, rebase := true, frontier := none, located := true, keepPast := keep } }
  let ppqn := ppqnOf (b.get TBU_TOUT_CFG_ppqn)
  let b5 := if b.tbu.running ∧ target * ppqn % 2 ^ 24 < ppqn then tempoOut b4 true else b4
  compareSkip old (BitVec.ofNat 64 target) b5

/-- A presented LOCATE: its data is a beat in 24.8, oflags[0] keep_past (R55). -/
def locateEvent (b : Block) : Block :=
  match takePresented 0x0F b with
  | some (x, b1) => locate (x.ev.data.toNat * 65536) (x.ev.oflags % 2 == 1) b1
  | none => b

/-- A presented TEMPO writes TBU_TEMPO (R35). -/
def tempoEvent (b : Block) : Block :=
  match takePresented 0x0E b with
  | some (x, b1) => writeTempo x.ev.data b1
  | none => b

/-- A presented TRANSPORT sets or clears TBU_TEMPO_CFG.run (R35). -/
def transportEvent (b : Block) : Block :=
  match takePresented 0x10 b with
  | some (x, b1) => b1.put TBU_TEMPO_CFG_run (x.ev.data.toNat % 2)
  | none => b

/-- A presented MARK (R79). -/
def markEvent (b : Block) : Block :=
  match takePresented 0x11 b with
  | some (x, b1) => mark x.ev.data b1
  | none => b

end Sys2Proof.Machine
end

