-- ==== Sys2Proof/Machine/VParam.lean ====
section
/-! DEFINITION. The voice parameter block (chapters 06, 07): its live and staged fields with their ranges (R145, R146, R150, R168,
R173), and the validation of a template (R170, R173, R204). -/

namespace Sys2Proof.Machine

/-- A live halfword: the bits that are kept, whether it is signed (8 or 16 bits wide), and its range. -/
structure Live where
  mask : Nat := 0xFFFF
  signed : Bool := false
  lo : Int := 0
  hi : Int := 65535
deriving DecidableEq, Repr

/-- What a PARAM to a halfword does (R145). -/
inductive ApplyCode where
  | live (f : Live)
  | staged
  | fixed
deriving DecidableEq, Repr

/-- An unsigned live halfword of a range. -/
def Live.u (lo hi : Int) : ApplyCode := .live { lo := lo, hi := hi }
/-- A signed live halfword of a range. -/
def Live.s (lo hi : Int) : ApplyCode := .live { signed := true, lo := lo, hi := hi }
/-- A signed live halfword of any value. -/
def Live.any16 : ApplyCode := .live { signed := true, lo := -32768, hi := 32767 }
/-- An unsigned live halfword of any value. -/
def Live.anyU : ApplyCode := .live {}

/-- The common part of a source block (R150), at offset `o` in the block. -/
def commonApply (o : Nat) : ApplyCode :=
  match o with
  | 0x02 => Live.s (-48) 48
  | 0x04 => Live.s (-25600) 25600
  | 0x06 | 0x08 => Live.any16
  | 0x0A => Live.anyU
  | _ => .fixed

/-- The type-dependent part of a source block, at offset `o` in the block: SAMPLE, WAVE, VA, FM, INPUT. -/
def sourceApply (type o : Nat) : ApplyCode :=
  if o < 0x10 then commonApply o
  else match type with
    | 1 => if o = 0x18 ∨ (0x1C ≤ o ∧ o < 0x24) then .staged else .fixed
    | 2 => if o = 0x12 then Live.anyU else .fixed
    | 3 => if o = 0x12 then Live.u 0x0200 0xFE00 else .fixed
    | 4 =>
      if 0x18 ≤ o ∧ o < 0x58 then
        match (o - 0x18) % 16 with
        | 0 => Live.u 0x0010 0xFFFF
        | 2 | 4 | 6 => Live.any16
        | 10 => Live.anyU
        | _ => .fixed
      else .fixed
    | 6 => if o = 0x10 then .live { mask := 0xFF, hi := 127 } else .fixed
    | _ => .fixed

/-- The ORGAN area (R168), at block offset `o` from 0x040 to 0x0FF. -/
def organApply (o : Nat) : ApplyCode :=
  if o < 0x50 then commonApply (o - 0x40)
  else if o < 0xD0 then
    match (o - 0x50) % 8 with
    | 0 => Live.anyU
    | 2 | 4 => Live.any16
    | _ => .fixed
  else if o = 0xD2 ∨ o = 0xD6 then Live.any16
  else if o = 0xD4 then Live.anyU
  else .fixed

/-- A filter block, at offset `o` in it. -/
def filterApply (o : Nat) : ApplyCode :=
  match o with
  | 0x04 => Live.u 0 0x9600
  | 0x06 => Live.any16
  | 0x08 => Live.anyU
  | 0x0A => Live.s 0x0800 0x7FFF
  | 0x0C => Live.u 0x1000 0xFFFF
  | _ =>
    if 0x10 ≤ o ∧ o < 0x28 then
      match (o - 0x10) % 8 with
      | 0 => Live.u 0 0x9600
      | 2 => Live.u 0x0140 0x7D00
      | 4 => Live.any16
      | _ => .fixed
    else .fixed

/-- Envelope `e`, at offset `o` in its record; `segs` is its segments in use. The levels of envelope 0's segments are at or above 0,
and its last one is 0. -/
def envApply (e segs o : Nat) : ApplyCode :=
  if 0x10 ≤ o then
    let i := (o - 0x10) / 6
    match (o - 0x10) % 6 with
    | 0 => if e = 0 ∧ i + 1 = segs then Live.s 0 0 else if e = 0 ∧ i < segs then Live.s 0 32767 else Live.any16
    | 2 => Live.anyU
    | _ => .live { mask := 0xFF, signed := true, lo := -8, hi := 8 }
  else .fixed

/-- The routing, drive, amplifier and send area, at block offset `o`. -/
def shapeApply (o : Nat) : ApplyCode :=
  match o with
  | 0x1C2 => Live.u 0x1000 0xFFFF
  | 0x1C6 | 0x1C8 => Live.anyU
  | 0x1CC => Live.any16
  | _ => if 0x1D0 ≤ o ∧ o < 0x1E0 ∧ o % 4 = 2 then Live.anyU else .fixed

/-- What a PARAM to the even offset `o` of a parameter block does (R145): by the program (ORGAN is 0x02) and the block's own type
fields. -/
def applyCode (prog : Nat) (blk : List Byte) (o : Nat) : ApplyCode :=
  if o < 0x40 then
    match o with
    | 0x002 => .live { mask := 0xF, hi := 15 }
    | 0x006 => Live.s (-48) 48
    | 0x008 => Live.s (-25600) 25600
    | 0x00C => Live.anyU
    | 0x00E => Live.u 0 12800
    | 0x010 => Live.u 0 0x1400
    | _ => .fixed
  else if o < 0x100 then
    if prog = 2 then organApply o
    else if o < 0xA0 then sourceApply (byteAt blk 0x40) (o - 0x40)
    else sourceApply (byteAt blk 0xA0) (o - 0xA0)
  else if o < 0x160 then filterApply (o - 0x100)
  else if o < 0x1C0 then filterApply (o - 0x160)
  else if o < 0x200 then shapeApply o
  else if o < 0x300 then
    let e := (o - 0x200) / 64
    envApply e (byteAt blk (0x200 + 64 * e)) ((o - 0x200) % 64)
  else if o < 0x360 then
    if (o - 0x300) % 32 = 2 then
      (if byteAt blk (o - 1) % 2 = 1 then Live.u 0x0010 0xFFFF else Live.u 0x0001 0xC800)
    else .fixed
  else if o < 0x3F0 then (if (o - 0x360) % 6 = 2 then Live.any16 else .fixed)
  else if o < 0x3F4 then .fixed
  else if o < 0x3FC then Live.anyU
  else if o = 0x3FC then .live { mask := 0xFF, hi := 7 }
  else .fixed

/-- The halfword that a live write leaves (R173): the undefined bits dropped, then clamped to the range. The drift rate's codes 1 to
12 go to 13 (R146). -/
def Live.clamp (f : Live) (o v : Nat) : Nat :=
  let x := v &&& f.mask
  let w := if f.mask = 0xFF then 8 else 16
  let y : Int := if f.signed ∧ x ≥ 2 ^ (w - 1) then (x : Int) - (2 ^ w : Nat) else x
  let z := if y < f.lo then f.lo else if f.hi < y then f.hi else y
  let z := if o = 0x010 ∧ 1 ≤ z ∧ z ≤ 12 then 13 else z
  (z % (2 ^ w : Nat)).toNat

/-! ### Validation of templates (R170, R173) -/

/-- A byte in a range. -/
def inB (l : List Byte) (off lo hi : Nat) : Bool := lo ≤ byteAt l off && byteAt l off ≤ hi
/-- A halfword in a range. -/
def inH (l : List Byte) (off lo hi : Nat) : Bool := lo ≤ numAt l off 2 && numAt l off 2 ≤ hi
/-- A signed number in a range. -/
def inS (l : List Byte) (off n : Nat) (lo hi : Int) : Bool := lo ≤ sintAt l off n && sintAt l off n ≤ hi
/-- A byte whose undefined bits are zero. -/
def maskB (l : List Byte) (off mask : Nat) : Bool := byteAt l off &&& (255 - mask) == 0

/-- The header (R146). -/
def headerOk (t : List Byte) : Bool :=
  numAt t 0 2 == 0x0100 && numAt t 2 2 < 16 && inH t 4 0x0400 0x4000 && inS t 6 2 (-48) 48 && inS t 8 2 (-25600) 25600 &&
  byteAt t 0xA % 2 == 0 && byteAt t 0xA ≤ 254 && byteAt t 0xB ≤ 2 && numAt t 0xE 2 ≤ 12800 &&
  ((numAt t 0x10 2 == 0 && numAt t 0xE 2 == 0) || inH t 0x10 0x000D 0x1400) && zeros t 0x12 46

/-- The common part of a source block at `s` (R150). -/
def commonOk (t : List Byte) (s : Nat) : Bool :=
  byteAt t s ≤ 6 && maskB t (s + 1) 3 && inS t (s + 2) 2 (-48) 48 && inS t (s + 4) 2 (-25600) 25600 && zeros t (s + 12) 4

/-- The 80 type-dependent bytes of the source block at `s`; `second`: it is source B. The types are OFF, SAMPLE, WAVE, VA, FM, NOISE
and INPUT. -/
def sourceOk (t : List Byte) (s : Nat) (second : Bool) : Bool :=
  commonOk t s &&
  match byteAt t s with
  | 1 => byteAt t (s + 0x12) ≤ 3 && byteAt t (s + 0x13) ≤ 4 && numAt t (s + 0x18) 2 ≤ 4096 && numAt t (s + 0x1A) 2 ≤ 3 &&
      zeros t (s + 0x24) 60
  | 2 => inB t (s + 0x14) 1 2 && byteAt t (s + 0x15) ≤ 1 && zeros t (s + 0x16) 74
  | 3 => byteAt t (s + 0x10) ≤ 2 && maskB t (s + 0x11) 1 && inH t (s + 0x12) 0x0200 0xFE00 && zeros t (s + 0x14) 76 &&
      -- hard sync is source B's, to a source A of type VA (R164)
      (byteAt t (s + 0x11) == 0 || (second && byteAt t 0x40 == 3))
  | 4 => byteAt t (s + 0x10) ≤ 7 && zeros t (s + 0x11) 7 && zeros t (s + 0x58) 8 &&
      (List.range 4).all fun i => inH t (s + 0x18 + 16 * i) 0x0010 0xFFFF && maskB t (s + 0x20 + 16 * i) 1 &&
        byteAt t (s + 0x21 + 16 * i) == 0 && zeros t (s + 0x24 + 16 * i) 4
  | 5 => byteAt t (s + 0x10) ≤ 1 && byteAt t (s + 0x11) ≤ 1 && zeros t (s + 0x12) 2 && zeros t (s + 0x18) 72
  | 6 => byteAt t (s + 0x10) ≤ 127 && zeros t (s + 0x11) 79
  | _ => zeros t (s + 0x10) 80

/-- The source blocks' layout of 0x040–0x0FF. -/
def sourcesOk (t : List Byte) : Bool := sourceOk t 0x40 false && sourceOk t 0xA0 true

/-- The ORGAN layout of 0x040–0x0FF (R168): the ignored bytes of the common part are not judged. -/
def organOk (t : List Byte) : Bool :=
  commonOk t 0x40 &&
  (byteAt t 0xD0 ≤ 15 || byteAt t 0xD0 == 0xFF) && byteAt t 0xD1 == 0 && numAt t 0xD8 2 ≤ 1024 && byteAt t 0xDA ≤ 1 && zeros t 0xDB 37

/-- A filter block at `f`. -/
def filterOk (t : List Byte) (f : Nat) : Bool :=
  let ty := byteAt t f
  let p := byteAt t (f + 1)
  (match ty with
   | 0 => p == 0
   | 1 => p == 2 || p == 4 || p == 6 || p == 8
   | 2 => 1 ≤ p && p ≤ 4
   | 3 => p == 2
   | 4 => p == 0
   | _ => false) &&
  (if ty == 1 then byteAt t (f + 2) ≤ 2 else byteAt t (f + 2) == 0) &&
  (if ty == 1 || ty == 3 then byteAt t (f + 3) ≤ 3 else byteAt t (f + 3) == 0) &&
  numAt t (f + 4) 2 ≤ 0x9600 && inH t (f + 0xA) 0x0800 0x7FFF && inH t (f + 0xC) 0x1000 0xFFFF && zeros t (f + 0xE) 2 &&
  ((List.range 3).all fun j => numAt t (f + 0x10 + 8 * j) 2 ≤ 0x9600 && inH t (f + 0x12 + 8 * j) 0x0140 0x7D00 &&
    zeros t (f + 0x16 + 8 * j) 2) && zeros t (f + 0x28) 56

/-- The routing area 0x1C0–0x1FF. -/
def shapeOk (t : List Byte) : Bool :=
  byteAt t 0x1C0 ≤ 2 && byteAt t 0x1C1 ≤ 3 && (byteAt t 0x1C1 != 2 || byteAt t 0x1C0 == 0) && inH t 0x1C2 0x1000 0xFFFF &&
  byteAt t 0x1C4 ≤ 1 && byteAt t 0x1C5 == 0 && byteAt t 0x1CE ≤ 2 && byteAt t 0x1CF == 0 &&
  ((List.range 4).all fun s => maskB t (0x1D1 + 4 * s) 1 &&
    (byteAt t (0x1D0 + 4 * s) == 0xFF || byteAt t (0x1D1 + 4 * s) == 1 || byteAt t (0x1D0 + 4 * s) % 2 == 0)) && zeros t 0x1E0 32

/-- Envelope `e` (0x200 + 64e). -/
def envOk (t : List Byte) (e : Nat) : Bool :=
  let o := 0x200 + 64 * e
  let segs := byteAt t o
  let sus := byteAt t (o + 1)
  let le := byteAt t (o + 3)
  1 ≤ segs && segs ≤ 8 && (sus == 0xFF || sus + 2 ≤ segs) && byteAt t (o + 2) ≤ le && le + 1 ≤ segs &&
  (byteAt t (o + 4) / 2 % 2 == 0 || sus == 0xFF || le < sus) && maskB t (o + 4) 7 && byteAt t (o + 5) == 0 && zeros t (o + 0xE) 2 &&
  ((List.range 8).all fun i => inS t (o + 0x14 + 6 * i) 1 (-8) 8 && byteAt t (o + 0x15 + 6 * i) == 0) &&
  (e != 0 || (inS t (o + 6) 2 0 32767 && ((List.range segs).all fun i => inS t (o + 0x10 + 6 * i) 2 0 32767) &&
    numAt t (o + 0x10 + 6 * (segs - 1)) 2 == 0))

/-- LFO `l` (0x300 + 32l). -/
def lfoOk (t : List Byte) (l : Nat) : Bool :=
  let o := 0x300 + 32 * l
  byteAt t o ≤ 6 && maskB t (o + 1) 7 &&
  (if byteAt t (o + 1) % 2 = 1 then inH t (o + 2) 0x0010 0xFFFF else inH t (o + 2) 0x0001 0xC800) && zeros t (o + 0xE) 18

/-- Whether a modulation source code is valid (R200). -/
def modSrcOk (c : Nat) : Bool := c ≤ 38 || (40 ≤ c && c ≤ 43) || (64 ≤ c && c ≤ 191)
/-- Whether a modulation destination code is valid (R201). -/
def modDstOk (c : Nat) : Bool := c ≤ 29 || (32 ≤ c && c ≤ 63)

/-- The matrix and the per-note snapshot. -/
def matrixOk (t : List Byte) : Bool :=
  ((List.range 24).all fun i => modSrcOk (byteAt t (0x360 + 6 * i)) && modDstOk (byteAt t (0x361 + 6 * i)) &&
    modSrcOk (byteAt t (0x364 + 6 * i)) && maskB t (0x365 + 6 * i) 3) && byteAt t 0x3FC ≤ 7 && zeros t 0x3FD 3

/-- The field rules of a template but for 0x040–0x0FF (R170, R173). -/
def bodyOk (t : List Byte) : Bool :=
  headerOk t && filterOk t 0x100 && filterOk t 0x160 && shapeOk t && (List.range 4).all (envOk t) && (List.range 3).all (lfoOk t) &&
  matrixOk t

/-! ### Program coverage (R204) -/

/-- The matrix slots of a template that are on: (src, dst, amod). -/
def slotsOn (t : List Byte) (first n : Nat) : List (Nat × Nat × Nat) :=
  ((List.range n).map fun i => (byteAt t (0x360 + 6 * (first + i)), byteAt t (0x361 + 6 * (first + i)), byteAt t (0x364 + 6 * (first + i)))).filter
    fun s => s.1 != 0

/-- The modulation sources a program has: STD all; LITE envelopes 0–1 and LFO 0; ORGAN envelope 0 and LFO 0. -/
def covSrc (prog c : Nat) : Bool :=
  match prog with
  | 1 => !(c == 3 || c == 4 || c == 6 || c == 7)
  | 2 => !(c == 2 || c == 3 || c == 4 || c == 6 || c == 7)
  | _ => true

/-- The destinations a program has (R204). -/
def covDst (prog d : Nat) : Bool :=
  match prog with
  | 1 => !(d == 3 || d == 5 || d == 7 || d == 10 || d == 11 || d == 12 || d == 15 || d == 18 || d == 19 || d == 22 || d == 23 ||
      d == 25 || d == 26 || d == 28 || d == 29)
  | 2 => d == 1 || d == 4 || d == 13 || d == 14 || d == 16 || d == 17 || d == 20 || d == 24 || d == 27 || d ≥ 32
  | _ => true

/-- Whether a template uses only features of the program it is paired with (R204). -/
def covered (prog : Nat) (t : List Byte) : Bool :=
  if prog ≠ 1 ∧ prog ≠ 2 then true
  else
    let slots := if prog = 1 then 8 else 4
    (if prog = 1 then
      (byteAt t 0x100 == 0 || byteAt t 0x100 == 3 || (byteAt t 0x100 == 1 && byteAt t 0x101 ≤ 4)) && byteAt t 0x160 == 0
     else byteAt t 0x100 == 0 && byteAt t 0x160 == 0) &&
    byteAt t 0x1D8 == 0xFF && byteAt t 0x1DC == 0xFF && slotsOn t slots (24 - slots) == [] &&
    (slotsOn t 0 slots).all fun (s, d, a) => covSrc prog s && covSrc prog a && covDst prog d

end Sys2Proof.Machine
end

