-- ==== Sys2Proof/Machine/Stream.lean ====
section
/-! DEFINITION. Contexts in harness SRAM (R12, R14, R213), sample maps (R151, R171), window sizes (R158), loop points and their
commit (R155, R156), and sample decoding (R152). -/

namespace Sys2Proof.Machine

/-! ### Contexts -/

/-- The base of harness `h`'s window (R14). -/
def harnessBase (h : Nat) : Nat := 0x30000000 + h * 0x200000
/-- The base of loom `l`'s SRAM (R307). -/
def loomBase (l : Nat) : Nat := 0x20000000 + l * 0x1000000
/-- The context of voice `v` (R12, R14): its parameter block, then its two state halves. -/
def ctxBase (v : Nat) : Nat := harnessBase (v / 256) + 0x20000 + v % 256 * 0x800
/-- State half `k` of a voice. -/
def halfBase (v k : Nat) : Nat := ctxBase v + 0x400 + 0x200 * k

/-- Voice `v`. -/
def Block.voice (b : Block) (v : Nat) : Voice := FMap.get (fun _ => {}) b.alc.voices v
/-- Set voice `v`. -/
def Block.setVoice (b : Block) (v : Nat) (x : Voice) : Block :=
  { b with alc := { b.alc with voices := FMap.set (fun _ => {}) b.alc.voices v x } }
/-- The parameter block of voice `v`. -/
def Block.paramBlock (b : Block) (v : Nat) : List Byte := Memory.bytes b.mem (ctxBase v) 1024
/-- A number of `n` bytes in the committed state half of voice `v`. -/
def Block.stateNum (b : Block) (v off n : Nat) : Nat := Memory.num b.mem (halfBase v (b.voice v).half + off) n
/-- Write a number into the committed state half of voice `v`. -/
def Block.setStateNum (b : Block) (v off n x : Nat) : Block :=
  { b with mem := Memory.setNum b.mem (halfBase v (b.voice v).half + off) n x }
/-- The committed envelope output of voice `v` (R123, R194, R213). -/
def Block.envOut (b : Block) (v : Nat) : Nat := b.stateNum v 2 2

/-! ### Sample directory (R171) -/

/-- A sample entry. -/
structure Sample where
  off : Nat
  len : Nat
  fmt : Nat
  rootKey : Nat
  rootFine : Int
  rate : Nat
  loopMode : Nat
  flags : Nat
  xfade : Nat
  loopStart : Nat
  loopLen : Nat
  relStart : Nat
  halfRate : Nat
  trim : Nat
deriving DecidableEq, Repr

/-- Sample entry `i` of a SAMPDIR section. -/
def sampleAt (s : List Byte) (i : Nat) : Sample :=
  let o := 0x10 + 48 * i
  { off := numAt s o 8, len := numAt s (o + 8) 4, fmt := byteAt s (o + 12), rootKey := byteAt s (o + 13), rootFine := sintAt s (o + 14) 2
    rate := numAt s (o + 16) 4, loopMode := byteAt s (o + 20), flags := byteAt s (o + 21), xfade := numAt s (o + 22) 2
    loopStart := numAt s (o + 24) 4, loopLen := numAt s (o + 28) 4, relStart := numAt s (o + 32) 4, halfRate := numAt s (o + 36) 4
    trim := numAt s (o + 40) 2 }

/-- A zone of a map: key and velocity ranges and the entry it names. -/
structure Zone where
  keyLo : Nat
  keyHi : Nat
  velLo : Nat
  velHi : Nat
  entry : Nat
deriving DecidableEq, Repr

/-- The zones of map `m`. -/
def mapZones (s : List Byte) (m : Nat) : List Zone :=
  let o := numAt s (0x10 + 48 * numAt s 0 4 + 4 * m) 4
  (List.range (numAt s o 2)).map fun z =>
    let q := o + 4 + 12 * z
    { keyLo := byteAt s q, keyHi := byteAt s (q + 1), velLo := numAt s (q + 2) 2, velHi := numAt s (q + 4) 2, entry := numAt s (q + 8) 4 }

/-- The entry that a note's key and velocity select: the first zone whose ranges contain both (R151). -/
def zoneFor (s : List Byte) (m key vel : Nat) : Option Nat :=
  ((mapZones s m).find? fun z => z.keyLo ≤ key && key ≤ z.keyHi && z.velLo ≤ vel && vel ≤ z.velHi).map (·.entry)

/-! ### Windows (R158) -/

/-- Five times the bytes of a frame of a format (R152): BFP12 packs five frames in eight bytes. -/
def frame5 (fmt : Nat) : Nat :=
  match fmt with
  | 0 => 10
  | 1 => 15
  | 2 => 20
  | 3 => 8
  | _ => 10

/-- The taps of an interpolation at a ceiling in 4.12 (R158). -/
def taps (interp ceiling : Nat) : Nat :=
  match interp with
  | 0 => 1
  | 1 => 2
  | 2 => 4
  | _ => max 16 (ceilDiv (8 * ceiling) 4096)

/-- B_src of a SAMPLE source block at `s` of a template at N internal samples (R158). -/
def srcBytes (dir t : List Byte) (s n : Nat) : Nat :=
  if byteAt t s ≠ 1 then 0
  else
    let ceiling := numAt t 4 2
    let b5 := (mapZones dir (numAt t (s + 0x10) 2)).foldl (fun acc z => max acc (frame5 (sampleAt dir z.entry).fmt)) 0
    64 * (ceilDiv ((ceilDiv (ceiling * n) 4096 + taps (byteAt t (s + 0x12)) ceiling) * b5) 320 + 2)

/-- B_v of a template (R158): the sum over its SAMPLE sources; an ORGAN voice has none. -/
def Block.tmplBytes (b : Block) (prog i : Nat) : Nat :=
  if prog = 2 then 0
  else
    let t := b.templateBytes i
    srcBytes (b.sect 0xA) t 0x40 b.nInt + srcBytes (b.sect 0xA) t 0xA0 b.nInt

/-- B_max over the templates of the VPARAM section (R161). -/
def Block.maxTmplBytes (b : Block) : Nat :=
  (List.range b.templateCount).foldl (fun acc i => max acc (b.tmplBytes 0 i)) 0

/-- V_h: the contexts each harness offers (R161). -/
def Block.vh (b : Block) : Nat := if b.alc.bMax = 0 then 256 else min 256 (786432 / (2 * b.alc.bMax))

/-! ### Loops (R155, R156) -/

/-- The loop of a source in force: start, length, crossfade, end of the sample, and whether it alternates. -/
structure Loop where
  start : Nat
  len : Nat
  xfade : Nat
  last : Nat
  alt : Bool
deriving DecidableEq, Repr

/-- X = min(X, Λ, S) (R155). -/
def Loop.xf (l : Loop) : Nat := min l.xfade (min l.len l.start)

/-- The loop fields of the source block at `s` of a parameter block (R155, R156), or the entry's own loop where the template's length is 0;
`set`: a length has been committed, and 0 is then no loop. E beyond the sample's end shortens Λ. -/
def loopOf (e : Sample) (t : List Byte) (s : Nat) (set : Bool) : Loop :=
  let lenOvr := numAt t (s + 0x20) 4
  let (st, len) := if lenOvr = 0 ∧ !set then (e.loopStart, e.loopLen) else (numAt t (s + 0x1C) 4, lenOvr)
  let len := if st + len > e.len then e.len - st else len
  let xo := numAt t (s + 0x18) 2
  { start := st, len := len, xfade := if xo = 0 then e.xfade else xo, last := e.len, alt := byteAt t (s + 0x13) == 3 || (byteAt t (s + 0x13) == 0 && e.loopMode == 2) }

/-- A position in 32.32 after a commit (R156): at or beyond E it folds to S + ((position − S) mod Λ). -/
def Loop.fold (l : Loop) (pos : Nat) : Nat :=
  let s := l.start * 2 ^ 32
  let len := l.len * 2 ^ 32
  if len = 0 ∨ pos < s + len then pos else s + (pos - s) % len

/-- The loop mode in force (R155): the block's override, or the entry's; 0 none, 1 forward, 2 alternating, 3 with crossfade. -/
def loopMode (blk : List Byte) (s : Nat) (e : Sample) : Nat :=
  match byteAt blk (s + 0x13) with
  | 0 => e.loopMode
  | k => k - 1

/-- The low halfword of a 32-bit field in a pick: the last one staged, or that of the field's completed or present value. -/
def lowHalf (staged done : Option Nat) (now : Nat) : Nat := staged.getD ((done.map (· % 65536)).getD now)

/-- A halfword of a staged field is written (R156): `o` is its offset in the source block. The high halfword completes a 32-bit
field, with its low halfword as staged. -/
def LoopStage.write (st : LoopStage) (o v oldLoStart oldLoLen : Nat) : LoopStage :=
  match o with
  | 0x18 => { st with xfade := some (min v 4096) }
  | 0x1C => { st with startLo := some v }
  | 0x1E => { st with start := some (lowHalf st.startLo st.start oldLoStart + 65536 * v), startLo := none }
  | 0x20 => { st with lenLo := some v }
  | 0x22 => { st with len := some (lowHalf st.lenLo st.len oldLoLen + 65536 * v), lenLo := none }
  | _ => st

/-- Whether a completed field awaits its commit. -/
def LoopStage.complete (st : LoopStage) : Bool := st.xfade.isSome || st.start.isSome || st.len.isSome

/-- The stage after its completed fields are committed; a low halfword stays staged. -/
def LoopStage.clear (st : LoopStage) : LoopStage := { startLo := st.startLo, lenLo := st.lenLo }

/-- The bit of pflags (R213) that says that source `i` (0 A, 1 B) of voice `v` has made its release jump. -/
def Block.jumped (b : Block) (v i : Nat) : Bool := (b.stateNum v 0x30 2).testBit (i + 2)

/-- Commit the completed loop fields of source `i` (0 A, 1 B) of voice `v` at a pick start (R156): the block's fields are written, and
the committed position of a source that loops folds into the new loop. Answers whether a length is committed. -/
def commitSource (v i : Nat) (st : LoopStage) (set : Bool) (b : Block) : Bool × Block :=
  if !st.complete then (set, b)
  else
    let s := 0x40 + 0x60 * i
    let pos := 0x20 + 8 * i
    let base := ctxBase v + s
    let put (o n : Nat) (x : Option Nat) (m : List Host.Cell) := match x with | some y => Memory.setNum m (base + o) n y | none => m
    let b1 := { b with mem := put 0x20 4 st.len (put 0x1C 4 st.start (put 0x18 2 st.xfade b.mem)) }
    let x := b1.voice v
    let blk := b1.paramBlock v
    let set1 := set || st.len.isSome
    match zoneFor (b1.sect 0xA) (numAt blk (s + 0x10) 2) x.zoneKey x.zoneVel with
    | none => (set1, b1)
    | some k =>
      let e := sampleAt (b1.sect 0xA) k
      let own := set1 || numAt blk (s + 0x20) 4 != 0
      let l := loopOf e blk s set1
      -- E beyond the sample's end is committed with Λ reduced
      let b2 := if own then { b1 with mem := Memory.setNum b1.mem (base + 0x20) 4 l.len } else b1
      let runs := loopMode blk s e != 0 && !b2.jumped v i && !(x.nat.fresh && decide (x.prog ≤ 2))
      (own, if runs then b2.setStateNum v pos 8 (l.fold (b2.stateNum v pos 8)) else b2)

/-- Commit the loop fields of every voice that were completed in the previous pick (R156). -/
def commitLoops (b : Block) : Block :=
  b.alc.voices.foldl (fun acc kv =>
    let x := acc.voice kv.1
    if x.stageA.complete || x.stageB.complete then
      let (la, b1) := commitSource kv.1 0 x.stageA x.lenA acc
      let (lb, b2) := commitSource kv.1 1 x.stageB x.lenB b1
      b2.setVoice kv.1 { b2.voice kv.1 with stageA := x.stageA.clear, stageB := x.stageB.clear, lenA := la, lenB := lb }
    else acc) b

/-! ### Sample decoding (R152) -/

/-- Frame `k` of a sample whose bytes start at `a`, decoded to Q1.31. DV12 is 12 bits left-justified in a 16-bit word. -/
def decodeFrame (m : List Host.Cell) (a fmt k : Nat) : Word :=
  match fmt with
  | 0 => BitVec.ofNat 32 (Memory.num m (a + 2 * k) 2 * 65536)
  | 1 => BitVec.ofNat 32 (Memory.num m (a + 3 * k) 3 * 256)
  | 2 => BitVec.ofNat 32 (Memory.num m (a + 4 * k) 4)
  | 3 =>
    let w := Memory.num m (a + 8 * (k / 5)) 8
    let s : Word := BitVec.ofNat 32 (w / 2 ^ (12 * (k % 5)) % 4096 * 2 ^ 20)
    s.sshiftRight (w / 2 ^ 60)
  | _ => BitVec.ofNat 32 (Memory.num m (a + 2 * k) 2 / 16 * 16 * 65536)

end Sys2Proof.Machine
end

