-- ==== Sys2Proof/Machine/Mem.lean ====
section
/-! DEFINITION. The memories and the bus matrix (chapter 13): regions, owners, captures, ECC and its containment (R427–R429), handover,
collisions of the exchange banks, and system DMA. The peripheral region is RegBus.lean's. -/

namespace Sys2Proof.Machine

/-! ### Regions (R307) -/

/-- What an address names. Offsets are from the region's base. -/
inductive Region where
  | rom (o : Nat)
  | chip (o : Nat)
  | loom (l o : Nat)
  | harness (h o : Nat)
  | periph
  | dram (o : Nat)
  | unmapped
deriving DecidableEq, Repr

/-- The visible DRAM in bytes (R324). -/
def dramSize (b : Block) : Nat := b.get DRC_CAP_units * 65536

/-- The region of an address (R307): low memory is the ROM, or chip SRAM while SYS_CTL.remap is set (R308). -/
def region (b : Block) (a : Nat) : Region :=
  if a < 0x200000 then (if b.on SYS_CTL_remap then .chip a else .rom a)
  else if 0x08000000 ≤ a ∧ a < 0x08200000 then .rom (a - 0x08000000)
  else if 0x10000000 ≤ a ∧ a < 0x10400000 then .chip (a - 0x10000000)
  else if 0x20000000 ≤ a ∧ a < 0x24000000 then
    (if a % 0x1000000 < 0x200000 then .loom ((a - 0x20000000) / 0x1000000) (a % 0x1000000) else .unmapped)
  else if 0x30000000 ≤ a ∧ a < 0x34000000 then
    (if a % 0x200000 < 0x180000 then .harness ((a - 0x30000000) / 0x200000) (a % 0x200000) else .unmapped)
  else if 0x40000000 ≤ a ∧ a < 0x44000000 then .periph
  else if 0x100000000 ≤ a ∧ a - 0x100000000 < dramSize b then .dram (a - 0x100000000)
  else .unmapped

/-- The address in the memory of a region's byte: the remap window shares the chip SRAM's bytes. -/
def Region.cell (r : Region) (a : Nat) : Nat :=
  match r with
  | .chip o => 0x10000000 + o
  | .rom o => o
  | _ => a

/-- The shared bank that holds a byte (R310): none outside chip and loom SRAM. -/
def Region.bank : Region → Option Nat
  | .chip o => some (o / 0x20000)
  | .loom l o => some (32 + 16 * l + o / 0x20000)
  | _ => none

/-- The SRAM array that holds a byte (R317). -/
def Region.array : Region → Nat
  | .chip o => o / 0x20000
  | .loom l o => 32 + 16 * l + o / 0x20000
  | .harness h o => 96 + 12 * h + o / 0x20000
  | _ => 0

/-- The program table entry of a program (R229, R231): its entry bundle and energy class, none where its valid bit is clear. ROM
programs enter the vendor code, customer programs the code of the VCODE section (R143, R234). -/
def progEntry (b : Block) (prog : Nat) : Option (Nat × Nat) :=
  if prog < 64 then
    (if prog ≤ 3 ∨ prog = 8 ∨ (16 ≤ prog ∧ prog ≤ 20) ∨ (32 ≤ prog ∧ prog < 48) then
      some (64 + Config.romEntry prog % 4032, romClass prog) else none)
  else (b.vcodeRec prog).map fun o => (4096 + numAt (b.sect 9) (o + 4) 2, byteAt (b.sect 9) (o + 2))

/-- The program table word of a program (R231). -/
def progWord (b : Block) (prog : Nat) : Nat :=
  match progEntry b prog with
  | some (e, c) => e + 8192 + c * 65536
  | none => 0

/-- A byte of instruction memory from start-up step 7 on (R231, R234): the program table, the vendor code and the customer code, the
same in every harness. -/
def imemByte (b : Block) (o : Nat) : Byte :=
  if o < 1024 then BitVec.ofNat 8 (progWord b (o / 4) / 256 ^ (o % 4))
  else if o < 65536 then Config.vendorByte o
  else (b.sect 9).getD (0x40 + 64 * numAt (b.sect 9) 0 4 + (o - 65536)) 0

/-- A byte as a reader of the region sees it: the ROM's contents are not in the spec. -/
def memByte (b : Block) (a : Nat) : Byte :=
  match region b a with
  | .rom o => Config.romByte o
  | .harness h o => if o < 0x20000 ∧ 8 ≤ b.get SYS_STAT_step then imemByte b o else Memory.byte b.mem ((Region.harness h o).cell a)
  | r => Memory.byte b.mem (r.cell a)

/-- `n` bytes from an address. -/
def memBytes (b : Block) (a n : Nat) : List Byte := (List.range n).map fun i => memByte b (a + i)

/-! ### Captures (R312, R314, R326, R331) -/

/-- A non-owner access: counted, flagged, and captured while the capture is free (R312, R314). -/
def noteNoown (a master owner : Nat) (write : Bool) (b : Block) : Block :=
  let b1 := (b.bump MEM_CNT_noown).flag MEM_IRQ_STAT_noown
  if b1.on MEM_NOCAP_INFO_valid then b1
  else
    ((((b1.put MEM_NOCAP_ADDR_addr a).put MEM_NOCAP_INFO_master master).put MEM_NOCAP_INFO_write (if write then 1 else 0)).put
      MEM_NOCAP_INFO_owner owner).put MEM_NOCAP_INFO_valid 1

/-- A decode error by the default target (R331): `crossing` for a refused 4 KiB crossing. -/
def noteDecode (a master id : Nat) (write crossing : Bool) (b : Block) : Block :=
  let b1 := (b.bump BMX_CNT_decode).flag BMX_IRQ_STAT_decode
  if b1.on BMX_DEFCAP_INFO_valid then b1
  else
    ((((((b1.put BMX_DEFCAP_ADDR_addr a).put BMX_DEFCAP_INFO_addr_hi (a / 2 ^ 32)).put BMX_DEFCAP_INFO_master master).put
      BMX_DEFCAP_INFO_id id).put BMX_DEFCAP_INFO_write (if write then 1 else 0)).put BMX_DEFCAP_INFO_kind
      (if crossing then 1 else 0)).put BMX_DEFCAP_INFO_valid 1

/-- A refused access to a protected DRAM range (R326). -/
def noteProtect (o master : Nat) (write : Bool) (b : Block) : Block :=
  let b1 := b.flag DRC_IRQ_STAT_prot
  if b1.on DRC_PCAP_valid then b1
  else
    (((b1.put DRC_PCAP_page (o / 4096)).put DRC_PCAP_master master).put DRC_PCAP_write (if write then 1 else 0)).put DRC_PCAP_valid 1

/-! ### The chip safe state (R431) -/

/-- A safe-state cause: the first entry sets the state, its cause and the capture; a later cause of another kind only counts. -/
def safeEntry (cause detail : Nat) (b : Block) : Block :=
  let why : Hold := if cause = 8 then .thermal else .safe
  let b0 := { b with tbu := { b.tbu with holds := if b.tbu.holds.contains why then b.tbu.holds else why :: b.tbu.holds } }
  let b1 := if cause = 8 then askStop b0 else b0
  if b.on REL_STAT_safe then
    (if b.get REL_STAT_cause = cause then b1 else b1.bump REL_CNT_safe)
  else
    let b2 := (((b1.put REL_STAT_safe 1).put REL_STAT_cause cause).bump REL_CNT_safe).flag REL_IRQ_STAT_safe
    if b2.on REL_CCAP_valid then b2
    else ((b2.put REL_CCAP_cause cause).put REL_CCAP_detail detail).put REL_CCAP_valid 1

/-! ### ECC (R318, R324, R425, R427–R429) -/

/-- Capture a harness error (R427). -/
def noteHarness (h kind slot a : Nat) (b : Block) : Block :=
  if b.on REL_HCAP_INFO_valid then b
  else
    ((((b.put REL_HCAP_ADDR_addr a).put REL_HCAP_INFO_harness h).put REL_HCAP_INFO_kind kind).put REL_HCAP_INFO_slot slot).put
      REL_HCAP_INFO_valid 1

/-- A loom goes into quarantine at the next pick boundary (R429); REL_LCAP captures the cause. -/
def quarantineNext (l cause : Nat) (b : Block) : Block :=
  { b with rel := { b.rel with quarNext := b.rel.quarNext ++ [(l, cause)] } }

/-- A shuttle is retired at the next pick boundary (R425). -/
def retireNext (s : Nat) (b : Block) : Block := { b with rel := { b.rel with retireNext := addNew s b.rel.retireNext } }

/-- Containment of an uncorrectable error in a voice context (R427): the voice is freed at the next boundary, and a slot's second
error withdraws it. -/
def contextUe (v a : Nat) (b : Block) : Block :=
  let n := FMap.get (fun _ => 0) b.rel.ctxUe v + 1
  let b1 := { b with rel := { b.rel with ctxUe := FMap.set (fun _ => 0) b.rel.ctxUe v n, ueVoices := addNew v b.rel.ueVoices } }
  let b2 := noteHarness (v / 256) 0 (v % 256) a b1
  if n = 2 then
    ({ b2 with alc := { b2.alc with withdrawn := addNew v b2.alc.withdrawn } }).bump REL_CNT_slots_out
  else b2

/-- Containment of an uncorrectable error in shuttle `k`'s private set of harness `h` (R425): the second retires it. -/
def scratchUe (s : Nat) (b : Block) : Block :=
  let n := FMap.get (fun _ => 0) b.rel.scratchUe s + 1
  let b1 := { b with rel := { b.rel with scratchUe := FMap.set (fun _ => 0) b.rel.scratchUe s n } }
  if n = 2 then retireNext s b1 else b1

/-- Containment of an uncorrectable error at an address (R425, R427–R429). -/
def contain (a : Nat) (b : Block) : Block :=
  match region b a with
  | .harness h o =>
    if o < 0x20000 then noteHarness h 1 0 o b
    else if o < 0xA0000 then contextUe (256 * h + (o - 0x20000) / 0x800) o b
    else if o < 0x160000 then noteHarness h 3 0 o b
    else if o < 0x174000 then scratchUe (5 * h + (o - 0x160000) / 0x4000) (noteHarness h 2 0 o b)
    else noteHarness h 2 0 o b
  | .loom l o => if o < (if b.on DCH_CFG_inputs then 3072 else 2048) * b.nInt then quarantineNext l 4 b else b
  | _ => b

/-- The check of an SRAM or DRAM word (R318): counts, flags, the capture, and the containment of an uncorrectable error. -/
def eccCheck (a : Nat) (e : Ecc) (scrub : Bool) (b : Block) : Block :=
  let ue := match e with | .uncorrectable _ => true | _ => false
  let syn := match e with | .clean => 0 | .corrected s => s.toNat | .uncorrectable s => s.toNat
  match e, region b a with
  | .clean, _ => b
  | _, .dram o =>
    let b1 := if ue then (b.bump DRC_ECC_CNT_ue).flag DRC_IRQ_STAT_ue else (b.bump DRC_ECC_CNT_ce).flag DRC_IRQ_STAT_ce
    let b2 := if b1.on DRC_ECC_CAP_valid then b1
      else ((b1.put DRC_ECC_CAP_sector (o / 64)).put DRC_ECC_CAP_ue (if ue then 1 else 0)).put DRC_ECC_CAP_valid 1
    if ue then
      let b3 := { b2 with rel := { b2.rel with dramUe := b2.rel.dramUe + 1 } }
      if b3.rel.dramUe = 16 then safeEntry 4 0 b3 else b3
    else b2
  | _, r =>
    let b1 := if ue then (b.bump MEM_ECC_CNT_ue).flag MEM_IRQ_STAT_ue else (b.bump MEM_ECC_CNT_ce).flag MEM_IRQ_STAT_ce
    let b2 := if b1.on MEM_ECC_CAP_INFO_valid then b1
      else
        (((((b1.put MEM_ECC_CAP_ADDR_addr (r.cell a)).put MEM_ECC_CAP_INFO_array r.array).put MEM_ECC_CAP_INFO_ue
          (if ue then 1 else 0)).put MEM_ECC_CAP_INFO_scrub (if scrub then 1 else 0)).put MEM_ECC_CAP_INFO_syndrome syn).put
          MEM_ECC_CAP_INFO_valid 1
    if ue then contain a b2 else b2

/-! ### Owners (R310–R313, R315) -/

/-- Whether the debug scope is open (R440). -/
def debugOpen (b : Block) : Bool := b.get SEC_STAT_opn % 2 == 1

/-- Who makes an access: the matrix master, and for system DMA whether its owner group is the host's (R310, R333), for a loom gateway whether
it serves a stream engine and not a shuttle (R310). -/
structure Who where
  master : Nat
  host : Bool := false
deriving DecidableEq, Repr

/-- Whether an owner code admits an access (R310). -/
def admits (code : Nat) (w : Who) : Bool :=
  match code with
  | 0 => w.master == 0 || w.master == 11 || (w.master == 4 && !w.host)
  | 1 => w.master == 1 || w.master == 2 || (w.master == 4 && w.host)
  | 7 => w.master == 5
  | 8 => w.master == 6
  | 6 => decide (7 ≤ w.master ∧ w.master ≤ 10) && w.host
  | n => 2 ≤ n && n ≤ 5 && w.master == n + 5 && !w.host

/-- Whether a shared bank admits an access now (R312, R313, R315): the exchange banks admit both ports; while a handover is pending
the old owner is refused. Debug with its scope open may read every bank. -/
def bankAdmits (b : Block) (n : Nat) (w : Who) (write : Bool) : Bool :=
  if n = 30 ∨ n = 31 then w.master ≤ 2 || w.master == 4 || w.master == 11
  else
    (admits (b.get (MEM_BANK_OWN_owner n)) w && !b.on (MEM_BANK_OWN_pending n)) || (w.master == 11 && debugOpen b && !write)

/-- Whether a new access waits for a handover to this master (R313). -/
def bankHolds (b : Block) (n : Nat) (w : Who) : Bool := n != 30 && n != 31 && b.on (MEM_BANK_OWN_pending n) && admits (b.get (MEM_BANK_OWN_nxt n)) w

/-- Mark bank `n` pending or not in MEM_BANK_STAT. -/
def bankPending (n : Nat) (on : Bool) (b : Block) : Block :=
  if on then b.setBit (MEM_BANK_STAT_pending (n / 32)) (n % 32) else b.clrBit (MEM_BANK_STAT_pending (n / 32)) (n % 32)

/-- A write of MEM_BANK_OWNn (R310, R313, R315): a reserved code, or for an exchange bank any code but 0 and 1, sets ign, as does a
write while pending; the owner in force is no handover. -/
def bankWrite (n : Nat) (v : Word) (b : Block) : Block :=
  let code := v.toNat % 16
  let f := MEM_BANK_OWN_owner n
  let b0 := if v.getLsbD 9 then b.put (MEM_BANK_OWN_ign n) 0 else b
  if code ≥ 9 ∨ ((n = 30 ∨ n = 31) ∧ code ≥ 2) then b0.put (MEM_BANK_OWN_ign n) 1
  else if b0.on (MEM_BANK_OWN_pending n) then b0.put (MEM_BANK_OWN_ign n) 1
  else if b0.get f = code then b0
  else bankPending n true ((b0.put (MEM_BANK_OWN_nxt n) code).put (MEM_BANK_OWN_pending n) 1)

/-! ### Protection (R326) and reach (R309, R328) -/

/-- Whether DRAM offset `o` lies in a protected range. -/
def protectedAt (b : Block) (o : Nat) : Bool :=
  (List.range 4).any fun r =>
    b.on (DRC_PROT_BASE_en r) && b.get (DRC_PROT_BASE_first r) ≤ o / 65536 && o / 65536 ≤ b.get (DRC_PROT_LIM_last r)

/-- Whether a master is refused in protected ranges. -/
def protectedFrom (b : Block) (w : Who) : Bool :=
  w.master == 1 || w.master == 2 || (w.master == 4 && w.host) || (w.master == 11 && !debugOpen b)

/-- How an access to memory is answered. -/
inductive Answer where
  /-- it is made -/
  | go
  /-- it waits for a handover of the bank -/
  | hold (bank : Nat)
  /-- error response: a non-owner, with the owner in force -/
  | noown (owner : Nat)
  /-- error response without a capture -/
  | refuse
  | prot (o : Nat)
  | decode
deriving DecidableEq, Repr

/-- The regions that a master reaches (R328). -/
def reaches (m : Nat) (r : Region) : Bool :=
  match m, r with
  | 0, _ | 11, _ => true
  | 1, .harness .. | 2, .harness .. | 4, .harness .. => false
  | 1, _ | 2, _ | 4, _ => true
  | 5, .chip _ | 5, .dram _ | 6, .chip _ => true
  | m, .loom l _ => m == l + 7
  | m, .harness h _ => m == h / 8 + 7
  | m, .dram _ => 7 ≤ m && m ≤ 10
  | _, _ => false

/-- How the matrix answers an access to memory at an address (R309, R312, R313, R326, R328, R331). Of the best-effort masters only the MP and
debug reach harness windows; the MP writes one only before dealing has started, and never instruction memory after step 7. -/
def answer (b : Block) (w : Who) (a : Nat) (write : Bool) : Answer :=
  if w.master = 3 then .decode
  else match region b a with
  | .unmapped => .decode
  | .periph => .refuse
  | .loom l o =>
    let n := 32 + 16 * l + o / 0x20000
    if bankHolds b n w then .hold n
    else if bankAdmits b n w write then .go
    else .noown (b.get (MEM_BANK_OWN_owner n))
  | .rom o => if write || !reaches w.master (.rom o) then .refuse else .go
  | .harness _ o =>
    if w.master = 0 then
      (if !write then .go
       else if b.on DLR_STAT_running then .refuse
       else if o < 0x20000 ∧ 8 ≤ b.get SYS_STAT_step then .refuse
       else .go)
    else if w.master = 11 then (if write then .refuse else .go)
    else if reaches w.master (region b a) then .go
    else .refuse
  | .dram o => if !reaches w.master (.dram o) then .refuse else if protectedFrom b w && protectedAt b o then .prot o else .go
  | .chip o =>
    let n := o / 0x20000
    if bankHolds b n w then .hold n
    else if bankAdmits b n w write then .go
    else if n = 30 ∨ n = 31 then .refuse
    else .noown (b.get (MEM_BANK_OWN_owner n))

/-- Record a refused access: the capture of its kind. -/
def noteRefused (x : Answer) (w : Who) (a id : Nat) (write : Bool) (b : Block) : Block :=
  match x with
  | .noown o => noteNoown a w.master o write b
  | .prot o => noteProtect o w.master write b
  | .decode => noteDecode a w.master id write false b
  | _ => b

/-- Write the bytes whose strobe is on, lowest first. -/
def writeStrobes (b : Block) : Nat → List (Option Byte) → Block
  | _, [] => b
  | a, none :: l => writeStrobes b (a + 1) l
  | a, some x :: l => writeStrobes { b with mem := Memory.setByte b.mem ((region b a).cell a) x } (a + 1) l

/-! ### Collisions of the exchange banks (R316) -/

/-- The exchange-bank port of a master: A (0) for the host side, B (1) for the MP side. -/
def xchPort (w : Who) : Nat := if w.master == 1 || w.master == 2 || (w.master == 4 && w.host) then 0 else 1

/-- The 64-bit words of the exchange banks that a write touches, by offset from bank 30. -/
def xchWords (b : Block) (a len : Nat) : List Nat :=
  ((List.range len).filterMap fun i => match region b (a + i) with
    | .chip o => if 0x3C0000 ≤ o then some ((o - 0x3C0000) / 8 * 8) else none
    | _ => none).eraseDups

/-- Strobes and data of a write in the 64-bit word at offset `o` of the exchange banks. -/
def xchLanes (b : Block) (a : Nat) (data : List (Option Byte)) (o : Nat) : List (Option Byte) :=
  (List.range 8).map fun j =>
    ((List.range data.length).find? fun i => match region b (a + i) with
      | .chip c => c == 0x3C0000 + o + j
      | _ => false).bind fun i => (data.getD i none)

/-- Record a lost write (R316): its port, address, data and strobes; port A is told by XCH_STAT.coll and its interrupt, port B by MEM_IRQ_STAT.xcoll. -/
def noteCollision (port o n : Nat) (lanes : List (Option Byte)) (b : Block) : Block :=
  let b1 := b.bump MEM_XCOLL_INFO_count n
  let b2 := if port = 0 then (b1.flag XCH_STAT_coll).flag XCH_IRQ_STAT_coll else b1.flag MEM_IRQ_STAT_xcoll
  if b2.on MEM_XCOLL_INFO_valid then b2
  else
    let bytes := lanes.map fun x => x.getD 0
    let strobes := leNat (lanes.map fun x => if x.isSome then (1 : Byte) else 0)
    let mask := (List.range 8).foldl (fun acc j => acc + (strobes / 256 ^ j % 2) * 2 ^ j) 0
    (((((b2.put MEM_XCOLL_ADDR_offset o).put MEM_XCOLL_DLO_data (leNat (bytes.take 4))).put MEM_XCOLL_DHI_data
      (leNat (bytes.drop 4))).put MEM_XCOLL_INFO_port port).put MEM_XCOLL_INFO_strobes mask).put MEM_XCOLL_INFO_valid 1

/-- Two writes of one cycle, by `w` and by `v` of the other port (R316): where they meet on a word of an exchange bank, the bank
owner's port wins and the loser's whole write is dropped. Otherwise both are made. -/
def writeBoth (w : Who) (a : Nat) (data : List (Option Byte)) (v : Who) (a2 : Nat) (data2 : List (Option Byte)) (b : Block) : Block :=
  let meet := (xchWords b a data.length).filter fun o => (xchWords b a2 data2.length).contains o
  match meet with
  | [] => writeStrobes (writeStrobes b a data) a2 data2
  | o :: _ =>
    if xchPort w = xchPort v then writeStrobes (writeStrobes b a data) a2 data2
    else
      let low := meet.foldl min o
      let owner := if b.get (MEM_BANK_OWN_owner (30 + low / 0x20000)) = 1 then 0 else 1
      if xchPort w = owner then noteCollision (xchPort v) low meet.length (xchLanes b a2 data2 low) (writeStrobes b a data)
      else noteCollision (xchPort w) low meet.length (xchLanes b a data low) (writeStrobes b a2 data2)

/-! ### Handover (R313) -/

/-- The little-endian words of a byte string. -/
def packWords (l : List Byte) : List Word := (List.range (ceilDiv l.length 4)).map fun i => BitVec.ofNat 32 (leNat ((l.drop (4 * i)).take 4))

/-- Make the accesses that were held, in arrival order. -/
def makeHeld (l : List HeldXact) (b : Block) : Block :=
  l.foldl (fun acc x => if x.write then writeStrobes acc x.addr x.data else
    { acc with bus := { acc.bus with resp := FMap.set (fun _ => {}) acc.bus.resp x.master { data := packWords (memBytes acc x.addr x.len) } } }) b

/-- The last old access has completed (R313): the new owner takes effect, pending clears and held accesses proceed. -/
def handoverComplete (n : Nat) (b : Block) : Block :=
  if b.on (MEM_BANK_OWN_pending n) then
    let b1 := ((b.put (MEM_BANK_OWN_owner n) (b.get (MEM_BANK_OWN_nxt n))).put (MEM_BANK_OWN_nxt n) 0).put (MEM_BANK_OWN_pending n) 0
    let held := FMap.get (fun _ => []) b.mm.held n
    makeHeld held (bankPending n false { b1 with mm := { b1.mm with held := FMap.del b1.mm.held n } })
  else b

/-- Hold an access for a bank's new owner. -/
def holdFor (n : Nat) (x : HeldXact) (b : Block) : Block :=
  { b with mm := { b.mm with held := FMap.set (fun _ => []) b.mm.held n (FMap.get (fun _ => []) b.mm.held n ++ [x]) } }

/-! ### Scrubbing (R321) -/

/-- The scrubber reads a word: corrected and written back, or reported; a word written between read and write-back is left. -/
def scrubWord (a : Nat) (e : Ecc) (b : Block) : Block := if b.on MEM_CFG_scrub_en then eccCheck a e true b else b

/-- A pass runs beyond 60 s. -/
def scrubLate (b : Block) : Block :=
  if b.on MEM_CFG_scrub_en then (b.flag MEM_STAT_scrub_late).flag MEM_IRQ_STAT_scrub_late else b

/-! ### System DMA (R333, R334) -/

/-- Whether a range of `n` bytes touches the peripheral region. -/
def touchesPeriph (a n : Nat) : Bool := decide (a < 0x44000000 ∧ 0x40000000 < a + n)

/-- Finish a channel: result, cause, bytes written, once (R334). -/
def dmaFinish (c result cause n : Nat) (b : Block) : Block :=
  let b1 := ((b.put (BMX_DMA_STAT_result c) result).put (BMX_DMA_STAT_cause c) cause).put (BMX_DMA_DONE_bytes c) n
  let b2 := { b1 with mm := { b1.mm with dma := FMap.set (fun _ => none) b1.mm.dma c none } }
  if b2.on (BMX_DMA_CTL_irq c) then b2.setBit BMX_IRQ_STAT_dma c else b2

/-- A start of channel `c` (R333). -/
def dmaStart (c : Nat) (b : Block) : Block :=
  if b.get (BMX_DMA_STAT_result c) = 1 then b.put (BMX_DMA_STAT_ovr c) 1
  else
    let src := b.num (BMX_DMA_SRC c) % 2 ^ 40
    let dst := b.num (BMX_DMA_DST c) % 2 ^ 40
    let len := b.get (BMX_DMA_LEN_bytes c)
    let b1 := ((b.put (BMX_DMA_STAT_abort_late c) 0).put (BMX_DMA_STAT_cause c) 0).put (BMX_DMA_DONE_bytes c) 0
    if src % 16 ≠ 0 ∨ dst % 16 ≠ 0 ∨ len % 16 ≠ 0 ∨ len < 16 ∨ 0x0FFFFFF0 < len then dmaFinish c 4 1 0 b1
    else if touchesPeriph src len || touchesPeriph dst len then dmaFinish c 4 2 0 b1
    else
      let x : Dma := { src := src, dst := dst, len := len, host := b.on (BMX_DMA_CTL_as c) }
      let b2 := b1.put (BMX_DMA_STAT_result c) 1
      { b2 with mm := { b2.mm with dma := FMap.set (fun _ => none) b2.mm.dma c (some x) } }

/-- An abort of channel `c` (R334): before the completion point no new burst is issued, else it is late. -/
def dmaAbort (c : Nat) (b : Block) : Block :=
  match FMap.get (fun _ => none) b.mm.dma c with
  | some x => { b with mm := { b.mm with dma := FMap.set (fun _ => none) b.mm.dma c (some { x with aborted := true }) } }
  | none => b.put (BMX_DMA_STAT_abort_late c) 1

/-- The ERROR cause of a refused burst; 15 for one that still waits for a handover, which is none. -/
def Answer.cause : Answer → Nat
  | .noown _ => 3
  | .hold _ => 15
  | .prot _ => 5
  | _ => 4

/-- Bytes of the next burst: up to 16 beats, split at 4 KiB boundaries. -/
def burstLen (src dst left : Nat) : Nat := min (min 256 left) (min (4096 - src % 4096) (4096 - dst % 4096))

/-- Copy burst by burst until the length is done or an error response stops the channel; answers the cause, the bytes written and the
block. The count bounds the bursts. -/
def dmaCopy (c : Nat) (w : Who) : Nat → Nat → Nat → Nat → Nat → Block → Nat × Nat × Block
  | 0, _, _, _, n, b => (0, n, b)
  | fuel + 1, src, dst, left, n, b =>
    if left = 0 then (0, n, b)
    else
      let k := burstLen src dst left
      let r := answer b w src false
      if r ≠ .go then (r.cause, n, noteRefused r w src c false b)
      else
        let q := answer b w dst true
        if q ≠ .go then (q.cause, n, noteRefused q w dst c true b)
        else dmaCopy c w fuel (src + k) (dst + k) (left - k) (n + k) (writeStrobes b dst ((memBytes b src k).map some))

/-- The completion of channel `c` (R334), which a burst that a handover holds (R313) puts off: the copy has been made, or stopped by an error response, by an uncorrectable error in the
word at byte `n` (cause 6), or after `n` bytes by an abort. -/
def dmaComplete (c n : Nat) (e : Ecc) (b : Block) : Block :=
  match FMap.get (fun _ => none) b.mm.dma c with
  | none => b
  | some x =>
    let w : Who := { master := 4, host := x.host }
    let cut := n / 16 * 16
    let ue := match e with | .uncorrectable _ => decide (cut < x.len) | _ => false
    let len := if x.aborted || ue then min cut x.len else x.len
    let (cause, done, b1) := dmaCopy c w (len / 16 + 1) x.src x.dst len 0 b
    if cause = 15 then b
    else if cause ≠ 0 then dmaFinish c 4 cause done b1
    else if ue then dmaFinish c 4 6 done (eccCheck (x.src + cut) e false b1)
    else if x.aborted then dmaFinish c 3 0 done b1
    else dmaFinish c 2 0 done b1

/-! ### Master reset (R332) -/

/-- A master is reset with `n` bursts accepted and not yet complete: they complete with strobes off or data discarded, those that no target
has accepted are discarded, and its new requests are held until the drain ends. -/
def resetMaster (m n : Nat) (b : Block) : Block :=
  let others (l : List HeldXact) : List HeldXact := l.filter fun x => x.master != m
  let held := (b.mm.held.map fun kv => (kv.1, others kv.2)).filter fun kv => !kv.2.isEmpty
  ({ b with mm := { b.mm with held := held, drainHeld := others b.mm.drainHeld } }.setBit BMX_MSTAT_draining m).bump BMX_CNT_drained n

end Sys2Proof.Machine
end

