-- ==== Sys2Proof/Machine/VMath.lean ====
section
/-! DEFINITION. Numbers that the spec gives as real quantities: quotients, roots, powers of two, time codes (R188), and the shaper
(R221). Signals are integers in units of 2^-31 (Q1.31), unbounded until they are sent. A real quantity is held to its unit: where it
is not whole it is the integer just below or just above, which of the two is free (notes/assumptions/39.md). -/

namespace Sys2Proof.Machine

/-! ### Quotients -/

/-- A quotient: exact, or where it is not whole one of the two integers beside it. -/
def quotient (x : Int) (d : Nat) : Int :=
  if x % (d : Int) = 0 ∨ Config.roundsUp x d = false then x / (d : Int) else x / (d : Int) + 1

/-- A quotient rounded to nearest, a half rounded up. -/
def roundDiv (x : Int) (d : Nat) : Int := (2 * x + (d : Int)) / (2 * (d : Int))

/-- A value bounded to a range. -/
def clampInt (lo hi x : Int) : Int := max lo (min hi x)

/-- The integer square root. -/
def floorRoot (n : Nat) : Nat := (List.range (Nat.log2 n / 2 + 1)).foldr (fun k r => if (r + 2 ^ k) * (r + 2 ^ k) ≤ n then r + 2 ^ k else r) 0

/-- A square root: exact, or one of the two integers beside it. -/
def rootOf (n : Nat) : Nat :=
  let r := floorRoot n
  if r * r = n ∨ Config.roundsUp n 0 = false then r else r + 1

/-- One in Q1.31. -/
def one31 : Int := 2147483648

/-- The product of two signals. -/
def fmul (x y : Int) : Int := quotient (x * y) 2147483648

/-- The quotient of two signals. -/
def fdiv (x y : Int) : Int :=
  if y < 0 then quotient (-(x * one31)) y.natAbs else quotient (x * one31) y.natAbs

/-! ### Powers of two and time codes (R188) -/

/-- 2^f for a fraction f in units of 2^-96, in the same units: the series of e^(f ln 2). -/
def expFrac (f : Nat) : Nat :=
  let t := f * 54916777467707473351141471128 / 2 ^ 96
  ((List.range 40).foldl (fun (acc : Nat × Nat) k =>
    let term := acc.1 * t / (2 ^ 96 * (k + 1))
    (term, acc.2 + term)) (2 ^ 96, 2 ^ 96)).2

/-- round(n / d × 2^e), e in units of 2^-96. -/
def scaleExp (n d : Nat) (e : Int) : Nat :=
  let whole := asr e 96
  let m := n * expFrac (e - whole * 2 ^ 96).toNat
  if 0 ≤ whole then (roundDiv (m * 2 ^ whole.toNat : Nat) (d * 2 ^ 96)).toNat
  else (roundDiv (m : Nat) (d * 2 ^ 96 * 2 ^ (-whole).toNat)).toNat

/-- A time code in internal samples, times 2^e (R188): code 0 is one internal sample; code c is 10 µs × 6,000,000^((c − 1) / 65,534). `sr`
is OSR × fs. -/
def timeLen (sr code : Nat) (e : Int) : Nat :=
  if code = 0 then max 1 (scaleExp 1 1 e)
  else max 1 (scaleExp sr 100000 (e + (1783943382875033709511451490809 * (code - 1 : Nat) / 65534 : Nat)))

/-! ### The shaper (R221) -/

/-- The integer at a place that the spec leaves open (`free`) of those less than `e` from `x`, both in units of 1/d. -/
def withinError (x e : Int) (d : Nat) (free : Int) : Int := clampInt ((x - e) / (d : Int) + 1) ((x + e - 1) / (d : Int)) free

/-- sin 2πφ in units of 2^-96, by its series, of a phase in units of 2^-32 of a cycle. -/
def sinExact (phase : Nat) : Int :=
  let s : Int := if phase % 4294967296 < 2147483648 then (phase % 4294967296 : Nat) else (phase % 4294967296 : Nat) - 4294967296
  -- sin(π − x) = sin x
  let s := if 1073741824 < s then 2147483648 - s else if s < -1073741824 then -2147483648 - s else s
  let a := s * 115904311329233965478
  ((List.range 18).foldl (fun (acc : Int × Int) k =>
    let term := -(acc.1 * (a * a)) / ((2 ^ 192 * ((2 * k + 2) * (2 * k + 3)) : Nat) : Int)
    (term, acc.2 + term)) (a, a)).2

/-- 2^-y in units of 2^-96, for a y ≥ 0 in the same units. -/
def expDown (y : Nat) : Nat :=
  let f := y % 2 ^ 96
  if f = 0 then 2 ^ 96 / 2 ^ (y / 2 ^ 96) else expFrac (2 ^ 96 - f) / 2 ^ (y / 2 ^ 96 + 1)

/-- tanh x in units of 2^-96, for an x in units of 2^-27: (1 − t) / (1 + t) with t = e^(−2|x|). -/
def tanhExact (x : Int) : Int :=
  let t := expDown (x.natAbs * 1703233676524073278943)
  let v : Nat := (2 ^ 96 - t) * 2 ^ 96 / (2 ^ 96 + t)
  if x < 0 then -(v : Int) else v

/-- The cubic soft clip in units of 2^-96, for an x in units of 2^-27: 3/2 × (x − x³/3), ±1 beyond [−1, 1]. -/
def clipExact (x : Int) : Int :=
  let n := clampInt (-134217728) 134217728 x
  (3 * n * 18014398509481984 - n * n * n) * 16384

/-- The EXP2 table at a Q8.24 argument: 2^frac(x) in [1, 2), within its relative error of 2^-24, and 1 where x is whole. -/
def exp2Table (x : Word) : Int :=
  let e := expFrac (x.toNat % 16777216 * 2 ^ 72)
  if x.toNat % 16777216 = 0 then one31
  else clampInt one31 (2 * one31 - 1) (withinError (e * 16777216 : Nat) e (2 ^ 89) (Config.shaper 0 x).toNat)

/-- A kernel table (BLEP, BLAMP, WIN): tap [31:28], phase [27:19], interpolated by the fraction [18:0] between adjacent phases. -/
def kernelAt (fn : Nat) (x : Word) : Int :=
  let tap := x.toNat / 2 ^ 28
  let ph := x.toNat / 2 ^ 19 % 512
  let a : Nat := x.toNat % 2 ^ 19
  let h := (Config.kernel fn ph tap).toInt
  h + quotient ((a : Int) * ((Config.kernel fn (ph + 1) tap).toInt - h)) (2 ^ 19)

/-- A function of the shaper (R221), by its code: EXP2 unsigned 1.31, the others Q1.31. The errors are 2^-26 for SIN and 2^-24 for TANH
and SCLIP; code 7 gives zero. -/
def shaper (fn : Nat) (x : Word) : Int :=
  let near (exact e : Int) : Int := satInt 32 (withinError exact e (2 ^ 65) (Config.shaper fn x).toInt)
  match fn with
  | 0 => exp2Table x
  | 1 => near (sinExact x.toNat) (2 ^ 70 : Nat)
  | 2 => near (tanhExact x.toInt) (2 ^ 72 : Nat)
  | 3 => near (clipExact x.toInt) (2 ^ 72 : Nat)
  | 4 | 5 | 6 => kernelAt fn x
  | _ => 0

/-- 2^x in units of 2^-31 for a Q8.24 x: the program applies floor(x) as a shift. -/
def exp2 (x : Int) : Int :=
  let whole := asr x 24
  let m := shaper 0 (BitVec.ofInt 32 x)
  if 0 ≤ whole then m * (2 ^ whole.toNat : Nat) else quotient m (2 ^ (-whole).toNat)

/-- sin 2πφ of a phase in units of 2^-32 of a cycle. -/
def sinOf (phase : Int) : Int := shaper 1 (BitVec.ofInt 32 phase)
/-- cos 2πφ. -/
def cosOf (phase : Int) : Int := sinOf (phase + 1073741824)

/-- A signal as the Q5.27 argument of TANH and SCLIP, clamped to the domain. -/
def q27 (x : Int) : Word := sat32 (quotient x 16)
/-- tanh of a signal. -/
def tanhOf (x : Int) : Int := shaper 2 (q27 x)
/-- The cubic soft clip of a signal. -/
def softClip (x : Int) : Int := shaper 3 (q27 x)

/-- exp(−2π a / b) for a ≥ 0, in units of 2^-31: 2^(−a (2π / ln 2) / b) by EXP2. -/
def decayOf (a : Int) (b : Nat) : Int :=
  exp2 (clampInt (-2147483648) 0 (quotient (-(a * 167214575172336340521)) (b * 1099511627776)))

/-! ### Noise (R166) -/

/-- One step of the 32-bit xorshift generator. -/
def xorshift (x : Nat) : Nat :=
  let a := x ^^^ (x * 2 ^ 13 % 2 ^ 32)
  let b := a ^^^ (a / 2 ^ 17)
  b ^^^ (b * 2 ^ 5 % 2 ^ 32)

/-- A generator's state as Q1.31. -/
def noiseOut (x : Nat) : Int := (BitVec.ofNat 32 x).toInt

/-- A seed of 0 becomes 1. -/
def seedOf (x : Nat) : Nat := if x % 2 ^ 32 = 0 then 1 else x % 2 ^ 32

end Sys2Proof.Machine
end

