-- ==== Sys2Proof/Machine/Alloc.lean ====
section
/-! DEFINITION. The allocator (chapter 05): sums, admission, stealing, retrigger, and the commit of a NOTE_ON (R113–R126, R137).
A plan is a tentative block; a plan that fails is dropped and the block before it stands (R121). -/

namespace Sys2Proof.Machine

/-! ### Parts, voices, notes -/

/-- Part `p`. -/
def Block.part (b : Block) (p : Nat) : Part := FMap.get (fun _ => {}) b.alc.parts p
/-- Set part `p`. -/
def Block.setPart (b : Block) (p : Nat) (x : Part) : Block :=
  { b with alc := { b.alc with parts := FMap.set (fun _ => {}) b.alc.parts p x } }
/-- Note number `k`. -/
def Block.note (b : Block) (k : Nat) : Option Note := FMap.get (fun _ => none) b.alc.notes k
/-- Set note number `k`. -/
def Block.setNote (b : Block) (k : Nat) (x : Option Note) : Block :=
  { b with alc := { b.alc with notes := FMap.set (fun _ => none) b.alc.notes k x } }

/-- The voices in use, ascending. -/
def voicesOf (b : Block) : List (Nat × Voice) := b.alc.voices.filter fun kv => kv.2.st != .free
/-- The voices a note holds, ascending: booked ones included. -/
def noteVoices (b : Block) (k : Nat) : List (Nat × Voice) :=
  (voicesOf b).filter fun kv => kv.2.note == k || (kv.2.next.map (·.note)) == some k
/-- A note counts as fading when every voice it still holds is fading (R127). -/
def noteFading (b : Block) (k : Nat) : Bool :=
  let vs := noteVoices b k
  !vs.isEmpty && vs.all fun kv => kv.2.st == .fading
/-- Whether a note is held (R127): it answers, and one of its voices is neither in release nor fading. -/
def noteHeld (b : Block) (kn : Nat × Note) : Bool :=
  !kn.2.gone && !kn.2.booked && (noteVoices b kn.1).any fun kv => kv.2.st == .sounding
/-- The notes of a part, oldest first. -/
def partNotes (b : Block) (p : Nat) : List (Nat × Note) :=
  b.alc.notes.filterMap fun kv => match kv.2 with
    | some x => if x.part = p then some (kv.1, x) else none
    | none => none
/-- Drop the record of a note that holds no voice. -/
def dropEmptyNote (k : Nat) (b : Block) : Block := if (noteVoices b k).isEmpty then b.setNote k none else b

/-! ### Admitted sums (R22, R99, R102, R159) -/

/-- U of R21: 96 % of the pick's cycles. -/
def capU (b : Block) : Nat := 960000000 * b.pick / b.fs
/-- The admitted cycle sum of harness `h`. -/
def admitted (b : Block) (h : Nat) : Nat :=
  sumNat ((voicesOf b).map fun kv => if kv.1 / 256 = h ∧ kv.2.charged then kv.2.cost else 0)
/-- Admitted voices of harness `h`. -/
def admittedVoices (b : Block) (h : Nat) : Nat := ((voicesOf b).filter fun kv => kv.1 / 256 == h && kv.2.charged).length
/-- The bytes that the admitted voices charge to each channel: twice ceil(B_v / 2) in the pick of admission (R102, R159). -/
def chBytes (b : Block) : Nat :=
  sumNat ((voicesOf b).map fun kv =>
    if kv.2.charged then (if kv.2.admitPick = b.pickNo then 2 else 1) * ceilDiv kv.2.bytes 2 else 0)
/-- The part of `chBytes` that the voices of harness `h` charge. -/
def harnessBytes (b : Block) (h : Nat) : Nat :=
  sumNat ((voicesOf b).map fun kv =>
    if kv.1 / 256 = h ∧ kv.2.charged then (if kv.2.admitPick = b.pickNo then 2 else 1) * ceilDiv kv.2.bytes 2 else 0)
/-- A of harness `h` as last recomputed (R99): DLR_HCAP, signed. -/
def capA (b : Block) (h : Nat) : Int := (BitVec.ofNat 32 (b.get (DLR_HCAP_A h))).toInt

/-- The cost at which a program is admitted: none when it is unsupported at N or above U (R98). -/
def admitCost (b : Block) (prog : Nat) : Option Nat :=
  let c := b.voiceCost prog b.nInt
  if c = 0 ∨ capU b < c then none else some c

/-! ### Groups, slots and harnesses (R113, R119, R120, R161) -/

/-- A voice group to place: its note, layer number and layer, the pick and offset at which its voices start, its cost and bytes,
and whether it books (R137). -/
structure Group where
  note : Nat
  ix : Nat
  ly : Layer
  pick : Nat
  offset : Nat
  cost : Nat
  bytes : Nat
  book : Bool
deriving DecidableEq, Repr

/-- The looms that hold wavetable `w` (R163). -/
def waveMask (b : Block) (w : Nat) : Nat :=
  if w < numAt (b.sect 0xC) 0 4 then byteAt (b.sect 0xC) (4 + 16 * w) else 0

/-- The tables that a template reads under a program: WAVE sources (R163) and user-frame LFOs (R198), in loom SRAM. LITE and ORGAN
have LFO 0 only. -/
def tablesRead (prog : Nat) (t : List Byte) : List Nat :=
  (if prog = 2 then [] else ([0x40, 0xA0].filter fun o => byteAt t o == 2).map fun o => numAt t (o + 0x10) 2) ++
  (((if prog = 1 ∨ prog = 2 then [0x300] else [0x300, 0x320, 0x340]).filter fun o => byteAt t o == 6).map fun o => numAt t (o + 10) 2)

/-- The looms a layer may use, as a mask (R113, R163): a layer mask of 0 counts as the mask of the tables its template reads, or as
every loom. While the DV32 personality is on, loom 0 carries only its work (R373). -/
def layerLooms (b : Block) (ly : Layer) : Nat :=
  let m := if ly.mask ≠ 0 then ly.mask
    else (tablesRead ly.prog (b.templateBytes ly.template)).foldl (fun m w => m &&& waveMask b w) 15
  if b.get LEG_CTL_en ≠ 0 then m &&& 14 else m

/-- Whether a harness lies in a loom that the layer allows and that is not quarantined (R119, R122). -/
def harnessOpen (b : Block) (ly : Layer) (h : Nat) : Bool :=
  layerLooms b ly / 2 ^ (h / 8) % 2 == 1 && !b.bit DLR_STAT_quar (h / 8)

/-- The free context slots of harness `h`, ascending: neither in use, nor withdrawn (R427), nor above V_h - 1 (R161). -/
def freeSlots (b : Block) (h : Nat) : List Nat :=
  (List.range b.vh).filter fun c => (b.voice (256 * h + c)).st == .free && !b.alc.withdrawn.contains (256 * h + c)

/-- The conditions of R119 but for the slot. -/
def fits (b : Block) (g : Group) (h : Nat) : Bool :=
  harnessOpen b g.ly h && decide (unitsUsed b g.pick h < eMax b) &&
  decide (((admitted b h + g.cost : Nat) : Int) ≤ capA b h) && decide (admittedVoices b h < 256) &&
  decide (((chBytes b + b.alc.fixedBytes + 2 * ceilDiv g.bytes 2 : Nat) : Int) ≤ b.alc.wc)

/-! ### Starting a voice (R115, R119, R133, R145, R147) -/

/-- Unison offset of voice `u` of `n` (R115): total × (u / (n - 1) - 1/2). -/
def unisonOffset (total u n : Nat) : Int :=
  if n ≤ 1 then 0 else quotient ((total : Int) * (2 * (u : Int) - ((n : Int) - 1))) (2 * (n - 1))

/-- The pitch of a key by the part's tuning table (R147, R148). -/
def tablePitch (b : Block) (p key : Nat) : Int := (FMap.get (fun i => i % 128 * 65536) b.alc.tuning ((b.part p).tuning * 128 + key) : Nat)

/-- The UMP pitch attribute of a note, -1 with none (R147). -/
def attrOf (ext : EvExt) : Int :=
  match ext with
  | .pitch x => (x.toNat * 128 : Nat)
  | _ => -1

/-- The pitch of a note: by its attribute where the template honours it, else by the part's tuning table (R147). -/
def keyPitch (b : Block) (p key template : Nat) (attr : Int) : Int :=
  if 0 ≤ attr ∧ numAt (b.templateBytes template) 2 2 % 2 = 1 then attr else tablePitch b p key

/-- The glide that an event-apply card carries (R133): from the part's previous note pitch over its glide time. -/
def glideOf (p : Part) (transition : Bool) : Option (Int × Nat) :=
  if p.glideMode = 1 ∨ (p.glideMode = 2 ∧ transition) then p.lastPitch.map fun x => (x, p.glideTime) else none

/-- The data word of a note's event-apply card: velocity and note ID (R55). -/
def noteData (x : Note) : Word := BitVec.ofNat 32 (x.vel + x.noteId * 65536)

/-- A voice with one more command, at an offset (output samples) of the pick in progress. -/
def Voice.ask (x : Voice) (c : VoiceCmd) (o : Nat) (b : Block) : Voice :=
  { x with cmds := x.cmds ++ [{ c with no := x.cmdNo, pick := b.pickNo, off := o * b.osr }], cmdNo := x.cmdNo + 1 }

/-- An event-apply card for voice `a.voice` is due (R82); one for a note brings the command `c`. -/
def queueFor (a : Apply) (c : Option VoiceCmd) (b : Block) : Block :=
  let x := b.voice a.voice
  let b1 := match c with | some c => b.setVoice a.voice (x.ask c a.offset b) | none => b
  { b1 with dlr := { b1.dlr with applies := b1.dlr.applies ++ [{ a with cmd := x.cmdNo }] } }

/-- Queue the event-apply card that starts or restarts a voice (R82, R115, R126, R133). -/
def queueStart (v : Nat) (x : Voice) (nt : Note) (retrig init : Bool) (b : Block) : Block :=
  let ly := ((b.layers x.program).getD []).getD x.layer (layerAt [] 0)
  let a : Apply :=
    { voice := v, op := 1, data := noteData nt, offset := x.offset, init := init, retrig := retrig
      uni := some (unisonOffset ly.detune x.unison x.uniCount, unisonOffset ly.spread x.unison x.uniCount) }
  let glide := glideOf (b.part x.part) false
  queueFor { a with glide := glide } (some { no := 0, pick := 0, off := 0, retrig := retrig, glide := glide }) b

/-- Voice `u` of a group as it starts. -/
def startOf (b : Block) (g : Group) (nt : Note) (ext : EvExt) (u : Nat) : Start :=
  { note := g.note, part := nt.part, key := nt.key, noteId := nt.noteId, vel := nt.vel, layer := g.ix, unison := u, uniCount := g.ly.unison
    program := (b.part nt.part).program, template := g.ly.template, prog := g.ly.prog, startFrame := nt.startFrame, startPick := g.pick
    offset := g.offset, attr := attrOf ext, admitPick := b.pickNo }

/-- The voice that starts so in a free context. -/
def Start.voice (s : Start) (b : Block) (st : VState) (cost bytes : Nat) : Voice :=
  { st := st, note := s.note, part := s.part, key := s.key, noteId := s.noteId, layer := s.layer, unison := s.unison, uniCount := s.uniCount
    program := s.program, template := s.template, prog := s.prog, startFrame := s.startFrame, startPick := s.startPick, offset := s.offset
    cost := cost, bytes := bytes, charged := true, admitPick := s.admitPick, pKey := tablePitch b s.part s.key, attr := s.attr
    zoneKey := s.key, zoneVel := s.vel }

/-- Put voice `u` of a group into context `v` (R119): its cost enters the admitted sum at once, it takes a unit (R59), and it counts
toward the 256 starts of the pick (R118). A voice that is not booked gets its event-apply card. -/
def putVoice (g : Group) (nt : Note) (ext : EvExt) (u v : Nat) (b : Block) : Block :=
  let x := (startOf b g nt ext u).voice b (if g.book then .booked else .sounding) g.cost g.bytes
  let b1 := takeUnit g.pick (v / 256) (b.setVoice v x)
  let b2 := { b1 with alc := { b1.alc with started := b1.alc.started + 1 } }
  if g.book then b2 else queueStart v x nt false true b2

/-- Try to place one voice by R119: the open harness with the largest A minus admitted sum, the lowest H on a tie, and its lowest
free slot beyond the reserve. -/
def tryPlace (g : Group) (nt : Note) (ext : EvExt) (u : Nat) (b : Block) : Option Block :=
  let rsv := b.get VAL_CFG_slot_rsv
  let ok := (List.range 32).filter fun h => fits b g h && decide (rsv < (freeSlots b h).length)
  let slack (h : Nat) : Int := capA b h - (admitted b h : Nat)
  let best := ok.foldl (fun (acc : Option Nat) h =>
    match acc with
    | none => some h
    | some k => if slack k < slack h then some h else some k) none
  match best with
  | none => none
  | some h => (freeSlots b h).head?.map fun c => putVoice g nt ext u (256 * h + c) b

/-! ### Ending voices (R97, R101, R120, R124, R134) -/

/-- Free a voice: its context and its share of the sums are free, and its note ends when it was the last. -/
def freeVoice (v : Nat) (b : Block) : Block :=
  let x := b.voice v
  let b0 := dropEmptyNote x.note (b.setVoice v {})
  let b1 := match x.next with | some s => dropEmptyNote s.note b0 | none => b0
  { b1 with dlr := { b1.dlr with applies := b1.dlr.applies.filter fun a => a.voice != v } }

/-- VAL_DROPPED for the source of a note (R65, R125). -/
def noteDropped (src : Nat) (seq : Option Nat) (b : Block) : Block :=
  let b1 := (b.bump VAL_CNT_dropped).flag VAL_IRQ_STAT_dropped
  match seq with
  | some n => writeStatus src n 8 false b1
  | none => b1

/-- A voice ends of itself (R105): a booked voice that waits for its context has it from now on (R137). -/
def endVoice (v : Nat) (b : Block) : Block :=
  let x := b.voice v
  let b1 := freeVoice v b
  match x.next, x.next.bind fun s => b.note s.note with
  | some s, some nt => (b1.setNote s.note (some nt)).setVoice v (s.voice b .booked x.cost x.bytes)
  | _, _ => b1

/-- The source of a note is told once that a booked voice of it was dropped (R134). -/
def tellDropped (k : Nat) (b : Block) : Block :=
  match b.note k with
  | some nt => match nt.seq with
    | some n => writeStatus nt.src n 8 false (b.setNote k (some { nt with seq := none }))
    | none => b
  | none => b

/-- A booked voice ends before it starts (R134): it is dropped, and its NOTE_ON's source is told. Its context is free, or plays on the
voice that was to be taken over. -/
def dropBooked (v : Nat) (b : Block) : Block :=
  let x := b.voice v
  match x.next with
  | some s => dropEmptyNote s.note ((tellDropped s.note b).setVoice v { x with next := none })
  | none => if x.st = .booked then freeVoice v (tellDropped x.note b) else b

/-- Start a fade at level 0 from internal sample 0 of the pick in progress (R105, R124): a fade that is running is shortened when
the new one ends sooner. A voice that is only booked has nothing to fade and is freed. -/
def startFade (v len : Nat) (b : Block) : Block :=
  let x := b.voice v
  match x.st with
  | .free => b
  | .booked => dropBooked v b
  | .fading =>
    if len < x.fadeLen - x.fadePos then b.setVoice v { x with fadeLen := x.fadePos + len } else b
  | _ => dropBooked v (b.setVoice v { x with st := .fading, fadeLen := len, fadePos := 0, fadePick := b.pickNo })

/-- A victim's cost and bytes leave the admitted sums at once, and it fades over its own part's steal fade (R103, R123, R124). -/
def endVictim (v : Nat) (b : Block) : Block :=
  let x := b.voice v
  startFade v (min 512 (max 16 (b.part x.part).stealFade)) (b.setVoice v { x with charged := false })

/-! ### Stealing (R122, R123) -/

/-- The ranking keys of R123 (R134 for a booked voice, which ranks as started at its booking pick with an envelope output of 0). -/
def rankKey (b : Block) (v : Nat) : List Nat :=
  let x := b.voice v
  let rel := x.st == .released
  let env := if x.st == .booked then 0 else b.envOut v
  let start := if x.st == .booked then x.admitPick * b.pick + b.lOut else x.startFrame
  [if rel then 0 else 1, if rel then x.relFrame else 0, (b.part x.part).stealPrio, env, start, v]

/-- A candidate of R122. -/
def candidate (b : Block) (g : Group) (prio v : Nat) : Bool :=
  let x := b.voice v
  let p := b.part x.part
  harnessOpen b g.ly (v / 256) && !p.prot && x.st != .fading && x.st != .free && x.note != g.note &&
  decide ((if x.st == .booked then x.admitPick else x.startPick) ≠ b.pickNo) && (x.st == .released || decide (p.stealPrio ≤ prio))

/-- The candidates, highest ranked first. -/
def candidates (b : Block) (g : Group) (prio : Nat) : List Nat :=
  sortBy (fun u v => lexLe (rankKey b u) (rankKey b v)) (((voicesOf b).map (·.1)).filter (candidate b g prio))

/-- Count a victim of a plan (R123). -/
def countStolen (b : Block) : Block := (b.bump VAL_CNT_stolen).flag VAL_IRQ_STAT_stolen

/-- Take victims of harness `h` in rank order until the new voice fits (R123). Where every slot is then in use, the first victim is
ended at once without a fade and gives its slot (R120). -/
def stealIn (g : Group) (nt : Note) (ext : EvExt) (u h : Nat) (first : Option Nat) : List Nat → Block → Option Block
  | [], _ => none
  | v :: vs, b =>
    let b1 := countStolen (endVictim v b)
    let cut := first.getD v
    if fits b1 g h then
      match (freeSlots b1 h).head? with
      | some c => some (putVoice g nt ext u (256 * h + c) b1)
      | none => some (putVoice g nt ext u cut (((freeVoice cut b1).bump VAL_CNT2_cut).flag VAL_IRQ_STAT_cut))
    else stealIn g nt ext u h (some cut) vs b1

/-- The harnesses of a ranked candidate list, each once, best first. -/
def harnessOrder (l : List Nat) : List Nat :=
  l.foldl (fun acc v => if acc.contains (v / 256) then acc else acc ++ [v / 256]) []

/-- Place one voice by stealing (R123): harness by harness in the order of the best candidate that remains; the victims of a harness
that does not suffice are restored. -/
def steal (g : Group) (nt : Note) (ext : EvExt) (u : Nat) (b : Block) : Option Block :=
  let cs := candidates b g (b.part nt.part).stealPrio
  (harnessOrder cs).findSome? fun h => stealIn g nt ext u h none (cs.filter fun v => v / 256 == h) b

/-! ### Retrigger (R126) -/

/-- The voices of note `k` that a group may take over, in unison order; none where R126 does not allow it. -/
def reusable (b : Block) (g : Group) (k : Nat) : Option (List Nat) :=
  let vs := (noteVoices b k).filter fun kv => kv.2.layer == g.ix
  let us := (List.range g.ly.unison).filterMap fun u => (vs.find? fun kv => kv.2.unison == u).map (·.1)
  let same := vs.all fun kv =>
    kv.2.template == g.ly.template && kv.2.prog == g.ly.prog && kv.2.uniCount == g.ly.unison &&
    kv.2.st != .fading && kv.2.st != .booked && kv.2.next.isNone
  let units := (List.range 32).all fun h =>
    let n := (us.filter fun v => v / 256 == h).length
    n == 0 || decide (unitsUsed b g.pick h + n ≤ eMax b)
  if us.length = g.ly.unison ∧ vs.length = g.ly.unison ∧ same ∧ units ∧ noteFading b k = false then some us else none

/-- The replaced values that a card may still need: those of the last pick and later. -/
def keepUndo (pick : Nat) (l : List Undo) : List Undo := l.filter fun u => decide (pick ≤ u.pick + 1)

/-- Keep what a change at an offset (output samples) of pick `p` replaces in voice `v` (R58, R174). -/
def noteUndo (v p o : Nat) (what : OldValue) (old : Int) (b : Block) : Block :=
  let x := b.voice v
  b.setVoice v { x with undo := keepUndo p x.undo ++ [{ pick := p, off := o * b.osr, what := what, old := old }] }

/-- A voice taken over in place: it plays the new note from its offset on (R126). -/
def Voice.takes (x : Voice) (s : Start) (b : Block) : Voice :=
  let u (w : OldValue) (old : Int) : Undo := { pick := s.startPick, off := s.offset * b.osr, what := w, old := old }
  { x with
    st := .sounding, note := s.note, key := s.key, noteId := s.noteId, unison := s.unison, program := s.program
    startFrame := s.startFrame, startPick := s.startPick, offset := s.offset, detached := false, next := none
    pKey := tablePitch b s.part s.key, attr := s.attr
    undo := keepUndo s.startPick x.undo ++ [u .pitch x.pKey, u .attr x.attr] }

/-- Voice `v` is taken over in place as voice `u` of the new group: an event-apply card with the retrigger flag, one unit, no fade,
and the sums as they are. At a booking the takeover and its card wait for the target pick (R137). -/
def takeOver (g : Group) (nt : Note) (ext : EvExt) (u v : Nat) (b : Block) : Block :=
  let x := b.voice v
  let s := startOf b g nt ext u
  let y : Voice := if g.book then { x with next := some s } else x.takes s b
  let b1 := takeUnit g.pick (v / 256) (b.setVoice v y)
  let b2 := { b1 with alc := { b1.alc with started := b1.alc.started + 1 } }
  if g.book then b2 else queueStart v y nt true false b2

/-- The old note no longer answers to NOTE_OFF. -/
def retireNote (k : Nat) (b : Block) : Block :=
  match b.note k with
  | some x => dropEmptyNote k (b.setNote k (some { x with gone := true }))
  | none => b

/-- Reuse the oldest note of the part and key that qualifies. -/
def reuse (g : Group) (nt : Note) (ext : EvExt) (b : Block) : Option Block :=
  let old := (partNotes b nt.part).filter fun kn => kn.1 != g.note && kn.2.key == nt.key
  old.findSome? fun kn => (reusable b g kn.1).map fun us =>
    retireNote kn.1 ((us.zip (List.range us.length)).foldl (fun acc vu => takeOver g nt ext vu.2 vu.1 acc) b)

/-! ### Plans (R118, R121) -/

/-- Place every voice of a group, or none. -/
def placeAll (f : Nat → Block → Option Block) (n : Nat) (b : Block) : Option Block :=
  (List.range n).foldl (fun acc u => acc.bind (f u)) (some b)

/-- The plan of one voice group (R119, R121, R123, R126); `stealing` is off at a booking (R137). -/
def planGroup (g : Group) (nt : Note) (ext : EvExt) (stealing : Bool) (b : Block) : Option Block :=
  let r := (b.part nt.part).retrig
  let place := placeAll (tryPlace g nt ext) g.ly.unison b
  let again := if r = 0 then none else reuse g nt ext b
  let stolen := if stealing then
      placeAll (fun u acc => match tryPlace g nt ext u acc with | some x => some x | none => steal g nt ext u acc) g.ly.unison b
    else none
  let pick2 (x y : Option Block) : Option Block := match x with | some _ => x | none => y
  if r = 2 then pick2 again (pick2 place stolen) else pick2 place (pick2 again stolen)

/-- A plan is judged against the 256 starts of the pick before it is committed (R118). -/
def within256 (x : Option Block) : Option Block := x.filter fun b => decide (b.alc.started ≤ 256)

/-- The layers of the part's current program that a key and velocity match (R114), with their numbers. -/
def matching (b : Block) (p key vel : Nat) : List (Nat × Layer) :=
  let ls := (b.layers (b.part p).program).getD []
  ((List.range ls.length).zip ls).filter fun il =>
    il.2.keyLo ≤ key && key ≤ il.2.keyHi && il.2.velLo ≤ vel && vel ≤ il.2.velHi

/-- The plan of one layer of note `k`; none when its program is not admitted (R98) or its group cannot be placed. -/
def planLayer (k : Nat) (nt : Note) (ext : EvExt) (pick offset : Nat) (book : Bool) (il : Nat × Layer) (b : Block) : Option Block :=
  match admitCost b il.2.prog with
  | none => none
  | some c =>
    planGroup { note := k, ix := il.1, ly := il.2, pick := pick, offset := offset, cost := c
                bytes := b.tmplBytes il.2.prog il.2.template, book := book } nt ext (!book) b

/-- Plan and commit the given layers of note `k` (R118, R121): all or nothing under ALLOC_LAYER_ATOMIC, else group by group. Answers
the layers placed. -/
def planNote (k : Nat) (nt : Note) (ext : EvExt) (pick offset : Nat) (book : Bool) (ls : List (Nat × Layer)) (b : Block) :
    List Nat × Block :=
  if (b.part nt.part).atomic then
    match within256 (ls.foldl (fun acc il => acc.bind (planLayer k nt ext pick offset book il)) (some b)) with
    | some b' => (ls.map (·.1), b')
    | none => ([], b)
  else
    ls.foldl (fun (acc : List Nat × Block) il =>
      match within256 (planLayer k nt ext pick offset book il acc.2) with
      | some b' => (acc.1 ++ [il.1], b')
      | none => acc) ([], b)

/-- The note of a released NOTE_ON. -/
def noteOf (x : Timed) : Note :=
  { part := x.ev.part, key := x.ev.key, noteId := x.ev.bits 23 16, vel := x.ev.bits 15 0, src := x.src, seq := x.seq
    startFrame := x.frame.getD 0 }

/-- Whether notes are admitted: not in a brown-out, in T3 or in the chip safe state (R417, R419, R432). -/
def admissionOpen (b : Block) : Bool := b.tbu.holds.isEmpty

/-- The pitch of a note that starts is where the next glide of its part starts (R133). -/
def setLastPitch (p key template : Nat) (attr : Int) (b : Block) : Block :=
  b.setPart p { b.part p with lastPitch := some (keyPitch b p key template attr) }

/-- A number for a note that begins now: the youngest. -/
def newNote (nt : Note) (b : Block) : Nat × Block :=
  let k := b.alc.nextNote
  let b1 := b.setNote k (some nt)
  (k, { b1 with alc := { b1.alc with nextNote := k + 1 } })

/-- Decide the given layers of note `k` in the pick in progress, with stealing (R117): a note of which no voice is placed is dropped, and
its source told (R125). -/
def startLayers (k : Nat) (nt : Note) (x : Timed) (ls : List (Nat × Layer)) (b : Block) : Block :=
  let b1 := (planNote k nt x.ev.ext b.pickNo x.offset false ls b).2
  if (noteVoices b1 k).isEmpty then noteDropped x.src x.seq (b1.setNote k none)
  else setLastPitch nt.part nt.key (((ls.head?).map (·.2.template)).getD 0) (attrOf x.ev.ext) b1

/-- Decide the given layers of a NOTE_ON in the pick in progress (R117): the note starts, or is dropped and its source told (R125). -/
def startNote (x : Timed) (ls : List (Nat × Layer)) (b : Block) : Block :=
  if !admissionOpen b then noteDropped x.src x.seq b
  else
    let (k, b1) := newNote (noteOf x) b
    startLayers k (noteOf x) x ls b1

/-- A NOTE_ON admitted as in POLY mode (R114, R117): one that matches no layer starts nothing and is counted. -/
def admitNote (x : Timed) (b : Block) : Block :=
  match matching b x.ev.part x.ev.key (x.ev.bits 15 0) with
  | [] => b.bump VAL_CNT4_nomatch
  | ls => startNote x ls b

end Sys2Proof.Machine
end

