-- ==== Sys2Proof/Machine/Notes.lean ====
section
/-! DEFINITION. Released note, part and voice events (R55–R58, R68, R70, R75, R116, R127–R133, R141, R145, R203), and the queries of
R140. Each released command takes the front released event when it has its opcode; otherwise nothing waits for it and the block
stands. -/

namespace Sys2Proof.Machine

/-- Whether a pedal or switch depth counts as down (R129, R130). -/
def down (depth : Nat) : Bool := 0x8000 ≤ depth

/-- Mirror a change to the harnesses at its offset (R58). -/
def mirror (p : Nat) (f : MirrorField) (v : Int) (o : Nat) (b : Block) : Block :=
  { b with alc := { b.alc with mirror := b.alc.mirror ++ [{ part := p, field := f, value := v, offset := o }] } }

/-- Queue the event-apply card of an event for one voice (R55, R82). A detached voice ignores a per-note value (R75, R203). -/
def queueApply (v : Nat) (x : Timed) (b : Block) : Block :=
  let a : Apply :=
    { voice := v, op := x.ev.op, data := x.ev.data, offset := x.offset
      ignore := (b.voice v).detached && (x.ev.op == 3 || x.ev.op == 5 || x.ev.op == 7) }
  queueFor a none b

/-- An event for a voice that is free at its release (R57). -/
def stale (b : Block) : Block := b.bump EFE_CNT_stale

/-! ### Release (R127, R129, R131) -/

/-- A release that needs no event-apply card. -/
def releaseCmd : VoiceCmd := { no := 0, pick := 0, off := 0, release := true, ready := true }

/-- Put one voice into release: its release frame is the event's presentation frame. A fading or booked voice is left. -/
def releaseVoice (v vel o : Nat) (b : Block) : Block :=
  let x := b.voice v
  if x.st == .sounding then
    mirror x.part (.release v) (vel : Int) o
      (b.setVoice v (({ x with st := .released, relFrame := b.pickNo * b.pick + b.lOut + o } : Voice).ask releaseCmd o b))
  else b

/-- Put every voice of a note into release, but those that fade. -/
def releaseNote (k o : Nat) (b : Block) : Block :=
  match b.note k with
  | none => b
  | some nt =>
    let b1 := b.setNote k (some { nt with sustained := false, released := true })
    (noteVoices b k).foldl (fun acc kv => releaseVoice kv.1 nt.relVel o acc) b1

/-- Whether a pedal holds a note of its part (R129, R130). -/
def pedalHolds (b : Block) (nt : Note) : Bool :=
  let p := b.part nt.part
  down p.sustain || (nt.latched && down p.sostenuto)

/-- End a note (R127, R129, R130): its voices go into release, unless a pedal holds it and it is marked sustained. `force` releases
it under a pedal too (R131). -/
def endNote (k vel o : Nat) (force : Bool) (b : Block) : Block :=
  match b.note k with
  | none => b
  | some nt =>
    if nt.released then (if force && nt.sustained then releaseNote k o b else b)
    else
      let nt1 := { nt with released := true, relVel := vel }
      if pedalHolds b nt && !force then b.setNote k (some { nt1 with sustained := true })
      else releaseNote k o (b.setNote k (some nt1))

/-- The note that a NOTE_OFF ends (R127): with note ID 0 the oldest of the part with that key and ID 0, else the one with the ID,
among those that answer and are neither ended, nor in release, nor fading. -/
def findNote (b : Block) (p key id : Nat) : Option Nat :=
  ((partNotes b p).find? fun kn =>
    !kn.2.released && noteHeld b kn &&
    (if id = 0 then kn.2.key == key && kn.2.noteId == 0 else kn.2.noteId == id)).map (·.1)

/-! ### MONO and LEGATO parts (R132, R133) -/

/-- The note that sounds in a part: the newest that is neither in release nor fading; a sustained one still sounds. -/
def soundingNote (b : Block) (p : Nat) : Option (Nat × Note) :=
  ((partNotes b p).filter fun kn => (!kn.2.released || kn.2.sustained) && noteHeld b kn).getLast?

/-- The key that mono_prio chooses among the held keys: last, lowest or highest. -/
def winner (prio : Nat) (keys : List (Nat × Nat)) : Option (Nat × Nat) :=
  match prio with
  | 1 => keys.foldl (fun acc k => match acc with | none => some k | some m => if k.1 < m.1 then some k else acc) none
  | 2 => keys.foldl (fun acc k => match acc with | none => some k | some m => if m.1 < k.1 then some k else acc) none
  | _ => keys.getLast?

/-- Push a held key: a key already on the stack moves to its top, and a full stack loses its oldest entry. -/
def pushKey (key vel : Nat) (keys : List (Nat × Nat)) : List (Nat × Nat) :=
  let l := keys.filter (fun k => k.1 != key) ++ [(key, vel)]
  l.drop (l.length - 16)

/-- Move a sounding note to another key: an event-apply card with the new pitch and velocity for each of its voices; `retrig` also
restarts the envelopes. A note that a pedal held is held by its new key again. -/
def moveNote (k key vel o : Nat) (ext : EvExt) (retrig : Bool) (b : Block) : Block :=
  match b.note k with
  | none => b
  | some nt =>
    let nt1 := { nt with key := key, vel := vel, released := false, sustained := false }
    let p := b.part nt.part
    let attr := attrOf ext
    let b1 := (noteVoices b k).foldl (fun acc kv =>
      if kv.2.st == .fading || kv.2.st == .booked then acc
      else
        let old (w : OldValue) (x : Int) (a : Block) : Block := noteUndo kv.1 a.pickNo o w x a
        let acc0 := old .attr kv.2.attr (old .pitch kv.2.pKey (old .key kv.2.key acc))
        let y := acc0.voice kv.1
        let acc1 := acc0.setVoice kv.1 { y with
          key := key, pKey := tablePitch acc nt.part key, attr := attr, st := if retrig then .sounding else y.st }
        let a : Apply := { voice := kv.1, op := 1, data := noteData nt1, offset := o, retrig := retrig, glide := glideOf p true }
        queueFor a (some { no := 0, pick := 0, off := 0, retrig := retrig, glide := a.glide }) acc1) (b.setNote k (some nt1))
    setLastPitch nt.part key (((noteVoices b k).head?.map (·.2.template)).getD 0) attr b1

/-- A NOTE_ON in a MONO or LEGATO part whose note sounds (R132): it pushes its key, and moves the note when the key wins. -/
def monoOn (p k key vel o : Nat) (ext : EvExt) (b : Block) : Block :=
  let pt := b.part p
  let keys := pushKey key vel pt.keys
  let b1 := b.setPart p { pt with keys := keys }
  if (winner pt.monoPrio keys).map (·.1) = some key then moveNote k key vel o ext (pt.mode == 1) b1 else b1

/-- Hold a key of a part that is not POLY. -/
def holdKey (p key vel : Nat) (b : Block) : Block :=
  let pt := b.part p
  if pt.mode = 0 then b else b.setPart p { pt with keys := pushKey key vel pt.keys }

/-! ### NOTE_ON and NOTE_OFF (R117, R127, R128, R132) -/

/-- A NOTE_ON with a nonzero note ID first ends the part's note with that ID (R128). -/
def endSameId (p id o : Nat) (b : Block) : Block :=
  match (if id = 0 then none else findNote b p 0 id) with
  | some k => endNote k 0x8000 o false b
  | none => b

/-- A NOTE_ON of a part that is POLY or silent (R117, R128). -/
def polyOn (x : Timed) (b : Block) : Block := admitNote x (endSameId x.ev.part (x.ev.bits 23 16) x.offset b)

/-- A NOTE_ON decided at its target pick (R117). -/
def noteOnAt (x : Timed) (b : Block) : Block :=
  let p := x.ev.part
  let pt := b.part p
  if pt.mode = 0 then polyOn x b
  else match soundingNote b p with
    | some (k, _) => monoOn p k x.ev.key (x.ev.bits 15 0) x.offset x.ev.ext b
    | none => holdKey p x.ev.key (x.ev.bits 15 0) (polyOn x b)

/-- A NOTE_OFF of a part (R127, R132). One of a key that a MONO or LEGATO part neither holds nor sounds acts as in POLY mode. -/
def noteOffPart (x : Timed) (b : Block) : Block :=
  let p := x.ev.part
  let pt := b.part p
  let key := x.ev.key
  let vel := x.ev.bits 15 0
  let now := soundingNote b p
  if pt.mode ≠ 0 ∧ (pt.keys.any (fun k => k.1 == key) ∨ (now.map (·.2.key)) = some key) then
    let keys := pt.keys.filter fun k => k.1 != key
    let b1 := b.setPart p { pt with keys := keys }
    match now with
    | some (k, nt) =>
      match winner pt.monoPrio keys with
      | none => endNote k vel x.offset false b1
      | some w => if nt.key = key then moveNote k w.1 w.2 x.offset .none false b1 else b1
    | none => b1
  else match findNote b p key (x.ev.bits 23 16) with
    | some k => endNote k vel x.offset false b
    | none => b

/-- A NOTE_OFF to a voice releases that voice alone; its event-apply card carries the velocity (R55, R127). -/
def noteOffVoice (v : Nat) (x : Timed) (b : Block) : Block :=
  let y := b.voice v
  if y.st == .free then stale b
  else
    let a : Apply := { voice := v, op := x.ev.op, data := x.ev.data, offset := x.offset }
    if y.st == .sounding then
      queueFor a (some { releaseCmd with ready := false })
        (b.setVoice v { y with st := .released, relFrame := b.pickNo * b.pick + b.lOut + x.offset })
    else queueFor a none b

/-! ### Per-note values (R56, R58, R75, R203) -/

/-- The voices of a part that a per-note event addresses (R56): with note ID 0 by the key of the NOTE_ON that started them. A detached
voice ignores it (R75, R128). -/
def addressed (b : Block) (p key id : Nat) : List (Nat × Voice) :=
  (voicesOf b).filter fun kv =>
    kv.2.part == p && !kv.2.detached && kv.2.st != .booked &&
    (if id = 0 then kv.2.noteId == 0 && kv.2.zoneKey == key else kv.2.noteId == id)

/-- Write a halfword of voice `v`'s parameter block at an offset of pick `p`; what it replaces is kept. -/
def writeParam (v p o at' val : Nat) (b : Block) : Block :=
  let b1 := noteUndo v p o (.param at') (Memory.num b.mem (ctxBase v + at') 2 : Nat) b
  { b1 with mem := Memory.setNum b1.mem (ctxBase v + at') 2 val }

/-- Write a value to every snapshot slot of voice `v` that tracks controller `c` (R203). -/
def writePnv (v p o c val : Nat) (b : Block) : Block :=
  (List.range 4).foldl (fun acc j =>
    if Memory.num acc.mem (ctxBase v + 0x3F0 + j) 1 = c ∧ c ≠ 255 then writeParam v p o (0x3F4 + 2 * j) val acc else acc) b

/-- Reset every snapshot value of voice `v` (R203). -/
def resetPnv (v p o : Nat) (b : Block) : Block := (List.range 4).foldl (fun a j => writeParam v p o (0x3F4 + 2 * j) 0x8000 a) b

/-- A pressure of voice `v`. -/
def writePressure (v p o val : Nat) (b : Block) : Block :=
  let b1 := noteUndo v p o .pressure (b.voice v).pressure b
  b1.setVoice v { b1.voice v with pressure := val }
/-- A per-note bend of voice `v`. -/
def writePnBend (v p o val : Nat) (b : Block) : Block :=
  let b1 := noteUndo v p o .pnBend (b.voice v).pnBend b
  b1.setVoice v { b1.voice v with pnBend := val }

/-- A per-note value reaches voice `v` at an offset of pick `p`: 3 POLY_PRESSURE, 5 PN_CONTROL, 7 PN_BEND. -/
def perNoteValue (op v p o c val : Nat) (b : Block) : Block :=
  match op with
  | 3 => writePressure v p o val b
  | 5 => writePnv v p o c val b
  | _ => writePnBend v p o val b

/-- What the mirror records of it. -/
def perNoteField (op v c : Nat) : MirrorField :=
  match op with
  | 3 => .pressure v
  | 5 => .pnCtl v c
  | _ => .pnBend v

/-- A released POLY_PRESSURE, PN_CONTROL or PN_BEND: mirrored to the note's voices, or an event-apply card for one voice. -/
def perNoteEvent (op : Nat) (x : Timed) (b : Block) : Block :=
  let val := x.ev.bits 15 0
  let c := if op = 5 then x.ev.bits 31 24 else 0
  if x.ev.kind = 1 then (if (b.voice x.ev.index).st == .free then stale b else queueApply x.ev.index x b)
  else
    (addressed b x.ev.part x.ev.key (x.ev.bits 23 16)).foldl (fun acc kv =>
      mirror x.ev.part (perNoteField op kv.1 c) (val : Int) x.offset (perNoteValue op kv.1 acc.pickNo x.offset c val acc)) b

/-- UMP Per-Note Management (R75, R203) at an offset: reset sets every snapshot value and the per-note bend of the key's voices to 0x8000
and their pressure to 0; detach detaches them. A detached voice ignores both. -/
def manageKey (p key o : Nat) (reset detach : Bool) (b : Block) : Block :=
  ((voicesOf b).filter fun kv => kv.2.part == p && kv.2.zoneKey == key && kv.2.st != .booked && !kv.2.detached).foldl (fun acc kv =>
    let v := kv.1
    let acc1 := if reset then
        mirror p (.pnReset v) 0x8000 o (writePressure v acc.pickNo o 0 (writePnBend v acc.pickNo o 0x8000 (resetPnv v acc.pickNo o acc)))
      else acc
    if detach then acc1.setVoice v { acc1.voice v with detached := true } else acc1) b

/-! ### Pedals (R129, R130) -/

/-- Set a pedal's depth at an offset: 0 sustain, 1 sostenuto, 2 soft. -/
def setPedal (p which depth o : Nat) (b : Block) : Block :=
  let pt := b.part p
  match which with
  | 0 =>
    let b1 := mirror p .sustain depth o (b.setPart p { pt with sustain := depth })
    if down pt.sustain && !down depth then
      (partNotes b1 p).foldl (fun acc kn =>
        if kn.2.sustained && !(kn.2.latched && down pt.sostenuto) then releaseNote kn.1 o acc else acc) b1
    else b1
  | 1 =>
    let b1 := mirror p .sostenuto depth o (b.setPart p { pt with sostenuto := depth })
    if !down pt.sostenuto && down depth then
      (partNotes b1 p).foldl (fun acc kn =>
        if (!kn.2.released || kn.2.sustained) && noteHeld b1 kn then acc.setNote kn.1 (some { kn.2 with latched := true }) else acc) b1
    else if down pt.sostenuto && !down depth then
      (partNotes b1 p).foldl (fun acc kn =>
        if kn.2.latched then
          let acc1 := acc.setNote kn.1 (some { kn.2 with latched := false })
          if kn.2.sustained && !down pt.sustain then releaseNote kn.1 o acc1 else acc1
        else acc) b1
    else b1
  | _ => mirror p .soft depth o (b.setPart p { pt with soft := depth })

/-! ### The part table (R58, R68, R70, R116, R141) -/

/-- Write a controller value (R58). -/
def setCtl (p c v o : Nat) (b : Block) : Block :=
  let pt := b.part p
  mirror p (.ctl c) v o (b.setPart p { pt with ctl := FMap.set (fun _ => 0) pt.ctl c v })

/-- CC 121 (R68, R141): volume, pan and expression at their defaults, every other controller 0, the bend centred, pedals up. -/
def ctlDefaults (p o : Nat) (b : Block) : Block :=
  let pt := b.part p
  let d := FMap.setAll (fun _ => 0) [] [(7, scaleUp 7 24 pt.vol), (10, scaleUp 7 24 pt.pan), (11, scaleUp 7 24 pt.expr)]
  let b1 := (List.range 129).foldl (fun acc c => mirror p (.ctl c) (FMap.get (fun _ => 0) d c : Nat) o acc)
    (b.setPart p { pt with ctl := d, bend := 0x8000 })
  setPedal p 2 0 o (setPedal p 1 0 o (setPedal p 0 0 o (mirror p .bend 0x8000 o b1)))

/-- The part-table change of a CONTROL (R55, R58) or of a MIDI message that has no native opcode (R68, R70, R73, R75). -/
def control (x : Timed) (b : Block) : Block :=
  let p := x.ev.part
  let o := x.offset
  let pt := b.part p
  match x.ev.ext with
  | .none | .pitch _ => setCtl p (x.ev.bits 31 24) (x.ev.bits 23 0) o b
  | .ctlDefaults => ctlDefaults p o b
  | .mono on => b.setPart p { pt with mode := if on then 1 else 0, keys := if on then pt.keys else [] }
  | .bendRange v => mirror p .bendRange (min 96 (v / 128) : Nat) o (b.setPart p { pt with bendRange := min 96 (v / 128) })
  | .transpose v => mirror p .transpose ((v / 128 : Nat) - 64 : Int) o (b.setPart p { pt with transpose := ((v / 128 : Nat) : Int) - 64 })
  | .modRange v => mirror p .modRange v o (b.setPart p { pt with modRange := v })
  | .pnRange v => mirror p .pnBendRange (min 96 (v / 128) : Nat) o (b.setPart p { pt with pnBendRange := min 96 (v / 128) })
  | .manage key reset detach => manageKey p key o reset detach b
  -- a legacy write is never a released CONTROL: it goes to its pick list (R365)
  | .legacy _ _ _ _ => b

/-- End every note of a part (R131); a MONO part's held keys go with its note. -/
def allOffPart (force : Bool) (o : Nat) (p : Nat) (b : Block) : Block :=
  let b1 := (partNotes b p).foldl (fun acc kn =>
    if noteFading acc kn.1 || kn.2.booked then acc else endNote kn.1 0x8000 o force acc) b
  b1.setPart p { b1.part p with keys := [] }

/-- The fade of a KILL for a voice (R55): 0 the part's steal fade, 1–15 as 16, 16–512 as written. -/
def killFade (b : Block) (v data : Nat) : Nat :=
  if data = 0 then min 512 (max 16 (b.part (b.voice v).part).stealFade) else max 16 data

/-- KILL (R105): every voice of the target fades at level 0 from this pick. -/
def kill (x : Timed) (b : Block) : Block :=
  let data := x.ev.bits 9 0
  if x.ev.kind = 1 then
    (if (b.voice x.ev.index).st == .free then stale b else startFade x.ev.index (killFade b x.ev.index data) b)
  else
    ((voicesOf b).filter fun kv => x.ev.kind == 3 || kv.2.part == x.ev.part).foldl
      (fun acc kv => startFade kv.1 (killFade acc kv.1 data) acc) b

/-! ### The released commands -/

/-- Act on the front released event when it has the opcode. -/
def onReleased (op : Nat) (f : Timed → Block → Block) (b : Block) : Block :=
  match takeReleased op b with
  | some (x, b1) => f x b1
  | none => b

/-- A released NOTE_OFF. -/
def noteOff (x : Timed) (b : Block) : Block := if x.ev.kind = 1 then noteOffVoice x.ev.index x b else noteOffPart x b

/-- A released PITCH_BEND. -/
def pitchBend (x : Timed) (b : Block) : Block :=
  let p := x.ev.part
  mirror p .bend (x.ev.bits 15 0 : Nat) x.offset (b.setPart p { b.part p with bend := x.ev.bits 15 0 })

/-- A released PROGRAM (R116). -/
def program (x : Timed) (b : Block) : Block := b.setPart x.ev.part { b.part x.ev.part with program := x.ev.bits 11 0 }

/-- A released PARAM goes to its voice by an event-apply card (R55, R145). -/
def param (x : Timed) (b : Block) : Block :=
  if (b.voice x.ev.index).st == .free then stale b else queueApply x.ev.index x b

/-- A released ALL_OFF (R131). -/
def allOff (x : Timed) (b : Block) : Block :=
  let force := x.ev.oflags % 2 == 1
  if x.ev.kind = 3 then (List.range 64).foldl (fun acc p => allOffPart force x.offset p acc) b
  else allOffPart force x.offset x.ev.part b

/-- A released PEDAL (R129, R130). -/
def pedal (x : Timed) (b : Block) : Block := setPedal x.ev.part (x.ev.bits 1 0) (x.ev.bits 31 16) x.offset b

/-- A released TUNE (R55): oflags[0] sets the tuning table of later notes, oflags[1] the fine tune, which is live (R147). -/
def tune (x : Timed) (b : Block) : Block :=
  let p := x.ev.part
  let b1 := if x.ev.oflags % 2 = 1 then b.setPart p { b.part p with tuning := x.ev.bits 3 0 } else b
  if x.ev.oflags / 2 % 2 = 1 then
    let fine := (BitVec.ofNat 16 (x.ev.bits 31 16)).toInt
    mirror p .fine fine x.offset (b1.setPart p { b1.part p with fine := fine })
  else b1

/-! ### Queries (R140) -/

/-- The voice state code of a query. -/
def stateCode (b : Block) (v : Nat) : Nat :=
  let x := b.voice v
  match x.st with
  | .free => 0
  | .booked => 1
  | .sounding => match b.note x.note with
    | some nt => if nt.sustained then 3 else 2
    | none => 2
  | .released => 4
  | .fading => 5

/-- The four results of a query; none for a reserved op or a bad index. -/
def queryAnswer (b : Block) (op index : Nat) : Option (List Nat) :=
  match op with
  | 0 =>
    if index ≥ 8192 then none
    else
      let x := b.voice index
      if x.st == .free then some [0, 0, 0, 0]
      else some [stateCode b index + x.part * 256 + x.key * 65536,
        x.noteId + x.layer * 256 + x.unison * 4096 + x.program * 65536, x.startFrame % 2 ^ 32,
        if x.st == .booked then 0 else b.envOut index]
  | 1 =>
    if index ≥ 64 then none
    else
      let p := b.part index
      let vs := (voicesOf b).filter fun kv => kv.2.part == index
      let ns := partNotes b index
      some [vs.length + (vs.filter fun kv => kv.2.st == .booked).length * 65536,
        p.program + p.pool * 4096 + (if p.pool = 0 then 0 else FMap.get (fun _ => 0) b.alc.hop p.pool % 65536) * 65536,
        (ns.filter fun kn => !kn.2.released && noteHeld b kn).length + (ns.filter fun kn => kn.2.sustained && noteHeld b kn).length * 65536,
        if p.pool = 0 then 0 else FMap.get (fun _ => 0) b.alc.horizon p.pool]
  | 2 =>
    if index ≥ 32 then none
    else
      let vs := (voicesOf b).filter fun kv => kv.1 / 256 == index
      some [vs.length + (vs.filter fun kv => kv.2.st == .fading).length * 65536,
        (BitVec.ofInt 32 (capA b index - (admitted b index : Nat))).toNat, FMap.get (fun _ => 0) b.dlr.steal index / 16 % 65536,
        unitsUsed b b.pickNo index]
  | _ => none

/-- Answer the query in progress: the results and done are written in one cycle. -/
def answerQuery (b : Block) : Block :=
  match b.alc.query with
  | none => b
  | some (op, index) =>
    let a := queryAnswer b op index
    let l := a.getD [0, 0, 0, 0]
    let b1 := (List.range 4).foldl (fun acc i => acc.setNum (VAL_QRY_RES i) (l.getD i 0)) b
    let b2 := ((b1.put VAL_QRY_STAT_err (if a.isSome then 0 else 1)).put VAL_QRY_STAT_busy 0).put VAL_QRY_STAT_done 1
    ({ b2 with alc := { b2.alc with query := none } }).flag VAL_IRQ_STAT_qry_done

/-- A write of VAL_QRY_CMD (R140): ignored while busy. The answer comes at the end of step 2 of the pick in progress, or of the next
when step 2 has ended. -/
def queryCommand (v : Word) (b : Block) : Block :=
  if b.on VAL_QRY_STAT_busy then b.flag VAL_QRY_STAT_ovr
  else
    let b1 := (b.put VAL_QRY_STAT_busy 1).put VAL_QRY_STAT_done 0
    { b1 with alc := { b1.alc with query := some (bitsOf v.toNat 17 16, bitsOf v.toNat 13 0) } }

/-! ### MIDI Tuning Standard (R148) -/

/-- The firmware writes a table's keys; the change reaches the harnesses at the next pick boundary. `retune`: sounding voices of
parts on that table take the new pitch. -/
def tuningWrite (table : Nat) (l : List (Nat × Nat)) (retune : Bool) (b : Block) : Block :=
  { b with alc := { b.alc with tuningNext := b.alc.tuningNext ++ l.map fun kv => (table, kv.1, kv.2, retune) } }

/-- The pitch of an MTS entry: xx × 65,536 + (yyzz << 2); none for 7F 7F 7F, which leaves the key unchanged. -/
def mtsPitch (xx yy zz : Nat) : Option Nat :=
  if xx = 127 ∧ yy = 127 ∧ zz = 127 then none else some (xx * 65536 + (yy * 128 + zz) * 4)

/-- Apply the tuning changes at a pick boundary, as mirrored changes at offset 0. -/
def applyTuning (b : Block) : Block :=
  let b1 := b.alc.tuningNext.foldl (fun acc x =>
    let (table, key, v, retune) := x
    let acc1 := { acc with alc := { acc.alc with
      tuning := FMap.set (fun i => i % 128 * 65536) acc.alc.tuning (table * 128 + key) v } }
    let acc2 := mirror 0 (.tuningKey table key) (v : Int) 0 acc1
    if retune then
      (voicesOf acc2).foldl (fun a kv =>
        if (a.part kv.2.part).tuning = table ∧ kv.2.key = key ∧ kv.2.st ≠ .booked then a.setVoice kv.1 { a.voice kv.1 with pKey := v }
        else a) acc2
    else acc2) b
  { b1 with alc := { b1.alc with tuningNext := [] } }

end Sys2Proof.Machine
end

