-- ==== Sys2Proof/Machine/Legacy.lean ====
section
/-! DEFINITION. The DV32 personality (chapter 15): the instrument of R357 with its tables (R358), the legacy port (R361–R364), the pick
lists (R365, R366) and the readback image (R370). -/

namespace Sys2Proof.Machine

/-! ### Tables (R358) -/

/-- F[cut] (R358). -/
def dvF : List Nat :=
  [93, 95, 98, 100, 102, 104, 106, 109, 111, 113, 116, 118, 121, 124, 126, 129, 132, 135, 138, 141, 144, 147, 150, 154, 157, 160, 164, 168, 171, 175, 179, 183] ++
  [187, 191, 195, 199, 204, 208, 213, 217, 222, 227, 232, 237, 242, 247, 253, 258, 264, 270, 276, 282, 288, 294, 301, 307, 314, 321, 328, 335, 342, 350, 358, 365] ++
  [373, 382, 390, 399, 407, 416, 425, 435, 444, 454, 464, 474, 484, 495, 506, 517, 528, 540, 552, 564, 576, 589, 601, 615, 628, 642, 656, 670, 685, 700, 715, 731] ++
  [747, 763, 780, 797, 815, 832, 851, 869, 888, 908, 928, 948, 969, 990, 1012, 1034, 1056, 1079, 1103, 1127, 1152, 1177, 1203, 1229, 1256, 1284, 1312, 1341, 1370, 1400, 1431, 1462] ++
  [1494, 1527, 1560, 1594, 1629, 1665, 1701, 1738, 1776, 1815, 1855, 1896, 1937, 1980, 2023, 2067, 2112, 2159, 2206, 2254, 2304, 2354, 2405, 2458, 2512, 2567, 2623, 2680, 2739, 2799, 2860, 2923] ++
  [2987, 3052, 3119, 3187, 3257, 3328, 3401, 3476, 3552, 3629, 3709, 3790, 3873, 3957, 4044, 4132, 4223, 4315, 4409, 4506, 4604, 4705, 4808, 4913, 5020, 5130, 5242, 5356, 5474, 5593, 5715, 5840] ++
  [5968, 6098, 6231, 6367, 6506, 6648, 6793, 6941, 7093, 7247, 7405, 7567, 7732, 7900, 8072, 8248, 8428, 8611, 8799, 8990, 9186, 9385, 9590, 9798, 10011, 10228, 10450, 10677, 10909, 11145, 11387, 11634] ++
  [11886, 12143, 12406, 12674, 12948, 13227, 13513, 13804, 14102, 14406, 14716, 15032, 15355, 15685, 16022, 16365, 16716, 17073, 17438, 17810, 18190, 18577, 18973, 19376, 19787, 20206, 20633, 21069, 21513, 21966, 22427, 22898]

/-- RT[rate] (R358). -/
def dvRT : List Nat :=
  [1, 1, 1, 1, 1, 1, 1, 1, 1, 1, 1, 1, 1, 1, 2, 2, 2, 3, 3, 4, 5, 6, 7, 8, 10, 11, 13, 16, 19, 23, 27, 32] ++
  [38, 45, 54, 64, 76, 90, 108, 128, 152, 181, 215, 256, 304, 362, 430, 512, 609, 724, 861, 1024, 1217, 1448, 1722, 2047, 2435, 2895, 3443, 4095, 4870, 5791, 6887, 8189]

/-- PL[pan] and PR[pan] (R358). -/
def dvPL : List Nat := [255, 254, 249, 243, 233, 221, 206, 190, 171, 150, 128, 104, 79, 53, 27, 0]
def dvPR : List Nat := [0, 27, 53, 79, 104, 127, 150, 171, 190, 206, 221, 233, 243, 249, 254, 255]

/-- Q[res] (R358). -/
def dvQ (res : Nat) : Nat := 32768 - 2048 * res

/-- The entry that LEG_TBL_DATA returns at an index (R358). -/
def dvTable (i : Nat) : Nat :=
  if i < 256 then dvF.getD i 0
  else if i < 320 then dvRT.getD (i - 256) 0
  else if i < 336 then dvQ (i - 320)
  else if i < 352 then dvPL.getD (i - 336) 0 + 256 * dvPR.getD (i - 336) 0
  else 0

/-! ### The instrument (R357) -/

/-- A register of a context at a DV32 address. -/
def dvReg (r : FMap Nat) (a : Nat) : Nat := FMap.get (fun _ => 0) r a
/-- A little-endian field of `n` registers. -/
def dvField (r : FMap Nat) (a n : Nat) : Nat :=
  (List.range n).foldl (fun acc i => acc + dvReg r (a + i) * 256 ^ i) 0
/-- START, LSTART, END and INC (R363). -/
def dvStart (r : FMap Nat) : Nat := dvField r 0x01 3
def dvLstart (r : FMap Nat) : Nat := dvField r 0x04 3
def dvEnd (r : FMap Nat) : Nat := dvField r 0x07 3
def dvInc (r : FMap Nat) : Nat := dvField r 0x0A 3 % 2 ^ 20
/-- The LOOP bit of CTRL. -/
def dvLoop (r : FMap Nat) : Bool := dvReg r 0x00 / 2 % 2 == 1

/-- dv12 of a word of a sample memory (R357). -/
def dv12 (word : Nat → Nat) (a : Nat) : Int := (BitVec.ofNat 12 (word a / 16)).toInt

/-- advance_envelope (R357). -/
def dvEnvelope (r : FMap Nat) (s : DvState) : DvState :=
  let rate (a : Nat) := dvRT.getD (dvReg r a % 64) 0
  match s.phase with
  | 0 =>
    let e := min 0xFFFF (s.env + rate 0x0F)
    { s with env := e, phase := if e = 0xFFFF then 1 else 0 }
  | 1 =>
    let floor := dvReg r 0x11 * 257
    let e := max floor (s.env - rate 0x10)
    { s with env := e, phase := if e = floor then 2 else 1 }
  | 2 => s
  | _ =>
    let e := s.env - rate 0x12
    { s with env := e, playing := e != 0 && s.playing }

/-- advance_position (R357). -/
def dvPosition (r : FMap Nat) (s : DvState) : DvState :=
  let pos := s.pos + dvInc r
  if pos / 65536 < dvEnd r then { s with pos := pos }
  else if dvLoop r ∧ dvLstart r < dvEnd r then
    let st := dvLstart r * 65536
    { s with pos := st + (pos - st) % ((dvEnd r - dvLstart r) * 65536) }
  else { s with pos := pos % 2 ^ 40, playing := false, endf := true }

/-- A sample's four contributions of a voice: main left and right, send left and right. -/
structure DvMix where
  ml : Int := 0
  mr : Int := 0
  sl : Int := 0
  sr : Int := 0
deriving DecidableEq, Repr

/-- One sample of a voice (R357). -/
def dvVoice (word : Nat → Nat) (r : FMap Nat) (s : DvState) : DvMix × DvState :=
  if !s.playing then ({}, s)
  else
    let a := s.pos / 65536
    let f := s.pos % 65536
    let s0 := dv12 word a
    let s1 := dv12 word ((a + 1) % 2 ^ 24)
    let x := s0 * 16 + asr ((s1 - s0) * (f / 16 : Nat)) 8
    let k : Int := (dvF.getD (dvReg r 0x0D) 0 : Nat)
    let lp := satInt 18 (s.lp + asr (k * s.bp) 15)
    let hp := satInt 18 (x - lp - asr ((dvQ (dvReg r 0x0E % 16) : Nat) * s.bp) 14)
    let bp := satInt 18 (s.bp + asr (k * hp) 15)
    let y := asr (asr (lp * (s.env : Nat)) 16 * (dvReg r 0x14 : Nat)) 8
    let pan := dvReg r 0x13 % 16
    let ml := asr (y * (dvPL.getD pan 0 : Nat)) 8
    let mr := asr (y * (dvPR.getD pan 0 : Nat)) 8
    let send : Int := (dvReg r 0x15 : Nat)
    ({ ml := ml, mr := mr, sl := asr (ml * send) 8, sr := asr (mr * send) 8 },
      dvPosition r (dvEnvelope r { s with lp := lp, bp := bp }))

/-- The running sums of R357 with one more contribution. -/
def DvMix.add (x y : DvMix) : DvMix :=
  { ml := satInt 18 (x.ml + y.ml), mr := satInt 18 (x.mr + y.mr), sl := satInt 18 (x.sl + y.sl), sr := satInt 18 (x.sr + y.sr) }

/-- The outputs of a sample: MUTE, MVOL and SVOL of the globals (R357). -/
def DvMix.out (g : FMap Nat) (x : DvMix) : DvMix :=
  if dvReg g 0x20 % 2 = 1 then {}
  else
    let mv : Int := (dvReg g 0x21 : Nat)
    let sv : Int := (dvReg g 0x22 : Nat)
    { ml := asr (x.ml * mv) 8, mr := asr (x.mr * mv) 8, sl := asr (x.sl * sv) 8, sr := asr (x.sr * sv) 8 }

/-- A timed write to a voice's register (R363): CTRL also starts the voice or puts a playing one in release. -/
def dvWrite (a x : Nat) (rs : FMap Nat × DvState) : FMap Nat × DvState :=
  let r := FMap.set (fun _ => 0) rs.1 a (x % 256)
  if a = 0 then
    (if x % 2 = 1 then
      (r, { playing := true, pos := dvStart r * 65536, phase := 0, env := 0, lp := 0, bp := 0, endf := false })
     else (r, if rs.2.playing then { rs.2 with phase := 3 } else rs.2))
  else (r, rs.2)

/-- The writes of a list at offset `o`, in order. -/
def dvWritesAt (l : List (Nat × Nat × Nat)) (o : Nat) (rs : FMap Nat × DvState) : FMap Nat × DvState :=
  (l.filter fun x => x.1 == o).foldl (fun acc x => dvWrite x.2.1 x.2.2 acc) rs

/-- A voice in a pick: its registers and its playing state so far, its contributions, one for each sample, and whether it has read
outside its windows. -/
structure DvPass where
  regs : FMap Nat
  st : DvState
  mix : List DvMix := []
  clamp : Bool := false
deriving DecidableEq, Repr

/-- Sample `o` of a pick: the writes applied to it, then the sample (R356, R357, R365). `inside`: the addresses of the windows. -/
def dvStep (word : Nat → Nat) (inside : Nat → Bool) (l : List (Nat × Nat × Nat)) (x : DvPass) (o : Nat) : DvPass :=
  let w := dvWritesAt l o (x.regs, x.st)
  let r := dvVoice word w.1 w.2
  let a := w.2.pos / 65536
  { regs := w.1, st := r.2, mix := x.mix ++ [r.1]
    clamp := x.clamp || (w.2.playing && !(inside a && inside ((a + 1) % 2 ^ 24))) }

/-- A voice over the `p` samples of a pick with its list (R356, R365). -/
def dvRun (word : Nat → Nat) (inside : Nat → Bool) (p : Nat) (l : List (Nat × Nat × Nat)) (r : FMap Nat) (s : DvState) : DvPass :=
  (List.range p).foldl (dvStep word inside l) { regs := r, st := s }

/-- The outputs of an instance over the `p` samples of a pick from its sums, with the writes of its globals' list (R357, R370). -/
def dvOutputs (p : Nat) (l : List (Nat × Nat × Nat)) (g : FMap Nat) (sums : List DvMix) : List DvMix :=
  ((List.range p).foldl (fun (acc : FMap Nat × List DvMix) o =>
    let w := (l.filter fun x => x.1 == o).foldl (fun m x => FMap.set (fun _ => 0) m x.2.1 (x.2.2 % 256)) acc.1
    (w, acc.2 ++ [(sums.getD o {}).out w])) (g, [])).2

/-! ### State access -/

/-- The port of instance `i`. -/
def dvPort (b : Block) (i : Nat) : DvPort := FMap.get (fun _ => {}) b.leg.ports i
/-- Set the port of instance `i`. -/
def setDvPort (i : Nat) (p : DvPort) (b : Block) : Block := { b with leg := { b.leg with ports := FMap.set (fun _ => {}) b.leg.ports i p } }
/-- Context `v` of instance `i`. -/
def dvCtx (b : Block) (i v : Nat) : DvContext := FMap.get (fun _ => {}) b.leg.ctx (64 * i + v)
/-- Set context `v` of instance `i`. -/
def setDvCtx (i v : Nat) (c : DvContext) (b : Block) : Block :=
  { b with leg := { b.leg with ctx := FMap.set (fun _ => {}) b.leg.ctx (64 * i + v) c } }
/-- Whether instance `i` is enabled (R356). -/
def dvOn (b : Block) (i : Nat) : Bool := b.bit LEG_CTL_en i
/-- Word `a` of the sample memory of instance `i`; at or beyond its length it reads 0. -/
def dvWord (b : Block) (i a : Nat) : Nat :=
  if a < b.get (LEG_INST_LEN_words i) then Memory.num b.mem (b.num (LEG_INST_BASE i) % 2 ^ 40 + 2 * a) 2 else 0
/-- The flow of context `v` of instance `i` (R366). -/
def dvFlow (i v : Nat) : Nat := 256 * i + 4 * v

/-- The delay in force (R364). -/
def dvDelay (b : Block) : Nat := max (b.get LEG_CFG_delay) (b.lOut + b.pick)

/-- Declared cost of the DV32 program (R368). -/
def dvCost (output : Bool) (n : Nat) : Nat :=
  if output then [1400, 1800, 2600, 4200, 7400].getD (costIx n) 0 else [2900, 3500, 4700, 7100, 11900].getD (costIx n) 0

/-- Whether the bound of R368 is broken at the rate in force. -/
def dvOverload (b : Block) : Bool := capU b < 32 * dvCost false b.nInt + dvCost true b.nInt

/-- LEG_STAT.overload follows the bound while an instance is enabled (R368), and its interrupt tells that it was set. -/
def judgeOverload (b : Block) : Block :=
  let now := b.get LEG_CTL_en != 0 && dvOverload b
  let b1 := b.put LEG_STAT_overload (if now then 1 else 0)
  if now && !b.on LEG_STAT_overload then b1.flag LEG_IRQ_STAT_overload else b1

/-! ### The port (R361–R364, R371) -/

/-- LIRQ_N is low (R371). -/
def lirqLow (b : Block) : Bool := (List.range 4).any fun i => dvOn b i && (dvPort b i).irqEn && (dvPort b i).endf != 0

/-- The image key of a written address: a voice address under the page. -/
def dvKey (p : DvPort) (a : Nat) : Nat := if a < 0x20 then p.page * 64 + a else a

/-- Keep the last written value. -/
def dvKeep (i a x : Nat) (b : Block) : Block :=
  let p := dvPort b i
  setDvPort i { p with image := FMap.set (fun _ => 0) p.image (dvKey p a) x } b

/-- A timed write of instance `i` (R361, R364): until pick 0 starts it updates the register image at once (R374); then it enters the
port buffer as an event of source 6 with t = F_a + 1 + delay. Either way it takes a number (R63). -/
def dvTimed (i a x : Nat) (b : Block) : Block :=
  let v := if a < 0x20 then (dvPort b i).page else 32
  let b1 := dvKeep i a x b
  if !b.tbu.started then
    let c := dvCtx b1 i v
    let (r, s) := dvWrite a x (c.regs, c.st)
    submit 6 true [] 0 false (setDvCtx i v { c with regs := r, st := if v = 32 then c.st else s } b1)
  else
    let e : Ev := { time := BitVec.ofNat 64 (b.sample + 1 + dvDelay b), head := 0x1100, ext := .legacy i v a x }
    submit 6 true [e] 0 false b1

/-- A write to a read-only or reserved address is counted (R363). -/
def dvIgnored (b : Block) : Block := b.bump LEG_CNT_ign

/-- The voice registers whose writes are timed (0x01–0x15), MVOL and SVOL (R363). -/
def dvTimedAddr (a : Nat) : Bool := (1 ≤ a && a ≤ 0x15) || a == 0x21 || a == 0x22
/-- The read-only and reserved addresses (R363). -/
def dvIgnoredAddr (a : Nat) : Bool :=
  (0x16 ≤ a && a ≤ 0x1F) || a == 0x23 || (0x28 ≤ a && a ≤ 0x3E)

/-- A write of GCTRL (R363): MUTE is timed; irq_en acts on arrival, unless the write finds the port buffer full (R361). -/
def dvGctrl (i x : Nat) (b : Block) : Block :=
  let b1 := dvTimed i 0x20 x b
  if queueFull b 6 1 then b1 else setDvPort i { dvPort b1 i with irqEn := x / 2 % 2 == 1 } b1

/-- A captured write that acts on arrival or not at all takes a number and passes with ACC_OK (R63); one that finds the port buffer full
is refused (R361). -/
def dvCaptured (f : Block → Block) (b : Block) : Block :=
  if queueFull b 6 1 then (submit 6 true [] 0 false (b.bump LEG_CNT_rej)).flag LEG_IRQ_STAT_rej else submit 6 true [] 0 false (f b)

/-- A write of ENDF byte `k` (R363): ones clear, on arrival, but not a flag that a readback update sets in that cycle (R371). -/
def dvEndf (i k x : Nat) (b : Block) : Block :=
  let p := dvPort b i
  let fresh := if p.upT = some b.now then p.fresh else 0
  setDvPort i { p with endf := (p.endf - (p.endf &&& (x % 256 * 256 ^ k))) ||| fresh } b

/-- A write of PAGE (R363). -/
def dvPage (i x : Nat) (b : Block) : Block := setDvPort i { dvPort b i with page := x % 32 } b

/-- The readback positions that a read of POS0 takes: in the cycle of an update those from before it (R362). -/
def dvPositions (b : Block) (p : DvPort) : FMap Nat := if p.upT = some b.now then p.posWas else p.pos

/-- The byte that a read of address `a` returns (R361, R363). -/
def dvRead (b : Block) (i a : Nat) : Nat :=
  let p := dvPort b i
  if a < 0x16 then FMap.get (fun _ => 0) p.image (p.page * 64 + a)
  else if a = 0x16 then FMap.get (fun _ => 0) (dvPositions b p) p.page % 256
  else if a = 0x17 then p.shadow % 256
  else if a = 0x18 then p.shadow / 256 % 256
  else if a = 0x19 then FMap.get (fun _ => 0) p.vstat p.page
  else if 0x20 ≤ a ∧ a < 0x23 then FMap.get (fun _ => 0) p.image a
  else if 0x24 ≤ a ∧ a < 0x28 then p.endf / 256 ^ (a - 0x24) % 256
  else if 0x28 ≤ a ∧ a < 0x2C then
    (List.range 8).foldl (fun acc j => acc + FMap.get (fun _ => 0) p.vstat (8 * (a - 0x28) + j) % 2 * 2 ^ j) 0
  else if a = 0x3F then p.page
  else 0

/-- A read of POS0 latches the middle and high bytes of the position (R362). -/
def dvPos0 (i : Nat) (b : Block) : Block :=
  let p := dvPort b i
  setDvPort i { p with shadow := FMap.get (fun _ => 0) (dvPositions b p) p.page / 256 } b

/-! ### Step 2 and cycle 0 of a pick -/

/-- Let the registers of every context take the writes of the list of the pick before, and empty it. -/
def dvRetire (b : Block) : Block :=
  { b with leg := { b.leg with ctx := b.leg.ctx.foldl (fun acc kv =>
      let c := kv.2
      let r := c.list.foldl (fun m x => FMap.set (fun _ => 0) m x.2.1 (x.2.2 % 256)) c.regs
      FMap.set (fun _ => {}) acc kv.1 { c with regs := r, list := [], clamp := false }) [] } }

/-- The bytes that the hardware writes to the parameter block of a context (R366). -/
def dvBlock (v : Nat) (c : DvContext) : List Byte :=
  let base := if v = 32 then 0x20 else 0
  let image := (List.range 32).map fun j => BitVec.ofNat 8 (dvReg c.regs (base + j))
  let entries := c.list.foldl (fun acc x => acc ++ [BitVec.ofNat 8 x.1, BitVec.ofNat 8 x.2.1, BitVec.ofNat 8 x.2.2, 0]) []
  image ++ leBytes 2 c.list.length ++ List.replicate 30 0 ++ entries

/-- The timed legacy writes released at this pick enter their contexts' pick lists, and the hardware writes the blocks of every enabled
instance (R365, R366). -/
def dvFill (b : Block) : Block :=
  let isLegacy (x : Timed) : Bool := match x.ev.ext with | .legacy _ _ _ _ => true | _ => false
  let mine := b.efe.released.filter isLegacy
  let b0 := dvRetire { b with efe := { b.efe with released := b.efe.released.filter fun x => !isLegacy x } }
  let b1 := mine.foldl (fun acc x =>
    match x.ev.ext with
    | .legacy i v a y => let c := dvCtx acc i v; setDvCtx i v { c with list := c.list ++ [(x.offset, a, y)] } acc
    | _ => acc) b0
  (List.range 4).foldl (fun acc i =>
    if dvOn acc i then
      (List.range 33).foldl (fun a v =>
        { a with mem := Memory.setBytes a.mem (ctxBase (dvFlow i v)) (dvBlock v (dvCtx a i v)) }) acc
    else acc) b1

/-- VSTAT of a voice (R363). -/
def dvVstat (s : DvState) : Nat := (if s.playing then 1 else 0) + 2 * s.phase

/-- The readback image at cycle 0 of a pick (R370): positions, VSTAT and playing bits from the committed states; the end flags set since
the readback before are ORed into ENDF. -/
def dvReadback (b : Block) : Block :=
  (List.range 4).foldl (fun acc i =>
    if !dvOn acc i then acc
    else
      let vs := (List.range 32).map fun v => (v, (dvCtx acc i v).st)
      let p := dvPort acc i
      let flags := (vs.filter fun x => x.2.endf).foldl (fun (m : Nat) x => m ||| 2 ^ x.1) 0
      let p1 := { p with
        pos := FMap.setAll (fun _ => 0) p.pos (vs.map fun x => (x.1, x.2.pos / 65536))
        vstat := FMap.setAll (fun _ => 0) p.vstat (vs.map fun x => (x.1, dvVstat x.2))
        endf := p.endf ||| flags
        upT := some acc.now, posWas := p.pos, fresh := flags }
      let a1 := setDvPort i p1 acc
      let a2 := (vs.filter fun x => x.2.endf).foldl (fun a x =>
        let c := dvCtx a i x.1; setDvCtx i x.1 { c with st := { c.st with endf := false } } a) a1
      if flags = 0 then a2 else a2.setBit LEG_IRQ_STAT_endf i) b

/-- Whether a context's card waits for stream windows (R369): a voice that plays or is keyed in the pick. -/
def dvNeedsWindow (b : Block) (i v : Nat) : Bool :=
  let c := dvCtx b i v
  v < 32 && (c.st.playing || c.list.any fun x => x.2.1 == 0 && x.2.2 % 2 == 1)

/-- Where windows A and B of a voice start (R369), none where there is no such window. -/
def dvWindows (c : DvContext) : Option Nat × Option Nat :=
  -- the STARTs that the key-ons of the list take, in order
  let keys := (c.list.foldl (fun (acc : FMap Nat × List Nat) x =>
    let r := FMap.set (fun _ => 0) acc.1 x.2.1 (x.2.2 % 256)
    (r, if x.2.1 = 0 ∧ x.2.2 % 2 = 1 then acc.2 ++ [dvStart r] else acc.2)) (c.regs, []))
  let loop := if dvLoop keys.1 then some (dvLstart keys.1) else none
  if c.st.playing then (some (c.st.pos / 65536), match keys.2 with | s :: _ => some s | [] => loop)
  else match keys.2 with
    | [] => (none, none)
    | s :: rest => (some s, match rest with | u :: _ => some u | [] => loop)

/-- The bytes that an enabled instance's voices charge to each channel per pick (R369). -/
def dvBytes (b : Block) : Nat :=
  let one := 64 * (ceilDiv ((16 * b.pick + 2) * 2) 64 + 1)
  ((List.range 4).filter (dvOn b)).length * 32 * one

/-- A read of a legacy voice outside both windows (R369): the pick counts once for the instance. -/
def dvClamp (i v : Nat) (b : Block) : Block :=
  if (List.range 33).any fun w => (dvCtx b i w).clamp then b
  else ((setDvCtx i v { dvCtx b i v with clamp := true } b).bump LEG_CNT_clamp).flag LEG_IRQ_STAT_clamp

/-- Whether address `a` lies in the window of `n` words that starts at `start`. -/
def dvInside (n a : Nat) (start : Option Nat) : Bool :=
  match start with
  | some s => decide ((a + 2 ^ 24 - s) % 2 ^ 24 < n)
  | none => false

/-- The word that a read at `a` outside both windows gives (R215, R369): the nearest one of a window; which window is free. -/
def dvClamped (b : Block) (i v n a : Nat) (w : Option Nat × Option Nat) : Nat :=
  let start := if Config.dvClampWindow (dvFlow i v) b.pickNo a then w.2.getD (w.1.getD 0) else w.1.getD 0
  dvWord b i (if a < start then start else start + n - 1)

/-- Where word `o` of sum `k` of an instance lies in its mix block (R370): ML, MR, SL and SR in turn. -/
def dvMixAddr (b : Block) (i k o : Nat) : Nat := 0x20000000 + 0x1FF000 + 1024 * i + 4 * (b.pick * k + o)

/-- Sum `k` at sample `o` of an instance's mix block. -/
def dvMixWord (b : Block) (i k o : Nat) : Int := (BitVec.ofNat 32 (Memory.num b.mem (dvMixAddr b i k o) 4)).toInt

/-- The sums in an instance's mix block. -/
def dvMixRead (b : Block) (i : Nat) : List DvMix :=
  (List.range b.pick).map fun o => { ml := dvMixWord b i 0 o, mr := dvMixWord b i 1 o, sl := dvMixWord b i 2 o, sr := dvMixWord b i 3 o }

/-- Write the sums of an instance's mix block. -/
def dvMixWrite (i : Nat) (l : List DvMix) (b : Block) : Block :=
  let bytes (f : DvMix → Int) : List Byte := l.flatMap fun x => leBytes 4 (BitVec.ofInt 32 (f x)).toNat
  { b with mem := Memory.setBytes b.mem (dvMixAddr b i 0 0) (bytes (·.ml) ++ bytes (·.mr) ++ bytes (·.sl) ++ bytes (·.sr)) }

/-- The pick of a legacy voice (R357, R369): its state after it, its contributions, and whether a read was clamped. -/
def dvPass (i v : Nat) (b : Block) : DvPass :=
  let c := dvCtx b i v
  let n := 16 * b.pick + 2
  let w := dvWindows c
  let inside (a : Nat) : Bool := dvInside n a w.1 || dvInside n a w.2
  let word (a : Nat) : Nat := if inside a then dvWord b i a else dvClamped b i v n a w
  dvRun word inside b.pick c.list c.regs c.st

/-- Whether program 0x03 has clamped a read, which sets FLG.wclamp (R215, R369). -/
def dvMissed (c : Card) (b : Block) : Bool :=
  c.type == 5 && decide (c.flow % 256 / 4 < 32) && (dvPass (c.flow / 256) (c.flow % 256 / 4) b).clamp

/-- A legacy voice card completes OK (R357, R370): the playing state after the pick is committed, and the voice's contributions enter the
sums, which voice 0 begins. -/
def dvCommit (i v : Nat) (b : Block) : Block :=
  if v ≥ 32 then b
  else
    let r := dvPass i v b
    let before := if v = 0 then List.replicate b.pick {} else dvMixRead b i
    dvMixWrite i (List.zipWith DvMix.add before r.mix) (setDvCtx i v { dvCtx b i v with st := r.st } b)

end Sys2Proof.Machine
end

