-- ==== Sys2Proof/Machine/Flags.lean ====
section
/-! DEFINITION. The shuttle's arithmetic and flag computations (R207–R209, R244, R245, R249). -/

namespace Sys2Proof.Machine

/-- A result with the flags it writes: which of z n c v (bits 0–3), and their values. -/
structure AluOut where
  val : Word
  mask : Nat
  flags : Nat
deriving DecidableEq, Repr

/-- The z and n flags of a result. -/
def znOf (x : Word) : Nat := (if x = 0 then 1 else 0) + (if x.msb then 2 else 0)

/-- A result that writes z and n only (mask 3). -/
def outZN (x : Word) : AluOut := ⟨x, 3, znOf x⟩

/-- Addition: c the carry out of bit 31, v signed overflow. -/
def addOut (a b : Word) : AluOut :=
  let r := a + b
  let c := if 2 ^ 32 ≤ a.toNat + b.toNat then 4 else 0
  let v := if a.toInt + b.toInt ≠ r.toInt then 8 else 0
  ⟨r, 15, znOf r + c + v⟩

/-- Subtraction: c set where there is no borrow, v signed overflow. -/
def subOut (a b : Word) : AluOut :=
  let r := a - b
  let c := if b.toNat ≤ a.toNat then 4 else 0
  let v := if a.toInt - b.toInt ≠ r.toInt then 8 else 0
  ⟨r, 15, znOf r + c + v⟩

/-- A saturating result: v where it saturates; c is not written. -/
def satOut (x : Int) : AluOut :=
  let r := sat32 x
  ⟨r, 11, znOf r + (if satHits 32 x then 8 else 0)⟩

/-- Shifts by an amount below 64 (R245): by 32 or more SHL and SHR give 0 and ASR the sign in every bit. -/
def shlW (a : Word) (n : Nat) : Word := a <<< n
def shrW (a : Word) (n : Nat) : Word := a >>> n
def asrW (a : Word) (n : Nat) : Word := a.sshiftRight n

/-- The absolute value, with 0x8000_0000 mapped to 0x7FFF_FFFF. -/
def absW (a : Word) : Word := sat32 (a.toInt.natAbs : Int)

/-- s16 × s16. -/
def mul16W (a b : Word) : Word := BitVec.ofInt 32 ((a.setWidth 16 : BitVec 16).toInt * (b.setWidth 16 : BitVec 16).toInt)

/-- The ALU functions (R245). -/
def aluOut (fn : AluFn) (a b : Word) : AluOut :=
  let sh := b.toNat % 64
  match fn with
  | .add => addOut a b
  | .sub => subOut a b
  | .adds => satOut (a.toInt + b.toInt)
  | .subs => satOut (a.toInt - b.toInt)
  | .and => outZN (a &&& b)
  | .or => outZN (a ||| b)
  | .xor => outZN (a ^^^ b)
  | .shl => outZN (shlW a sh)
  | .shr => outZN (shrW a sh)
  | .asr => outZN (asrW a sh)
  | .min => outZN (if a.slt b then a else b)
  | .max => outZN (if a.slt b then b else a)
  | .abs => outZN (absW a)
  | .mul16 => outZN (mul16W a b)

/-- Whether a condition code holds of FLG (R249). -/
def condHolds (code : Nat) (flg : Word) : Bool :=
  let z := flg.getLsbD 0
  let n := flg.getLsbD 1
  let c := flg.getLsbD 2
  let v := flg.getLsbD 3
  match code with
  | 0 => true
  | 1 => z
  | 2 => !z
  | 3 => n
  | 4 => !n
  | 5 => c
  | 6 => !c
  | 7 => v
  | 8 => !v
  | 9 => c && !z
  | 10 => !c || z
  | 11 => n == v
  | 12 => n != v
  | 13 => !z && n == v
  | 14 => z || n != v
  | _ => false

/-- A product of two Q1.31 operands in Q9.63 (R208): the exact Q2.62 product shifted left by one place. -/
def mulQ (x y : Word) : Int := 2 * (x.toInt * y.toInt)

/-- An accumulator from an exact sum, saturated to Q9.63 (R208). -/
def accSat (x : Int) : Acc := BitVec.ofInt 72 (satInt 72 x)

/-- Extraction (R209): round(ACC × 2^s) at the Q1.31 position, half up, before saturation. -/
def extractExact (a : Acc) (s : Nat) : Int := roundShr (a.toInt * (2 ^ s : Nat)) 32

/-- A circular sum (R222): base + ((p - base + m) mod length), linear for a length of 0. -/
def circ (base len p m : Word) : Word :=
  if len = 0 then p + m else base + BitVec.ofInt 32 ((p - base + m).toInt % (len.toNat : Int))

end Sys2Proof.Machine
end

