-- ==== Sys2Proof/Machine/Operands.lean ====
section
/-! DEFINITION. The shuttle's operand forms: registers (R206), addresses and circular buffers (R222, R223), the local view and its
rules (R211, R212), and the pipeline of register writes (R219). -/

namespace Sys2Proof.Machine

/-! ### Shuttles and their registers -/

/-- Shuttle `s`. -/
def Block.shuttle (b : Block) (s : Nat) : Shuttle := FMap.get (fun _ => {}) b.sht s
/-- Set shuttle `s`. -/
def Block.setShuttle (b : Block) (s : Nat) (x : Shuttle) : Block := { b with sht := FMap.set (fun _ => {}) b.sht s x }

/-- A word register of a file. -/
def regW (f : FMap Word) (k : Nat) : Word := FMap.get (fun _ => 0) f k
/-- Write a word register. -/
def setW (f : FMap Word) (k : Nat) (v : Word) : FMap Word := FMap.set (fun _ => 0) f k v
/-- D register `k`. -/
def Shuttle.rd (sh : Shuttle) (k : Nat) : Word := regW sh.d k
/-- Pointer `k`. -/
def Shuttle.ptr (sh : Shuttle) (k : Nat) : Word := regW sh.p k
/-- Modifier `k`. -/
def Shuttle.mod (sh : Shuttle) (k : Nat) : Word := regW sh.m k
/-- An accumulator as accumulation reads it. -/
def Shuttle.accum (sh : Shuttle) (k : Nat) : Acc := FMap.get (fun _ => 0) sh.accFwd k
/-- An accumulator as extraction reads it. -/
def Shuttle.extr (sh : Shuttle) (k : Nat) : Acc := FMap.get (fun _ => 0) sh.acc k

/-- The execution state of a shuttle (SHT_SSTATS.state): 0 DRAW, 1 running, 2 fault handler, 3 tap handler, 4 halted. -/
def shtState (b : Block) (s : Nat) : Nat := b.get (SHT_SSTAT_state s)
/-- Whether a shuttle runs a card or a handler. -/
def running (b : Block) (s : Nat) : Bool := 1 ≤ shtState b s && shtState b s ≤ 3
/-- Whether a shuttle issues bundles: it runs, and DONE has not issued. -/
def issuing (b : Block) (s : Nat) : Bool := running b s && (b.shuttle s).done.isNone

/-- The card in service on a shuttle. -/
def cardOf (b : Block) (s : Nat) : Option Card := (b.shuttle s).card.bind fun n => b.dlr.cards.find? fun c => c.no == n

/-! ### Addresses (R222) -/

/-- The descriptor bound to a pointer: k for P0–P7, k - 8 for P8–P15 while its BND bit is set. -/
def Shuttle.descr (sh : Shuttle) (k : Nat) : Option Nat :=
  if k < 8 then some k else if sh.bnd.getLsbD (k - 8) then some (k - 8) else none

/-- Pointer `k` plus a modifier, reduced by its descriptor. -/
def Shuttle.ptrPlus (sh : Shuttle) (k : Nat) (m : Word) : Word :=
  match sh.descr k with
  | some j => circ (regW sh.cb j) (regW sh.clNow j) (sh.ptr k) m
  | none => sh.ptr k + m

/-- The address of a Format A access (R238). -/
def FmtA.addr (f : FmtA) (sh : Shuttle) : Word := sh.ptrPlus f.p.toNat (if f.a then sh.mod f.m.toNat else 0)

/-- The post-modified pointer of a Format A access of a size, where it writes one. -/
def FmtA.posted (f : FmtA) (sh : Shuttle) (size : Nat) : Option Word :=
  match f.post.toNat with
  | 1 => some (sh.ptrPlus f.p.toNat (sh.mod f.m.toNat))
  | 2 => some (sh.ptrPlus f.p.toNat (BitVec.ofInt 32 (f.imm.toInt * (size : Int))))
  | _ => none

/-! ### The local view (R211, R212, R239) -/

/-- What a local access comes to: a physical address, a place in the parameter queue, or a fault with its ECAUSE. -/
inductive Access where
  | at (a : Nat)
  | queue (o : Nat)
  | fault (cause : Nat)
deriving DecidableEq, Repr

/-- Where a shuttle's private set lies (R211). -/
def privBase (s : Nat) : Nat := harnessBase (s / 5) + 0x160000 + s % 5 * 0x4000

/-- A Format A access of shuttle `s` (R211, R212, R239). -/
def localAccess (b : Block) (s a size : Nat) (store : Bool) : Access :=
  if a % size ≠ 0 then .fault 3
  else if a < 0x20000 then .fault 2
  else if a < 0xA0000 then
    match cardOf b s with
    | none => .fault 2
    | some c =>
      let o := a % 0x800
      if c.flow ≥ 8192 ∨ (a - 0x20000) / 0x800 ≠ c.flow % 256 then .fault 2
      else if !store then .at (harnessBase (s / 5) + a)
      else if o < 0x400 then .queue o
      else if (o - 0x400) / 0x200 = (b.voice c.flow).half then .fault 2
      else .at (harnessBase (s / 5) + a)
  else if a < 0x160000 then .fault 2
  else if a < 0x180000 then .at (harnessBase (s / 5) + a)
  else if a < 0x184000 then .at (privBase s + (a - 0x180000))
  else .fault 3

/-- Whether the bank of a loom offset belongs to the loom's shuttles (R217, R310). -/
def loomOwned (b : Block) (l o : Nat) : Bool := bankAdmits b (32 + 16 * l + o / 0x20000) { master := 7 + l } true

/-- A fault becomes pending; one that is pending stays (R227). -/
def pendFault (s cause : Nat) (addr : Word) (b : Block) : Block :=
  let sh := b.shuttle s
  if sh.fault.isSome then b else b.setShuttle s { sh with fault := some (cause, addr) }

/-- An access to a bank that the loom's shuttles do not own (R217, R312): ECAUSE 2, and the access is noted. -/
def loomRefused (s l : Nat) (o : Word) (store : Bool) (b : Block) : Block :=
  pendFault s 2 o (noteNoown (loomBase l + o.toNat) (7 + l) (b.get (MEM_BANK_OWN_owner (32 + 16 * l + o.toNat / 0x20000))) store b)


/-! ### Register writes on their way (R219) -/

/-- Add register writes to those on their way. -/
def addFlights (s : Nat) (l : List Flight) (b : Block) : Block :=
  let sh := b.shuttle s
  b.setShuttle s { sh with flights := sh.flights ++ l }

/-- The write of a register of a MOVX class (R206, R247); a write to a read-only special register is ignored. -/
def Shuttle.put (sh : Shuttle) (cls reg : Nat) (v : Acc) : Shuttle :=
  let w : Word := v.setWidth 32
  match cls, reg with
  | 0, k => { sh with d := setW sh.d k w }
  | 1, k => { sh with p := setW sh.p k w }
  | 2, k => { sh with m := setW sh.m k w }
  | 3, k => { sh with cb := setW sh.cb k w }
  | 4, k => { sh with cl := setW sh.cl k w }
  | 5, 0 => { sh with lc := FMap.set (fun _ => 0) sh.lc 0 (w.toNat % 65536) }
  | 5, 1 => { sh with lc := FMap.set (fun _ => 0) sh.lc 1 (w.toNat % 65536) }
  | 5, 2 => { sh with ls := FMap.set (fun _ => 0) sh.ls 0 (w.toNat % 8192) }
  | 5, 3 => { sh with ls := FMap.set (fun _ => 0) sh.ls 1 (w.toNat % 8192) }
  | 5, 4 => { sh with le := FMap.set (fun _ => 0) sh.le 0 (w.toNat % 8192) }
  | 5, 5 => { sh with le := FMap.set (fun _ => 0) sh.le 1 (w.toNat % 8192) }
  | 6, _ => { sh with flg := BitVec.ofNat 32 (w.toNat % 128) }
  | 8, 1 => { sh with epc := w }
  | 8, 2 => { sh with eflg := w }
  | 8, 11 => { sh with bnd := w }
  | 16, k => { sh with acc := FMap.set (fun _ => 0) sh.acc k v }
  | 17, k => { sh with accFwd := FMap.set (fun _ => 0) sh.accFwd k v }
  | 18, _ =>
    let mask := w.toNat / 16
    let keep := sh.flg.toNat &&& (127 - mask)
    { sh with flg := BitVec.ofNat 32 (keep ||| (w.toNat % 16 &&& mask)) }
  | 19, _ => { sh with flg := sh.flg ||| w }
  | _, _ => sh

/-- A register of a MOVX class (R206, R247); `now` is CYCLE_CNT. -/
def Shuttle.getReg (sh : Shuttle) (s : Nat) (now : Nat) (cls reg : Nat) : Word :=
  match cls, reg with
  | 0, k => sh.rd k
  | 1, k => sh.ptr k
  | 2, k => sh.mod k
  | 3, k => regW sh.cb k
  | 4, k => regW sh.cl k
  | 5, 0 => BitVec.ofNat 32 (FMap.get (fun _ => 0) sh.lc 0)
  | 5, 1 => BitVec.ofNat 32 (FMap.get (fun _ => 0) sh.lc 1)
  | 5, 2 => BitVec.ofNat 32 (FMap.get (fun _ => 0) sh.ls 0)
  | 5, 3 => BitVec.ofNat 32 (FMap.get (fun _ => 0) sh.ls 1)
  | 5, 4 => BitVec.ofNat 32 (FMap.get (fun _ => 0) sh.le 0)
  | 5, 5 => BitVec.ofNat 32 (FMap.get (fun _ => 0) sh.le 1)
  | 6, _ => sh.flg
  | 7, k => regW sh.it k
  | 8, 0 => BitVec.ofNat 32 sh.fence
  | 8, 1 => sh.epc
  | 8, 2 => sh.eflg
  | 8, 3 => BitVec.ofNat 32 sh.ecause
  | 8, 4 => sh.eaddr
  | 8, 5 => regW sh.win 0
  | 8, 6 => regW sh.win 1
  | 8, 7 => regW sh.win 2
  | 8, 8 => regW sh.win 3
  | 8, 9 => BitVec.ofNat 32 (s + s / 5 * 256 + s % 5 * 8192)
  | 8, 10 => BitVec.ofNat 32 now
  | 8, 11 => sh.bnd
  | _, _ => 0

/-- The order in which writes land (R219): by the bundle in which they are due; of one bundle the later issued over the earlier, and C over X
over M1 over M0 where they were issued together; the one that stays is written last. -/
def Flight.before (x y : Flight) : Bool :=
  decide (x.due < y.due) || (x.due == y.due &&
    (decide (x.issued < y.issued) || (x.issued == y.issued && decide (x.rank ≤ y.rank))))

/-- Fold the pointers bound to descriptor `k` into a length (R223). -/
def Shuttle.fold (sh : Shuttle) (k : Nat) (len : Word) : Shuttle :=
  let sh1 := { sh with clNow := setW sh.clNow k len }
  if len = 0 then sh1
  else
    let f (sh : Shuttle) (j : Nat) : Shuttle :=
      { sh with p := setW sh.p j (circ (regW sh.cb k) len (sh.ptr j) 0) }
    let sh2 := f sh1 k
    if sh.bnd.getLsbD k then f sh2 (k + 8) else sh2

/-- The start of bundle number `i` (R219, R223): writes due by then land in order, then the folds due by then act on what stands. -/
def Shuttle.startBundle (sh : Shuttle) (i : Nat) : Shuttle :=
  let due := sortBy Flight.before (sh.flights.filter fun x => decide (x.due ≤ i))
  let sh1 := due.foldl (fun acc x => acc.put x.cls x.reg x.val) { sh with flights := sh.flights.filter fun x => decide (i < x.due) }
  let folds := sh1.folds.filter fun x => decide (x.1 ≤ i)
  folds.foldl (fun acc x => acc.fold x.2.1 x.2.2) { sh1 with folds := sh1.folds.filter fun x => decide (i < x.1) }

/-- Let every register write and fold still due land, as if empty bundles followed. -/
def Shuttle.drain (sh : Shuttle) : Shuttle := (List.range 9).foldl (fun x k => x.startBundle (sh.bundle + k)) sh

/-! ### Loom transfers (R217) -/

/-- The physical address of a local address in the private alias (R211). -/
def privAddr (s a : Nat) : Nat := privBase s + (a - 0x180000)

/-- Where a transfer of shuttle `s` reads. -/
def Xfer.from (x : Xfer) (s : Nat) : Nat := if x.store then privAddr s x.priv else loomBase (s / 40) + x.loom

/-- The effect of a transfer at its completion. One that reads an uncorrectable error faults with the local address of an STL or the loom
address of an LDL (R206, R227); the LDL writes zero. -/
def Xfer.move (s : Nat) (x : Xfer) (b : Block) : Block :=
  let b1 := eccCheck (x.from s) x.ecc false b
  let dst := if x.store then loomBase (s / 40) + x.loom else privAddr s x.priv
  match x.ecc with
  | .uncorrectable _ =>
    let b2 := pendFault s 1 (BitVec.ofNat 32 (if x.store then x.priv else x.loom)) b1
    if !x.store then { b2 with mem := Memory.setBytes b2.mem dst (List.replicate x.size 0) }
    else if Config.storedOnError dst then { b2 with mem := Memory.setBytes b2.mem dst (Memory.bytes b2.mem (x.from s) x.size) }
    else b2
  | _ => { b1 with mem := Memory.setBytes b1.mem dst (Memory.bytes b1.mem (x.from s) x.size) }

/-- The oldest outstanding transfer of a shuttle completes. -/
def completeXfer (s : Nat) (b : Block) : Block :=
  let sh := b.shuttle s
  match sh.xfers with
  | [] => b
  | x :: rest => x.move s (b.setShuttle s { sh with xfers := rest })

/-- Complete the oldest transfers until at most `n` remain; the count bounds the work. -/
def completeTo (s n : Nat) : Nat → Block → Block
  | 0, b => b
  | fuel + 1, b => if (b.shuttle s).xfers.length ≤ n then b else completeTo s n fuel (completeXfer s b)

/-- What a load at physical address `p` (local `a`) reads (R217): of the destination of a pending LDL, each word old or new. -/
def localBytes (s a p n : Nat) (b : Block) : List Byte :=
  let sh := b.shuttle s
  (List.range n).map fun i =>
    sh.xfers.foldl (fun v x =>
      if !x.store && decide (x.priv ≤ a + i ∧ a + i < x.priv + x.size) && Config.loadedEarly s sh.bundle ((a + i) / 4) x.loom then
        Memory.byte b.mem (x.from s + (a + i - x.priv))
      else v) (Memory.byte b.mem (p + i))

end Sys2Proof.Machine
end

