-- ==== Sys2Proof/Machine/VEnv.lean ====
section
/-! DEFINITION. The envelopes of a native voice (R188–R194). Levels and values are in units of 2^-31, modulation sums in units of
2^-45. -/

namespace Sys2Proof.Machine

/-- What a control sub-block sees (R58, R174): the parameter block, the note's key and velocity, OSR × fs, the tempo (BPM 16.16), and the
offsets that live writes have changed at its start. -/
structure VCtx where
  blk : List Byte
  key : Nat
  vel : Nat
  sr : Nat
  tempo : Nat
  writes : List Nat := []

/-- Where the record of envelope `e` lies. -/
def envBase (e : Nat) : Nat := 0x200 + 64 * e

/-- A level field after velocity scaling (R188). -/
def VCtx.level (x : VCtx) (e off : Nat) : Int :=
  quotient (sintAt x.blk off 2 * 65536 * (65536 * 65535 - (numAt x.blk (envBase e + 12) 2 * (65535 - x.vel) : Nat) : Int)) (65536 * 65535)

/-- The target of segment `i`. -/
def VCtx.target (x : VCtx) (e i : Nat) : Int := x.level e (envBase e + 16 + 6 * i)

/-- The curve of segment `i`. -/
def VCtx.curve (x : VCtx) (e i : Nat) : Int := sintAt x.blk (envBase e + 20 + 6 * i) 1

/-- log2 of the time scale s of R188, in units of 2^-96. -/
def VCtx.scale (x : VCtx) (e : Nat) (mTime : Int) : Int :=
  let kt := sintAt x.blk (envBase e + 8) 2 * ((x.key : Int) - 60) * (2 ^ 82 : Nat) / 12
  let vt := sintAt x.blk (envBase e + 10) 2 * ((x.vel : Int) - 32768) * (2 ^ 67 : Nat)
  0 - (kt + vt + 4 * mTime * (2 ^ 51 : Nat))

/-- The length of segment `i` in internal samples (R188), or with times in beats at the tempo now tracked (R192). -/
def VCtx.segLen (x : VCtx) (e i : Nat) (mTime : Int) : Nat :=
  let t := numAt x.blk (envBase e + 18 + 6 * i) 2
  if byteAt x.blk (envBase e + 4) % 2 = 1 then
    max 1 (roundDiv (t * 60 * x.sr * 65536 : Nat) (256 * x.tempo)).toNat
  else timeLen x.sr t (x.scale e mTime)

/-- The share w(x) of a segment's way, in units of 2^-31, at the progress xn / xd (R189); exact for a straight segment. -/
def envShape (c : Int) (xn xd : Nat) (way : Int) : Int :=
  if xn = 0 then 0
  else if xd ≤ xn then way
  else if c = 0 then quotient (way * xn) xd
  else
    let e := exp2 (quotient (-c * xn * 16777216) xd)
    if 0 < c then quotient (way * (one31 - e)) (one31 - one31 / (2 ^ c.toNat : Nat)).toNat
    else quotient (way * (e - one31)) (one31 * (2 ^ c.natAbs - 1 : Nat)).toNat

/-- The envelope's value where it stands (R189). -/
def EnvSt.value (s : EnvSt) (x : VCtx) (e : Nat) : Int :=
  s.l0 + envShape (x.curve e s.seg) s.xn s.xd (x.target e s.seg - s.l0)

/-- Segment `i` starts from a level. -/
def EnvSt.begin (s : EnvSt) (i : Nat) (l0 : Int) : EnvSt :=
  { s with seg := i, l0 := l0, xn := 0, xd := 1, len := none, held := false, done := false }

/-- A voice's first segment (R190): from start_level, which is also v_a of the first sub-block (R189). -/
def envFirst (x : VCtx) (e : Nat) : EnvSt :=
  let l := x.level e (envBase e + 6)
  { l0 := l, v := l }

/-- What follows the end of the running segment (R190); `rel`: the note is in release. -/
def EnvSt.next (s : EnvSt) (x : VCtx) (e : Nat) (rel : Bool) : EnvSt :=
  let o := envBase e
  let done := { s with xn := 1, xd := 1 }
  let l1 := x.target e s.seg
  if !rel && byteAt x.blk (o + 4) / 2 % 2 == 1 && s.seg == byteAt x.blk (o + 3) then s.begin (byteAt x.blk (o + 2)) l1
  else if !rel && s.seg == byteAt x.blk (o + 1) then { done with held := true }
  else if byteAt x.blk o ≤ s.seg + 1 then { done with done := true }
  else s.begin (s.seg + 1) l1

/-- Add `n` samples to the progress at the length in force. -/
def EnvSt.plus (s : EnvSt) (n len : Nat) : EnvSt :=
  let a := s.xn * len + n * s.xd
  let b := s.xd * len
  let g := max 1 (Nat.gcd a b)
  { s with xn := a / g, xd := b / g, len := some len }

/-- The internal samples until x reaches 1 (R193). -/
def EnvSt.left (s : EnvSt) (len : Nat) : Nat := max 1 (ceilDiv ((s.xd - s.xn) * len) s.xd)

/-- A segment that has not advanced takes its length and the time modulation sum of its start (R188, R192). -/
def EnvSt.timed (s : EnvSt) (x : VCtx) (e : Nat) (mTime : Int) : EnvSt :=
  if s.len.isSome then s else { s with len := some (x.segLen e s.seg mTime), mTime := mTime }

/-- Run `n` internal samples on, handing over where a segment ends (R189); each turn takes at least one sample. -/
def EnvSt.run (x : VCtx) (e : Nat) (rel : Bool) (mTime : Int) : Nat → Nat → EnvSt → EnvSt
  | 0, _, s => s
  | fuel + 1, n, s =>
    if s.held || s.done || n == 0 then s
    else
      let s1 := s.timed x e mTime
      let len := s1.len.getD 1
      let k := s1.left len
      if n < k then s1.plus n len else EnvSt.run x e rel mTime fuel (n - k) (s1.next x e rel)

/-- A live write to the time of the running segment (R192, R193) keeps x and takes the new length, with the time modulation sum of the
segment's start. -/
def EnvSt.rewrite (s : EnvSt) (x : VCtx) (e : Nat) : EnvSt :=
  if s.len.isSome && !s.held && !s.done && x.writes.contains (envBase e + 18 + 6 * s.seg) then
    { s with len := some (x.segLen e s.seg s.mTime) }
  else s

/-- A retrigger (R191): segment 0 from start_level with eflags[2], else from the current level. -/
def EnvSt.retrig (s : EnvSt) (x : VCtx) (e : Nat) : EnvSt :=
  s.begin 0 (if byteAt x.blk (envBase e + 4) / 4 % 2 = 1 then x.level e (envBase e + 6) else s.v)

/-- A release (R190): segment sustain + 1 at once from the current level; without a sustain segment the running one goes on. -/
def EnvSt.release (s : EnvSt) (x : VCtx) (e : Nat) : EnvSt :=
  let sus := byteAt x.blk (envBase e + 1)
  if sus = 0xFF then s else s.begin (sus + 1) s.v

/-- One sub-block of `m` samples (R189): the state after it, with the value evaluated for its end. -/
def EnvSt.block (s : EnvSt) (x : VCtx) (e : Nat) (rel : Bool) (mTime : Int) (m : Nat) : EnvSt :=
  let s1 := EnvSt.run x e rel mTime (m + 1) m (s.rewrite x e)
  { s1 with v := s1.value x e }

/-- The value that sample `j` of a sub-block of `m` takes between `a` and `b` (R189, R201). -/
def between (a b : Int) (j m : Nat) : Int := a + quotient ((b - a) * (j + 1)) m

end Sys2Proof.Machine
end

