-- ==== Sys2Proof/Machine/VMod.lean ====
section
/-! DEFINITION. The LFOs and the modulation matrix of a native voice (R196–R201, R203). Source values are in units of 2^-31, phases of
2^-32 of a cycle, and sums of 2^-45. -/

namespace Sys2Proof.Machine

/-- A value in Q1.15, saturated, in units of 2^-31. -/
def q15 (x : Int) : Int := satInt 16 (quotient x 65536) * 65536

/-- 2^(4m) for a modulation sum. -/
def exp2Mod (m : Int) : Int := if m = 0 then one31 else exp2 (quotient (4 * m) 2097152)

/-- max(0, 1 + m), in units of 2^-45. -/
def upBy (m : Int) : Int := max 0 (35184372088832 + m)

/-! ### LFOs (R196, R197) -/

/-- The bipolar output of a shape at a phase, before rounding (R196); `table` is the user frame. -/
def lfoShape (shape phase : Nat) (prev next : Int) (table : Nat → Int) : Int :=
  match shape with
  | 0 => sinOf phase
  | 1 => one31 - 2 * ((phase : Int) - one31).natAbs
  | 2 => (phase : Int) - one31
  | 3 => if phase < 2147483648 then one31 else -one31
  | 4 => next
  | 5 => prev + quotient ((next - prev) * (one31 - cosOf (phase / 2))) (2 * 2147483648)
  | _ =>
    -- level 0 of the frame, 2,048 samples, with linear interpolation
    let i := phase / 2097152
    table i + quotient ((table ((i + 1) % 2048) - table i) * (phase % 2097152 : Nat)) 2097152

/-- The output in Q1.15, made unipolar where the record says so. -/
def lfoRaw (uni : Bool) (x : Int) : Int := if uni then q15 (quotient (x + one31) 2) else q15 x

/-- A new random value at a wrap. -/
def LfoSt.draw (s : LfoSt) (seed use : Nat) : LfoSt :=
  { s with prev := s.next, next := (Config.draw seed use s.draws).toInt, draws := s.draws + 1 }

/-- A new phase: one that goes back has wrapped. -/
def LfoSt.to (s : LfoSt) (seed use phase : Nat) : LfoSt :=
  let s1 := if phase < s.phase then s.draw seed use else s
  { s1 with phase := phase }

/-- The phase of a tempo-locked LFO at the beat `beat` (R197): `o` is its record. -/
def lockedPhase (t : List Byte) (o beat beat0 : Nat) : Nat :=
  ((quotient (((beat : Int) - beat0) * 65536) (numAt t (o + 2) 2) + (numAt t (o + 4) 2 * 65536 : Nat)) % 4294967296).toNat

/-- The cycles that an LFO in Hz advances by in `m` internal samples (R197). -/
def lfoStep (t : List Byte) (o sr m : Nat) (mRate : Int) : Nat :=
  (quotient ((numAt t (o + 2) 2 * 4294967296 * m : Nat) * exp2Mod mRate) (256 * sr * 2147483648)).toNat

/-- Where the record of LFO `l` lies. -/
def lfoBase (l : Nat) : Nat := 0x300 + 32 * l

/-- An LFO at the voice's start: at its phase with key sync, else at one drawn from the voice seed. -/
def lfoFirst (t : List Byte) (seed l : Nat) : LfoSt :=
  let o := lfoBase l
  let p := if byteAt t (o + 1) / 2 % 2 = 1 then numAt t (o + 4) 2 * 65536 else (Config.draw seed (8 + l) 0).toNat
  (({ phase := p } : LfoSt).draw seed (12 + l)).draw seed (12 + l)

/-- The delay and fade-in ramp as a fraction, at an age in internal samples. -/
def lfoRamp (t : List Byte) (o sr age : Nat) : Nat × Nat :=
  let d := timeLen sr (numAt t (o + 6) 2) 0
  let f := timeLen sr (numAt t (o + 8) 2) 0
  if age < d then (0, 1) else if d + f ≤ age then (1, 1) else (age - d, f)

/-- The value of LFO `l` in a sub-block (R196), after the ramp and the depth modulation. -/
def lfoValue (t : List Byte) (l sr age : Nat) (mDepth : Int) (s : LfoSt) (table : Nat → Int) : Int :=
  let o := lfoBase l
  let (num, den) := lfoRamp t o sr age
  let v := lfoRaw (byteAt t (o + 1) / 4 % 2 == 1) (lfoShape (byteAt t o) s.phase s.prev s.next table)
  q15 (quotient (v * (num : Int) * upBy mDepth) (den * 35184372088832))

/-! ### The matrix (R199, R200) -/

/-- The values that the matrix of one sub-block reads (R200): envelopes, LFOs and global LFOs with their polarity, the note and its
controllers. -/
structure ModIn where
  env : List Int
  lfo : List (Int × Bool)
  glfo : List (Int × Bool)
  vel : Nat
  relVel : Nat
  key : Nat
  pressure : Nat
  pnBend : Nat
  part : Part
  noise : Int
  noteRandom : Int
  unison : Nat
  uniCount : Nat
  /-- frac(β), 24 bits -/
  beat : Nat
  pnv : List Nat

/-- A 16-bit unsigned value as U. -/
def uni16 (v : Nat) : Int := (v / 2 * 65536 : Nat)
/-- A 16-bit value about 0x8000 as B. -/
def bip16 (v : Nat) : Int := ((v : Int) - 32768) * 65536

/-- A source's value, and whether it is bipolar (R200). -/
def ModIn.value (x : ModIn) (code : Nat) : Int × Bool :=
  if code = 0 then (0, false)
  else if code ≤ 4 then (q15 (x.env.getD (code - 1) 0), true)
  else if code ≤ 7 then x.lfo.getD (code - 5) (0, true)
  else if code ≤ 23 then x.glfo.getD (code - 8) (0, true)
  else if 64 ≤ code then ((FMap.get (fun _ => 0) x.part.ctl (code - 64) / 512 * 65536 : Nat), false)
  else match code with
    | 24 => (uni16 x.vel, false)
    | 25 => (uni16 x.relVel, false)
    | 26 => (satInt 16 (((x.key : Int) - 60) * 512) * 65536, true)
    | 27 => (uni16 x.pressure, false)
    | 28 => ((FMap.get (fun _ => 0) x.part.ctl 128 / 512 * 65536 : Nat), false)
    | 29 => (bip16 x.part.bend, true)
    | 30 => (bip16 x.pnBend, true)
    | 31 => (uni16 x.part.sustain, false)
    | 32 => (uni16 x.part.sostenuto, false)
    | 33 => (uni16 x.part.soft, false)
    | 34 => (q15 x.noise, true)
    | 35 => (q15 x.noteRandom, true)
    | 36 => if x.uniCount ≤ 1 then (0, true)
        else (q15 (quotient ((2 * (x.unison : Int) - (x.uniCount - 1 : Nat)) * one31) (x.uniCount - 1)), true)
    | 37 => (0x7FFF * 65536, false)
    | 38 => (q15 (x.beat * 128 : Nat), false)
    | 40 | 41 | 42 | 43 => (uni16 (x.pnv.getD (code - 40) 0), false)
    | _ => (0, false)

/-- A matrix slot: source, destination, amount, the source that scales it, mapping and smoothing. -/
structure Slot where
  src : Nat
  dst : Nat
  amount : Int
  amod : Nat
  map : Bool
  smooth : Bool
deriving DecidableEq, Repr

/-- Slot `i` of a parameter block. -/
def slotOf (t : List Byte) (i : Nat) : Slot :=
  let o := 0x360 + 6 * i
  { src := byteAt t o, dst := byteAt t (o + 1), amount := sintAt t (o + 2) 2, amod := byteAt t (o + 4)
    map := byteAt t (o + 5) % 2 == 1, smooth := byteAt t (o + 5) / 2 % 2 == 1 }

/-- The source's value as a slot takes it: mapped, if it is bipolar and the slot asks for it. -/
def Slot.input (s : Slot) (x : ModIn) : Int :=
  let (v, bip) := x.value s.src
  if s.map && bip then quotient (v + one31) 2 else v

/-- The smoothed copies after a sub-block (R199); at the voice's start they are the values themselves. -/
def smoothed (slots : List Slot) (x : ModIn) (k : Nat) (first : Bool) (old : List Int) : List Int :=
  slots.zipIdx.map fun si =>
    let v := si.1.input x
    if first then v else let y := old.getD si.2 0; y + quotient (v - y) (2 ^ k)

/-- The modulation sum of a destination (R199): products and sum exact, the sum saturated. -/
def modSum (slots : List Slot) (x : ModIn) (smooth : List Int) (d : Nat) : Int :=
  let sum := (slots.zipIdx.filter fun si => si.1.src != 0 && si.1.dst == d).foldl (fun (acc : Int) si =>
    let s := if si.1.smooth then smooth.getD si.2 0 else si.1.input x
    let a := if si.1.amod = 0 then one31 else (x.value si.1.amod).1
    acc + si.1.amount * s * a) 0
  quotient (clampInt (-(2 ^ 77 : Nat)) ((2 ^ 77 : Nat) - (2 ^ 62 : Nat) : Int) sum) 4294967296

/-- The CV channels that a voice offers values to, each once (R202). -/
def cvTargets (slots : List Slot) : List Nat :=
  (List.range 32).filter fun c => slots.any fun s => s.src != 0 && s.dst == 32 + c

end Sys2Proof.Machine
end

