-- ==== Sys2Proof/Machine/VSrc.lean ====
section
/-! DEFINITION. The sources of a native voice (R149–R168): one internal sample at a time. Outputs are in units of 2^-31. -/

namespace Sys2Proof.Machine

/-! ### Interpolation (R153) -/

/-- Catmull-Rom at `x` (2^-32) between the second and the third of four samples. -/
def catmull (a b c d : Int) (x : Nat) : Int :=
  let p3 := 3 * (b - c) + d - a
  let p2 := (2 * a - 5 * b + 4 * c - d) * 4294967296 + x * p3
  let p1 := (c - a) * (4294967296 * 4294967296) + x * p2
  b + quotient (x * p1) (2 * 4294967296 * 4294967296 * 4294967296)

/-- Interpolation with 1, 2 or 4 points: none, linear, cubic. -/
def interpolate (kind : Nat) (rd : Int → Int) (i : Int) (x : Nat) : Int :=
  match kind with
  | 0 => rd i
  | 1 => rd i + quotient (x * (rd (i + 1) - rd i)) 4294967296
  | _ => catmull (rd (i - 1)) (rd i) (rd (i + 1)) (rd (i + 2)) x

/-- A coefficient of the windowed sinc: tap `j` at the fraction `x` (2^-32), from the shaper (R221). -/
def sincTap (j x : Nat) : Int := shaper 6 (BitVec.ofNat 32 (j * 2 ^ 28 + x / 16))

/-- sinc16: s[i - 7] to s[i + 8]. -/
def sinc16 (rd : Int → Int) (i : Int) (x : Nat) : Int :=
  quotient ((List.range 16).foldl (fun (acc : Int) (j : Nat) => acc + rd (i - 7 + (j : Int)) * sincTap j x) 0) 2147483648

/-- The taps of an interpolation at a ratio (4.28): 1, 2, 4 or 16; a ratio above 2.0 stretches sinc16 to ceil(8 × ratio), at most 32 (R154). -/
def tapCount (interp ratio : Nat) : Nat :=
  match interp with
  | 0 => 1
  | 1 => 2
  | 2 => 4
  | _ => if 536870912 < ratio then min 32 (ceilDiv ratio 33554432) else 16

/-- sinc16 with its kernel stretched by s = ratio / 2 (R154): ceil(16 s) taps, at most 32, scaled by 1 / s. -/
def sincWide (rd : Int → Int) (i : Int) (x ratio : Nat) : Int :=
  let t := tapCount 3 ratio
  let sum := (List.range t).foldl (fun (acc : Int) (k : Nat) =>
    let off : Int := (k : Int) - (t / 2 - 1 : Nat)
    -- the tap's place on the kernel as stored, in units of 2^-32
    let z := quotient ((off * 4294967296 - x) * 536870912) ratio
    let c := 0 - (0 - z) / 4294967296
    if -7 ≤ c ∧ c ≤ 8 then acc + rd (i + off) * sincTap (c + 7).toNat (c * 4294967296 - z).toNat else acc) 0
  quotient (sum * 536870912) (ratio * 2147483648)

/-! ### SAMPLE (R151–R157, R160) -/

/-- What a SAMPLE source plays in a sub-block: its entry, its loop and mode (0 none, 1 forward, 2 alternating, 3 with crossfade), whether
a release jump is armed, its interpolation, the ratio (4.28), whether it reads the half-rate copy, and the frames in its window. -/
structure SampleIn where
  e : Sample
  lp : Loop
  mode : Nat
  arm : Bool
  interp : Nat
  ratio : Nat
  copy : Option Sample
  frame : Nat → Int
  inWindow : Nat → Bool

/-- Where a SAMPLE source stands: position (32.32), direction, whether its release jump is made, whether a read missed its window. -/
structure Play where
  pos : Nat
  rev : Bool
  jumped : Bool
  missed : Bool := false
deriving DecidableEq, Repr

/-- Whether a loop is in force. -/
def SampleIn.loops (x : SampleIn) (p : Play) : Bool := x.mode != 0 && x.lp.len != 0 && !p.jumped

/-- The frame that an index reads: none before the first and past the end of a sample that does not loop; past the end of one that
does, the frame a loop length before (notes/assumptions). -/
def SampleIn.place (x : SampleIn) (looping : Bool) (k : Int) : Option Nat :=
  let len := match x.copy with | some c => c.len | none => x.e.len
  let lam := match x.copy with | some _ => x.lp.len / 2 | none => x.lp.len
  if k < 0 then none
  else if k.toNat < len then some k.toNat
  else if looping && lam != 0 then some (k.toNat - lam * ceilDiv (k.toNat + 1 - len) lam)
  else none

/-- The value at a position (R153, R154), and whether a frame lay outside the window (R160). -/
def SampleIn.tone (x : SampleIn) (looping : Bool) (q : Nat) : Int × Bool :=
  let q1 := if x.copy.isSome then q / 2 else q
  let ratio := if x.copy.isSome then x.ratio / 2 else x.ratio
  let i : Int := (q1 / 4294967296 : Nat)
  let f := q1 % 4294967296
  let rd (k : Int) : Int := match x.place looping k with | some n => x.frame n | none => 0
  let v := if x.interp ≤ 2 then interpolate x.interp rd i f
    else if 536870912 < ratio then sincWide rd i f ratio else sinc16 rd i f
  let n := tapCount x.interp ratio
  let missed := (List.range n).any fun k =>
    match x.place looping (i - (n / 2 - 1 : Nat) + k) with
    | some m => !x.inWindow m
    | none => false
  (v, missed)

/-- The output at the present position: silence after the last frame; in the crossfade the loop's start is mixed in (R155); then the
entry's gain trim (R152). -/
def SampleIn.out (x : SampleIn) (p : Play) : Int × Bool :=
  let looping := x.loops p
  if !looping && decide (x.e.len ≤ p.pos / 4294967296) then (0, false)
  else
    let e := (x.lp.start + x.lp.len) * 4294967296
    let xf := x.lp.xf * 4294967296
    let (v, m) := x.tone looping p.pos
    let (v, m) :=
      if looping && x.mode == 3 && xf != 0 && decide (e ≤ p.pos + xf) && decide (p.pos < e) then
        let w := p.pos + xf - e
        let (u, m') := x.tone looping (p.pos - x.lp.len * 4294967296)
        (quotient (((xf - w : Nat) : Int) * v + w * u) xf, m || m')
      else (v, m)
    (satInt 32 (quotient (v * x.e.trim) 16384), m)

/-- The step to the next internal sample (R151, R155, R157). -/
def SampleIn.step (x : SampleIn) (p : Play) : Play :=
  let d := x.ratio * 16
  let s := x.lp.start * 4294967296
  let e := (x.lp.start + x.lp.len) * 4294967296
  if !x.loops p then { p with pos := min (p.pos + d) (2 ^ 64 - 1) }
  else if p.rev then
    if p.pos < s + d then { p with pos := min e (s + (s + d - p.pos)), rev := false } else { p with pos := p.pos - d }
  else
    let q := p.pos + d
    if q < e then { p with pos := q }
    else if x.arm then { p with pos := x.e.relStart * 4294967296 + (q - e), jumped := true }
    else if x.mode = 2 then { p with pos := max s (2 * e - q), rev := true }
    else { p with pos := x.lp.fold q }

/-- One internal sample: the output, then the step. -/
def SampleIn.next (x : SampleIn) (p : Play) : Int × Play :=
  let (v, m) := x.out p
  (v, { x.step p with missed := p.missed || m })

/-! ### WAVE (R162) -/

/-- The mip level for a phase increment. -/
def mipLevel (inc : Int) : Nat := ((List.range 10).find? fun k => decide (2048 * inc ≤ (2 ^ (32 + k) : Nat))).getD 10

/-- A frame read at a phase: linear or cubic within its level. -/
def waveRead (wave : Nat → Nat → Int) (frame level interp phase : Nat) : Int :=
  let size := 2048 / 2 ^ level
  let q := phase * size
  let off := 4096 - 4096 / 2 ^ level
  interpolate interp (fun k => wave frame (off + (k % (size : Int)).toNat)) (q / 4294967296 : Nat) (q % 4294967296)

/-- A WAVE source's output: `pos` is the frame position with its modulation, in units of 2^-45. -/
def waveOut (wave : Nat → Nat → Int) (frames level interp morph phase : Nat) (pos : Int) : Int :=
  let g := (clampInt 0 35184372088832 pos).toNat * (frames - 1)
  if morph = 1 then waveRead wave ((g + 17592186044416) / 35184372088832) level interp phase
  else
    let i := g / 35184372088832
    let f := g % 35184372088832
    let a := waveRead wave i level interp phase
    if f = 0 then a
    else quotient ((35184372088832 - f : Int) * a + f * waveRead wave (i + 1) level interp phase) 35184372088832

/-! ### VA (R164) -/

/-- The waves without their residuals: saw, pulse, triangle. -/
def vaNaive (wave width phase : Nat) : Int :=
  match wave with
  | 0 => (phase : Int) - one31
  | 1 => if phase < width * 65536 then one31 else -one31
  | _ => if phase < 2147483648 then 2 * (phase : Int) - one31 else 3 * one31 - 2 * (phase : Int)

/-- The steps and corners of a wave on the phase line: where they lie, whether they are corners, their heights. -/
def vaEvents (wave width : Nat) (inc : Int) : List (Nat × Bool × Int) :=
  match wave with
  | 0 => [(4294967296, false, -2 * one31)]
  | 1 => [(width * 65536, false, -2 * one31), (4294967296, false, 2 * one31), (4294967296 + width * 65536, false, -2 * one31)]
  | _ => [(2147483648, true, -4 * inc), (4294967296, true, 4 * inc), (6442450944, true, -4 * inc)]

/-- What the residuals add now. -/
def residSum (l : List Resid) : Int :=
  l.foldl (fun acc r => acc + fmul r.height (shaper (if r.ramp then 5 else 4) (BitVec.ofNat 32 (r.tap * 2 ^ 28 + r.frac)))) 0

/-- The residuals one sample on: each lasts 16 internal samples. -/
def residNext (l : List Resid) : List Resid := (l.map fun r => { r with tap := r.tap + 1 }).filter fun r => decide (r.tap < 16)

/-- The residuals of the events passed from `p` to `q`, `late` (0.28 of a sample) before the next sample. -/
def residNew (wave width p q : Nat) (inc : Int) (late : Nat) : List Resid :=
  ((vaEvents wave width inc).filter fun ev => decide (p < ev.1) && decide (ev.1 ≤ q)).map fun ev =>
    { ramp := ev.2.1, frac := min 268435455 ((quotient ((q - ev.1 : Nat) * 268435456) inc.natAbs).toNat + late), tap := 0, height := ev.2.2 }

/-- One internal sample of a VA source. `sync`: the time since source A's wrap, 0.28 of a sample, where it has wrapped. Answers the
output, the state, and the time since its own wrap. -/
def vaNext (wave width : Nat) (inc : Int) (sync : Option Nat) (st : SrcSt) : Int × SrcSt × Option Nat :=
  let out := satInt 32 (vaNaive wave width st.phase + residSum st.resid)
  let step := inc.toNat
  let old := residNext st.resid
  match sync with
  | some late =>
    let q := st.phase + step * (268435456 - late) / 268435456
    let jump := vaNaive wave width 0 - vaNaive wave width (q % 4294967296)
    let p := step * late / 268435456
    let r := residNew wave width st.phase q inc late ++ [{ ramp := false, frac := late, tap := 0, height := jump }] ++
      residNew wave width 0 p inc 0
    (out, { st with phase := p % 4294967296, resid := old ++ r }, none)
  | none =>
    let q := st.phase + step
    let wrap := if 4294967296 ≤ q then some (min 268435455 (quotient ((q - 4294967296 : Nat) * 268435456) step).toNat) else none
    (out, { st with phase := q % 4294967296, resid := old ++ residNew wave width st.phase q inc 0 }, wrap)

/-! ### FM (R165) -/

/-- The modulators of operator `i` (0–3) in an algorithm. -/
def fmMods (algo i : Nat) : List Nat :=
  match algo, i with
  | 0, 0 => [1] | 0, 1 => [2] | 0, 2 => [3]
  | 1, 0 => [1] | 1, 1 => [2, 3]
  | 2, 0 => [1, 2] | 2, 2 => [3]
  | 3, 0 => [1, 2] | 3, 1 => [3]
  | 4, 0 => [1] | 4, 2 => [3]
  | 5, 0 => [3] | 5, 1 => [3] | 5, 2 => [3]
  | 6, 2 => [3]
  | _, _ => []

/-- The carriers of an algorithm. -/
def fmCarriers (algo : Nat) : List Nat :=
  match algo with
  | 0 | 1 | 2 | 3 => [0]
  | 4 => [0, 2]
  | 5 | 6 => [0, 1, 2]
  | _ => [0, 1, 2, 3]

/-- 2^(cents / 1,200) of a Q8.8 detune. -/
def detuneOf (cents : Int) : Int := if cents = 0 then one31 else exp2 (quotient (cents * 16777216) 307200)

/-- An operator's phase step: its ratio of the source's, or its fixed frequency, detuned. `o` is its record. -/
def fmStep (t : List Byte) (o sr : Nat) (inc : Int) : Nat :=
  let d := detuneOf (sintAt t (o + 2) 2)
  if byteAt t (o + 8) % 2 = 1 then (quotient ((numAt t (o + 10) 2 * 4294967296 : Nat) * d) (16 * sr * 2147483648)).toNat
  else (quotient (inc * numAt t o 2 * d) (256 * 2147483648)).toNat

/-- One internal sample of an FM source: `s` is the source block, `mShape` the modulation of its modulators' levels. -/
def fmNext (t : List Byte) (s sr : Nat) (inc mShape : Int) (st : SrcSt) : Int × SrcSt :=
  let algo := byteAt t (s + 0x10)
  let rec' (i : Nat) : Nat := s + 0x18 + 16 * i
  let carriers := fmCarriers algo
  let outs := [3, 2, 1, 0].foldl (fun (acc : List Int) i =>
    let mods := (fmMods algo i).foldl (fun a k => a + acc.getD k 0) 0
    let fb := if i = 3 then quotient (sintAt t (rec' 3 + 6) 2 * st.op4) 32768 else 0
    let lvl := sintAt t (rec' i + 4) 2
    let sine := sinOf (st.phases.getD i 0 + 4 * (mods + fb))
    let v := if carriers.contains i then quotient (lvl * sine) 32768 else quotient (lvl * upBy mShape * sine) (32768 * 35184372088832)
    setAt acc i v) [0, 0, 0, 0]
  let sum := carriers.foldl (fun a i => a + outs.getD i 0) 0
  (satInt 32 (quotient sum carriers.length),
    { st with
      phases := (List.range 4).map fun i => (st.phases.getD i 0 + fmStep t (rec' i) sr inc) % 4294967296
      op4 := outs.getD 3 0 })

/-! ### NOISE (R166) and ORGAN (R168) -/

/-- One internal sample of noise: white is the generator's state after its step; pink is white through the fixed filter. -/
def noiseNext (color seed : Nat) (st : SrcSt) : Int × SrcSt :=
  let x := xorshift st.noise
  (if color = 0 then noiseOut x else (Config.pink seed st.n).toInt, { st with noise := x })

/-- One internal sample of the ORGAN partials, percussion and click. -/
def organNext (t : List Byte) (sr seed : Nat) (inc : Int) (st : SrcSt) : Int × SrcSt :=
  let o (j : Nat) : Nat := 0x50 + 8 * j
  let step (j : Nat) : Nat := (quotient (inc * numAt t (o j) 2 * detuneOf (sintAt t (o j + 4) 2)) (256 * 2147483648)).toNat
  let perc := byteAt t 0xD0
  let decay := if st.n = 0 then one31 else clampInt 0 one31 (Config.percussion st.n (timeLen sr (numAt t 0xD4 2) 0))
  let partials := (List.range 16).foldl (fun acc j =>
    if numAt t (o j) 2 = 0 ∨ 9 * 4294967296 ≤ 20 * step j then acc
    else
      let extra := if j = perc then quotient (sintAt t 0xD2 2 * decay) 2147483648 else 0
      acc + quotient ((sintAt t (o j + 2) 2 + extra) * sinOf (st.phases.getD j 0)) 32768) 0
  let (w, st1) := noiseNext (byteAt t 0xDA) seed st
  let click := if st.n < numAt t 0xD8 2 then quotient (sintAt t 0xD6 2 * w) 32768 else 0
  (satInt 32 (partials + click), { st1 with phases := (List.range 16).map fun j => (st.phases.getD j 0 + step j) % 4294967296 })

/-! ### The start of a source -/

/-- A source at the voice's start: `s` is its block, `k` 0 for A and 1 for B. -/
def srcFirst (t : List Byte) (s k voiceSeed : Nat) : SrcSt :=
  let p := if byteAt t (s + 1) / 2 % 2 = 1 then numAt t (s + 10) 2 * 65536 else (Config.draw voiceSeed k 0).toNat
  let seed := if byteAt t s = 5 ∧ byteAt t (s + 0x11) = 1 then numAt t (s + 0x14) 4 else voiceSeed
  { phase := p, phases := List.replicate 4 p, noise := seedOf seed }

/-- ORGAN's partials at the voice's start. -/
def organFirst (t : List Byte) (voiceSeed : Nat) : SrcSt :=
  { phases := (List.range 16).map fun j => numAt t (0x56 + 8 * j) 2 * 65536, noise := seedOf voiceSeed }

/-- The phase increment of a source pitch in Q16.16 (R149). -/
def phaseInc (sr : Nat) (p : Int) : Int :=
  let f := exp2 (quotient ((p - 69 * 65536) * 256) 12)
  min 0x7FFFFFFF (roundDiv (440 * f * 4294967296) (sr * 2147483648))

/-- A source's pitch (R149), from the voice's: `s` is its block, `m` its pitch modulation. -/
def srcPitch (t : List Byte) (s : Nat) (p m : Int) : Int :=
  3932160 + quotient ((p - 3932160) * sintAt t (s + 6) 2) 16384 + 65536 * sintAt t (s + 2) 2 + quotient (256 * sintAt t (s + 4) 2) 100 +
  quotient (48 * m) 536870912

/-- The ratio of a SAMPLE source (R151), 4.28, and whether it was limited to 4.0. -/
def sampleRatio (sr : Nat) (p : Int) (e : Sample) : Nat × Bool :=
  let root := 65536 * (e.rootKey : Int) + quotient (256 * e.rootFine) 100
  let r := quotient (exp2 (quotient ((p - root) * 256) 12) * e.rate) (8 * sr)
  if 1073741824 < r then (1073741824, true) else (r.toNat, false)

/-! ### Entries and copies (R151, R154) -/

/-- The entry that the SAMPLE source at block `s` of voice `v` plays: its map's zone for the note's key and velocity at its start. -/
def Block.entryOf (b : Block) (v s : Nat) : Option Sample :=
  let x := b.voice v
  let blk := b.paramBlock v
  if x.prog = 2 ∨ byteAt blk s ≠ 1 then none
  else (zoneFor (b.sect 0xA) (numAt blk (s + 0x10) 2) x.zoneKey x.zoneVel).map (sampleAt (b.sect 0xA))

/-- Where the source stands (R151): at a voice's start, start_ofs within the entry; else the committed position, at `pos` of the half. -/
def Block.positionOf (b : Block) (v s pos : Nat) (e : Sample) : Nat :=
  let x := b.voice v
  if (if x.prog ≤ 2 then x.nat.fresh else decide (b.pickNo ≤ x.startPick)) then min (numAt (b.paramBlock v) (s + 0x14) 4) (e.len - 1) * 4294967296
  else b.stateNum v pos 8

/-- The half-rate copy that a SAMPLE source may read (R154): where the entry names one and mflags[1] is set. -/
def Block.halfCopy (b : Block) (v s : Nat) (e : Sample) : Option Sample :=
  if byteAt (b.paramBlock v) (s + 0x1A) / 2 % 2 = 1 ∧ e.flags / 2 % 2 = 1 then some (sampleAt (b.sect 0xA) e.halfRate) else none

/-- The ratio at the committed pitch exceeds 2.0 (R154): a customer program's window then holds the copy. -/
def Block.overTwo (b : Block) (v s : Nat) (e : Sample) : Bool :=
  let x := b.voice v
  let p := if x.nat.fresh && decide (b.pickNo ≤ x.startPick) then x.pKey else (BitVec.ofNat 32 (b.stateNum v 0x1C 4)).toInt
  decide (536870912 < (sampleRatio (b.osr * b.fs) (srcPitch (b.paramBlock v) s p 0) e).1)

/-! ### Stream windows (R158, R159) -/

/-- A SAMPLE source as its window's fetch sees it: position (32.32) and direction, loop, mode, whether its release jump is made, the frame
it may jump to, and how far it can go in the pick (32.32). -/
structure Reach where
  pos : Nat
  rev : Bool
  lp : Loop
  mode : Nat
  jumped : Bool
  rel : Option Nat
  way : Nat

/-- The frames at which the source can stand in the pick, as ranges (first, last), the one that it stands in first. -/
def Reach.ranges (x : Reach) : List (Nat × Nat) :=
  let p := x.pos / 2 ^ 32
  let top := (x.pos + x.way) / 2 ^ 32
  let n := top - p + 1
  let s := x.lp.start
  let e := s + x.lp.len
  let rel := match x.rel with | some r => if x.jumped then [] else [(r, r + n)] | none => []
  if x.mode = 0 ∨ x.lp.len = 0 ∨ x.jumped then (p, top) :: rel
  else if x.mode = 2 then
    -- alternating: back from E, and forward again from S
    (if x.rev then (max s (p - n), max p (min e (s + (s + n - p)))) else (if top < e then p else min p (max s (e - 1 - (top - e))), min top e)) :: rel
  else
    let xf := x.lp.xf
    [(p, min top e)] ++ (if e ≤ top + 16 then [(s, min e (s + (top - e) + 1))] else []) ++
      (if x.mode = 3 ∧ xf ≠ 0 ∧ e ≤ top + xf then [(max p (e - xf) - x.lp.len, min top e - x.lp.len)] else []) ++ rel

/-- The frames that an interpolation of `t` taps reads about a range, as (first, count), within `len` frames. -/
def tapSpan (t len : Nat) (r : Nat × Nat) : Nat × Nat :=
  let first := r.1 - (t / 2 - 1)
  (min first (len - 1), min len (r.2 + t - (t / 2 - 1)) - min first (len - 1))

/-- A span with frames of the two extra bursts: as many before and after it as the fetch happens to bring. -/
def moreFrames (pos f5 len : Nat) (x : Nat × Nat) : Nat × Nat :=
  let most := 320 / f5
  let a := min x.1 (min most (Config.windowExtra pos false))
  (x.1 - a, min (x.2 + a + min most (Config.windowExtra pos true)) (len - (x.1 - a)))

/-- The spans of frames in a window: every frame that the source can read in the pick at the ceiling. -/
def Reach.spans (x : Reach) (interp ceiling : Nat) (e : Sample) : List (Nat × Nat) :=
  match x.ranges.map (tapSpan (taps interp ceiling) e.len) with
  | a :: l => moreFrames x.pos (frame5 e.fmt) e.len a :: l
  | [] => []

/-- The window of a half-rate copy: the ranges at half the position and half the ratio. -/
def Reach.halfSpans (x : Reach) (interp ceiling : Nat) (e : Sample) : List (Nat × Nat) :=
  match (x.ranges.map fun r => (r.1 / 2, r.2 / 2)).map (tapSpan (taps interp (ceiling / 2)) e.len) with
  | a :: l => moreFrames x.pos (frame5 e.fmt) e.len a :: l
  | [] => []

/-- What source `i` (0 A, 1 B) of voice `v`, playing entry `e`, can reach in a pick at its ceiling. -/
def Block.reach (b : Block) (v i : Nat) (e : Sample) : Reach :=
  let s := 0x40 + 0x60 * i
  let blk := b.paramBlock v
  let x := b.voice v
  { pos := b.positionOf v s (0x20 + 8 * i) e, rev := (b.stateNum v 0x30 2).testBit i
    lp := loopOf e blk s (if i = 0 then x.lenA else x.lenB), mode := loopMode blk s e, jumped := b.jumped v i
    rel := if byteAt blk (s + 0x1A) % 2 = 1 ∧ e.flags % 2 = 1 then some e.relStart else none
    way := numAt blk 4 2 * (b.nInt - 1) * 2 ^ 20 }

/-- Whether a frame lies in a window. -/
def inSpans (l : List (Nat × Nat)) (k : Nat) : Bool := l.any fun x => decide (x.1 ≤ k) && decide (k < x.1 + x.2)

/-- The frame of a window nearest to frame `k` (R160, R215), of equals the first. -/
def nearestIn (l : List (Nat × Nat)) (k : Nat) : Option Nat :=
  l.foldl (fun acc x =>
    if x.2 = 0 then acc
    else
      let y := min (max k x.1) (x.1 + x.2 - 1)
      let far (z : Nat) : Nat := max k z - min k z
      match acc with
      | some z => if far y < far z then some y else acc
      | none => some y) none

end Sys2Proof.Machine
end

