-- ==== Sys2Proof/Machine/Dealer.lean ====
section
/-! DEFINITION. The Dealer (chapter 04): cards, decks, creation, selection, the end of a card, cancelling, and the snapshot. The ledgers
are Ledger.lean's, and what a completion does to the voice is Complete.lean's. -/

namespace Sys2Proof.Machine

/-! ### Roles and lanes (R93, R94) -/

/-- Whether a shuttle is retired (R425). -/
def retired (b : Block) (s : Nat) : Bool := (b.num (REL_RETIRE (s / 32))).testBit (s % 32)
/-- The shuttle that holds lane `l` of harness `h`. -/
def laneHolder (b : Block) (h l : Nat) : Nat :=
  match l with
  | 0 => b.get (DLR_LANE_lane0 h)
  | 1 => b.get (DLR_LANE_lane1 h)
  | 2 => b.get (DLR_LANE_lane2 h)
  | _ => b.get (DLR_LANE_lane3 h)
/-- Whether shuttle `s` is its harness's spare, under test. -/
def isSpare (b : Block) (s : Nat) : Bool := b.get (DLR_LANE_spare (s / 5)) == s % 5
/-- A shuttle's role: 0 load, 1 test, 2 retired. -/
def roleOf (b : Block) (s : Nat) : Nat := if retired b s then 2 else if isSpare b s then 1 else 0

/-! ### Cards (R81–R84) -/

/-- The 128 bits of a card (R81). -/
def Card.bits (c : Card) : Nat :=
  c.payload.toNat + c.pick % 65536 * 2 ^ 64 + c.budget * 2 ^ 80 + c.prog * 2 ^ 100 + c.type * 2 ^ 108 + c.level * 2 ^ 111 +
  c.flow * 2 ^ 114

/-- Whether a program may be named by cards of a type: a customer program's record says so (R234). -/
def progAllows (b : Block) (prog type : Nat) : Bool :=
  if prog < 64 then true
  else match b.vcodeRec prog with
    | none => true
    | some o =>
      let t := byteAt (b.sect 9) (o + 1)
      match type with
      | 0 => t % 2 == 1
      | 1 => t / 8 % 2 == 1
      | 2 => t / 2 % 2 == 1
      | 3 => t / 4 % 2 == 1
      | _ => false

/-- Whether a card's type and flow match the table (R82). -/
def cardOk (b : Block) (c : Card) : Bool :=
  (match c.type with
   | 0 | 1 | 5 => c.flow < 8192
   | 2 => 8192 ≤ c.flow && c.flow < 8448
   | 3 | 4 => 8448 ≤ c.flow && c.flow < 8512
   | _ => false) && progAllows b c.prog c.type

/-- The cards of a deck, in order of creation. -/
def deckCards (b : Block) (d : Nat) : List Card := b.dlr.cards.filter fun c => c.deck == d
/-- Whether a card counts in the depth statistics: READY or HELD (R107). -/
def Card.deep (c : Card) : Bool := c.st == .ready || c.st == .held
/-- The depth of a deck and level at the end of the cycle before `t`. -/
def depthOf (b : Block) (d l t : Nat) : Nat := ((deckCards b d).filter fun c => c.level == l && c.deep && decide (c.deepT < t)).length

/-- Keep the highest depth of the window (R107). A depth falls only where a card leaves, so its peaks stand just before. -/
def noteDepth (d l t : Nat) (b : Block) : Block :=
  let st := b.dlr.stats
  let k := d * 8 + l
  { b with dlr := { b.dlr with stats := { st with
    maxDepth := FMap.set (fun _ => 0) st.maxDepth k (max (FMap.get (fun _ => 0) st.maxDepth k) (depthOf b d l t)) } } }

/-- Replace the card of a number. -/
def setCard (c : Card) (b : Block) : Block :=
  { b with dlr := { b.dlr with cards := b.dlr.cards.map fun x => if x.no = c.no then c else x } }

/-- What a creation came to. -/
inductive Made where
  | ok
  | refused
  | full
deriving DecidableEq, Repr

/-- Whether an earlier card of the flow, in whatever deck, is not DONE (R86, R88). -/
def flowBusy (b : Block) (c : Card) : Bool := b.dlr.cards.any fun x => x.flow == c.flow && decide (x.no < c.no)

/-- Create a card (R82, R84, R86): refused when its type and flow do not match, not created when its deck is full. -/
def createCard (c : Card) (b : Block) : Made × Block :=
  if !cardOk b c then (.refused, (b.bump DLR_ERR_format).flag DLR_IRQ_STAT_format)
  else if 16384 ≤ (deckCards b c.deck).length then (.full, (b.bump DLR_ERR_deck_full).flag DLR_IRQ_STAT_deck_full)
  else
    let c1 := { c with no := b.dlr.nextNo }
    let st : CardSt := if c.type = 2 then .waiting else if flowBusy b c1 then .held else .ready
    (.ok, { b with dlr := { b.dlr with cards := b.dlr.cards ++ [{ c1 with st := st }], nextNo := b.dlr.nextNo + 1 } })

/-- The pick in progress is impaired (R435). -/
def impair (b : Block) : Block := { b with rel := { b.rel with impaired := true } }

/-! ### CARD_CREATE (R87) -/

/-- H_steal (R21). -/
def hSteal (b : Block) : Nat := capU b / 16

/-- A card of harness `h` created in the `i`-th cycle from 192 on. -/
def harnessCard (b : Block) (h i flow level type prog budget payload : Nat) (a : Option Apply := none) : Card :=
  { no := 0, flow := flow, level := level, type := type, prog := prog, budget := budget, pick := b.pickNo
    payload := BitVec.ofNat 64 payload, deck := h, st := .ready, readyT := b.dlr.pickT + 192 + i
    deepT := b.dlr.pickT + 192 + i, apply := a }

/-- The budget of a voice's render or trump card (R95). -/
def renderBudget (b : Block) (v : Nat) : Nat := b.voiceCost (b.voice v).prog b.nInt

/-- The fade fields of a render payload (R83). -/
def fadePayload (b : Block) (x : Voice) : Nat :=
  1024 + (if x.fadeLen ≤ x.fadePos + b.nInt then 2048 else 0) + x.fadePos % 1024 * 4096 + x.fadeLen % 1024 * 2 ^ 22

/-- A voice ends without a fade and is counted cut (R84, R101). -/
def cutVoice (v : Nat) (b : Block) : Block := (freeVoice v b).bump DLR_CUT_cut

/-- The trump card of a fading voice, charged to the steal ledger (R101). -/
def createTrump (h v : Nat) (acc : Nat × Block) : Nat × Block :=
  let (i, b) := acc
  let used := FMap.get (fun _ => 0) b.dlr.steal h
  let cost := renderBudget b v
  if hSteal b < used + cost then (i, cutVoice v b)
  else
    let (m, b1) := createCard (harnessCard b h i v 0 0 (b.voice v).prog cost (fadePayload b (b.voice v))) b
    match m with
    | .ok => (i + 1, { b1 with dlr := { b1.dlr with steal := FMap.set (fun _ => 0) b1.dlr.steal h (used + cost) } })
    | .full => (i + 1, impair (cutVoice v b1))
    | .refused => (i + 1, b1)

/-- The payload of an event-apply card (R82). -/
def applyPayload (b : Block) (a : Apply) : Nat := a.data.toNat + a.op % 64 * 2 ^ 32 + a.offset * b.osr % 256 * 2 ^ 38

/-- An event-apply card (R82, R84): when a starting voice's is not created, its voice is lost. -/
def createApply (h : Nat) (a : Apply) (acc : Nat × Block) : Nat × Block :=
  let (i, b) := acc
  if (b.voice a.voice).st == .free then acc
  else
    let (m, b1) := createCard (harnessCard b h i a.voice 1 1 8 180 (applyPayload b a) (some a)) b
    match m with
    | .ok | .refused => (i + 1, b1)
    | .full => (i + 1, if a.init then { b1 with dlr := { b1.dlr with lost := addNew a.voice b1.dlr.lost } } else b1)

/-- The render payload of a voice (R83): a voice that an event-apply card initialises in this pick starts at its offset. -/
def renderPayload (b : Block) (v : Nat) (inits : List Nat) : Nat :=
  if inits.contains v then (b.voice v).offset * b.osr % 256 + 512 else 0

/-- The render card of a voice: not created in a full deck, the voice contributes nothing and the pick is impaired (R84, R435). -/
def createRender (h : Nat) (inits : List Nat) (v : Nat) (acc : Nat × Block) : Nat × Block :=
  let (i, b) := acc
  let x := b.voice v
  let (m, b1) := createCard (harnessCard b h i v (b.part x.part).cls 0 x.prog (renderBudget b v) (renderPayload b v inits)) b
  (i + 1, match m with | .ok | .refused => b1 | .full => impair b1)

/-- A legacy render card of context `v` of instance `h` (R366, R368). -/
def createLegacy (h v : Nat) (acc : Nat × Block) : Nat × Block :=
  let (i, b) := acc
  let out := v == 32
  let payload := h * 2 ^ 32 + (if out then 0 else v) * 2 ^ 34 + (if out then 2 ^ 39 else 0) + (dvCtx b h v).list.length * 2 ^ 40
  let (m, b1) := createCard (harnessCard b h i (dvFlow h v) 3 5 3 (dvCost out b.nInt) payload) b
  (i + 1, match m with | .ok | .refused => b1 | .full => impair b1)

/-- Whether a voice renders in the pick: it sounds or is in release, and is not lost. -/
def renders (b : Block) (kv : Nat × Voice) : Bool :=
  (kv.2.st == .sounding || kv.2.st == .released) && !b.dlr.lost.contains kv.1

/-- A test card for the spare of harness `h`, when its sequence has steps left and no card of it waits (R434). Its flow is the
model's (notes/assumptions). -/
def createTest (h : Nat) (acc : Nat × Block) : Nat × Block :=
  let (i, b) := acc
  let k := b.get (DLR_LANE_spare h)
  let step := FMap.get (fun _ => 0) b.dlr.bistStep h
  if k ≥ 5 ∨ !b.on REL_CFG_rot_en ∨ b.dlr.testDone.contains h ∨ (deckCards b h).any (fun c => c.type == 4) then acc
  else
    let c := harnessCard b h i (8480 + h) 7 4 (32 + step / 8) (Config.bistCost step % 4097) (step + (5 * h + k) * 256)
    (i + 1, (createCard c b).2)

/-- The budget of a housekeeping card (R95): the declared cost of its task, at most 4,096 (R89). The VCODE section declares that of a
customer's program, and the request that of a ROM program, which no table of the spec gives (notes/assumptions). -/
def hkBudget (b : Block) (q : HkRequest) : Nat :=
  min 4096 (if q.prog.toNat < 64 then q.cost.toNat else b.voiceCost q.prog.toNat b.nInt)

/-- A housekeeping card, which a request of the hardware or of the resident firmware asks for (R81, R82). -/
def createHk (q : HkRequest) (acc : Nat × Block) : Nat × Block :=
  let (i, b) := acc
  let payload := q.task.toNat + q.data.toNat * 65536
  (i + 1, (createCard (harnessCard b q.deck.val i q.flow.toNat 7 3 q.prog.toNat (hkBudget b q) payload) b).2)

/-- The cards of one harness (R87): trump cards, continuing fades first, then event-apply cards, then render cards, each group in
ascending voice, then a test card and the housekeeping cards asked for. -/
def createHarness (h : Nat) (hk : List HkRequest) (b : Block) : Block :=
  let fading := (voicesOf b).filter fun kv => kv.1 / 256 == h && kv.2.st == .fading
  let old := (fading.filter fun kv => decide (kv.2.fadePick < b.pickNo)).map (·.1)
  let new := (fading.filter fun kv => decide (b.pickNo ≤ kv.2.fadePick)).map (·.1)
  let a1 := (old ++ new).foldl (fun acc v => createTrump h v acc) (0, b)
  let applies := b.dlr.applies.filter fun a => a.voice / 256 == h
  let a2 := applies.foldl (fun acc a => createApply h a acc) a1
  let inits := (applies.filter (·.init)).map (·.voice)
  let vs := ((voicesOf a2.2).filter fun kv => kv.1 / 256 == h && renders a2.2 kv).map (·.1)
  let a3 := vs.foldl (fun acc v => createRender h inits v acc) a2
  let a4 := if h < 4 ∧ dvOn b h ∧ !dvOverload b then (List.range 33).foldl (fun acc v => createLegacy h v acc) a3 else a3
  ((hk.filter fun q => q.deck.val == h).foldl (fun acc q => createHk q acc) (createTest h a4)).2

/-- A bus card of loom `l`, created in the `i`-th cycle from 192 on, for an entry of its plan (R82, R258). -/
def busCard (b : Block) (l i : Nat) (e : Entry) : Card :=
  { no := 0, flow := 8192 + e.bus, level := 2, type := 2, prog := e.prog, budget := b.voiceCost e.prog b.nInt, pick := b.pickNo
    payload := BitVec.ofNat 64 (b.pickNo % 2), deck := 32 + l, st := .waiting
    readyT := b.dlr.pickT + 192 + i, deepT := b.dlr.pickT + 192 + i }

/-- The bus cards of the pick in their order of creation: each loom deck creates one per cycle, in ascending flow (R87, R258). -/
def busOrder (b : Block) : List (Nat × Nat × Entry) :=
  sortBy (fun x y => lexLe [x.1, x.2.1] [y.1, y.2.1])
    ((List.range 4).flatMap fun l => (planOn b l).zipIdx.map fun e => (e.2, l, e.1))

/-- The bus cards, then the housekeeping cards asked for in loom decks (R87, R258). -/
def createLooms (hk : List HkRequest) (b : Block) : Block :=
  let b1 := (busOrder b).foldl (fun acc x => (createCard (busCard acc x.2.1 x.1 x.2.2) acc).2) b
  (List.range 4).foldl (fun acc l =>
    ((hk.filter fun q => q.deck.val == 32 + l).foldl (fun acc q => createHk q acc) ((planOn acc l).length, acc)).2) b1

/-! ### The phase gate (R88, R89) -/

/-- Cards of pick `n` at levels 0, 1 and 3–6 in the harness decks of loom `l` that are not DONE. -/
def voiceCardsLeft (b : Block) (l n : Nat) : Bool :=
  b.dlr.cards.any fun c => c.deck / 8 == l && c.pick == n && c.level != 2 && c.level != 7
/-- Bus cards of pick `n` of loom `l` that are not DONE. -/
def busCardsLeft (b : Block) (l n : Nat) : Bool := b.dlr.cards.any fun c => c.deck == 32 + l && c.pick == n && c.type == 2
/-- Whether the bus phase of pick `n` has ended on loom `l` (R19). -/
def phaseEnded (b : Block) (l n : Nat) : Bool := !voiceCardsLeft b l n && !busCardsLeft b l n

/-- The end of the loom's bus phase, once (R107). -/
def noteBusEnd (l t : Nat) (b : Block) : Block :=
  if b.dlr.gateOpen.contains l ∧ phaseEnded b l b.pickNo ∧ FMap.get (fun _ => none) b.dlr.busEnd l = none then
    { b with dlr := { b.dlr with busEnd := FMap.set (fun _ => none) b.dlr.busEnd l (some t) } }
  else b

/-- The gate of loom `l` opens in the cycle after its last voice card of the pick is DONE (R89): the WAITING cards become READY, or HELD
behind an earlier card of their flow. -/
def checkGate (l t : Nat) (b : Block) : Block :=
  if b.dlr.createdPick = b.pickNo + 1 ∧ !b.dlr.gateOpen.contains l ∧ !voiceCardsLeft b l b.pickNo then
    let open' (c : Card) : Card :=
      if c.deck = 32 + l ∧ c.st = .waiting ∧ c.pick = b.pickNo then
        { c with st := if flowBusy b c then .held else .ready, readyT := t + 1, deepT := t + 1 }
      else c
    noteBusEnd l t ({ b with dlr := { b.dlr with cards := b.dlr.cards.map open', gateOpen := b.dlr.gateOpen ++ [l] } })
  else b

/-- CARD_CREATE (R87): once per pick, after its released events have been acted on, while dealing runs. `hk`: what the hardware and the
resident firmware ask housekeeping cards for (R81). -/
def cardCreate (hk : List HkRequest) (b : Block) : Block :=
  if !b.on DLR_STAT_running ∨ !b.tbu.started ∨ b.dlr.createdPick = b.pickNo + 1 then b
  else
    let b1 := (List.range 32).foldl (fun acc h => createHarness h hk acc) b
    let b2 := createLooms hk b1
    let b3 := { b2 with dlr := { b2.dlr with applies := [], createdPick := b2.pickNo + 1 } }
    let b4 := (List.range 4).foldl (fun acc l => checkGate l (acc.dlr.pickT + 192 + (planOn acc l).length - 1) acc) b3
    -- the end of step 2: a query in progress is answered (R140)
    answerQuery { b4 with alc := { b4.alc with step2Done := true } }

/-! ### The end of a card (R86, R88, R96) -/

/-- The earliest card of the flow, where it is HELD, becomes READY in the cycle after `t` (R88). -/
def releaseHeld (flow t : Nat) (b : Block) : Block :=
  match b.dlr.cards.find? fun c => c.flow == flow with
  | some c => if c.st = .held then setCard { c with st := .ready, readyT := t + 1 } b else b
  | none => b

/-- Keep the lowest slack of a loom (R107). -/
def noteSlack (l : Nat) (x : Int) (b : Block) : Block :=
  let st := b.dlr.stats
  let low := match FMap.get (fun _ => none) st.slack l with | some y => min x y | none => x
  { b with dlr := { b.dlr with stats := { st with slack := FMap.set (fun _ => none) st.slack l (some low) } } }

/-- The last bus card of the pick before completes (R107): its loom was late. -/
def noteLateSlack (c : Card) (t : Nat) (b : Block) : Block :=
  if c.type = 2 ∧ c.pick + 1 = b.pickNo ∧ !busCardsLeft b (c.deck - 32) c.pick then noteSlack (c.deck - 32) ((b.dlr.pickT : Int) - t) b else b

/-- A card reaches DONE at `t` (R86, R96): its completion record is written, it leaves its deck, its flow goes on, and its loom's gate is
tested. -/
def finishCard (c : Card) (status : Status) (t : Nat) (b : Block) : Block :=
  let b0 := if c.deep then noteDepth c.deck c.level t b else b
  let b1 := noteLateSlack c t { b0 with dlr := { b0.dlr with
    cards := b0.dlr.cards.filter fun x => x.no != c.no
    records := b0.dlr.records ++ [{ flow := c.flow, type := c.type, pick := c.pick, deck := c.deck, status := status }] } }
  let b2 := releaseHeld c.flow t b1
  let b3 := if c.type = 3 ∨ c.type = 4 then { b2 with dlr := { b2.dlr with doneFlows := addNew c.flow b2.dlr.doneFlows } } else b2
  let l := if c.deck < 32 then c.deck / 8 else c.deck - 32
  noteBusEnd l t (checkGate l t b3)

/-! ### CARD_SELECT (R91–R95) -/

/-- Whether the windows of a render card's voice are in the pool (R159). -/
def windowsIn (b : Block) (c : Card) : Bool :=
  match c.type with
  | 0 => (b.voice c.flow).bytes == 0 || decide (c.pick + 1 ≤ (b.voice c.flow).winPick)
  | 5 => !dvNeedsWindow b (c.flow / 256) (c.flow % 256 / 4) || decide (c.pick + 1 ≤ (b.voice c.flow).winPick)
  | _ => true

/-- Whether a card is selectable by shuttle `s` at `t` (R86, R89, R93, R94, R145, R159, R367). -/
def selectable (b : Block) (s t : Nat) (c : Card) : Bool :=
  let h := s / 5
  let l := s / 40
  (c.deck == h || c.deck == 32 + l) && c.st == .ready && decide (c.readyT < t) &&
  (match roleOf b s with | 0 => c.type != 4 | 1 => c.type == 4 | _ => false) &&
  !(b.bit DLR_CFG_affinity l && decide (c.flow < 8192) && laneHolder b h (c.flow % 4) != s % 5) &&
  (c.type != 1 || (b.voice c.flow).copied) && windowsIn b c &&
  (c.type != 5 || !(b.dlr.cards.any fun x => x.deck == c.deck && x.type == 5 && x.pick == c.pick && decide (x.no < c.no))) &&
  (c.level != 7 || (b.dlr.gateOpen.contains l && !busCardsLeft b l b.pickNo))

/-- The order of R91. -/
def selectKey (c : Card) : List Nat := [c.level, c.readyT, if c.deck < 32 then 0 else 1, c.flow, c.no]
/-- The card that shuttle `s` gets at `t`. -/
def bestCard (b : Block) (s t : Nat) : Option Card :=
  (sortBy (fun x y => lexLe (selectKey x) (selectKey y)) (b.dlr.cards.filter (selectable b s t))).head?

/-- The shuttles of harness `h` that wait in DRAW, oldest DRAW first, then ascending k (R92). -/
def drawing (b : Block) (h : Nat) : List Nat :=
  sortBy (fun x y => lexLe [(b.shuttle x).drawT, x] [(b.shuttle y).drawT, y])
    (((List.range 5).map fun k => 5 * h + k).filter fun s => shtState b s == 0 && roleOf b s != 2)

/-- The wait statistics and the alarm of a selection (R107). -/
def noteWait (c : Card) (t : Nat) (b : Block) : Block :=
  let w := t - c.readyT
  let l := c.level
  let st := b.dlr.stats
  let g (m : FMap Nat) : Nat := FMap.get (fun _ => 0) m l
  let b1 := { b with dlr := { b.dlr with stats := { st with
    maxWait := FMap.set (fun _ => 0) st.maxWait l (max (g st.maxWait) w)
    sumWait := FMap.set (fun _ => 0) st.sumWait l ((g st.sumWait + w) % 2 ^ 64)
    count := FMap.set (fun _ => 0) st.count l ((g st.count + 1) % 2 ^ 64) } } }
  let alarm := b.get (DLR_WALM_cycles l)
  if alarm ≠ 0 ∧ alarm < w then b1.flag DLR_IRQ_STAT_wait_alarm else b1

/-- The payload as delivered: the committed half is written at selection (R214). -/
def deliveredPayload (b : Block) (c : Card) : Nat :=
  let half := (b.voice c.flow).half
  match c.type with
  | 0 | 5 => c.payload.toNat + half * 256
  | 1 => c.payload.toNat + half * 2 ^ 46
  | _ => c.payload.toNat

/-- One stream window of a voice source (R158, R159, R215): its spans of frames, where the sample lies, its format. -/
structure Window where
  spans : List (Nat × Nat) := []
  loc : Nat := 0
  fmt : Nat := 0
deriving DecidableEq, Repr

/-- The windows of SAMPLE source `i` (0 A, 1 B) of voice `v`: of the entry that it plays, and of the half-rate copy that it may read (R154);
empty for another source. -/
def sampleWindows (b : Block) (v i : Nat) : Window × Window :=
  let s := 0x40 + 0x60 * i
  let blk := b.paramBlock v
  match b.entryOf v s with
  | none => ({}, {})
  | some e =>
    let x := b.reach v i e
    let interp := byteAt blk (s + 0x12)
    ({ spans := x.spans interp (numAt blk 4 2) e, loc := b.mm.sampBase + e.off, fmt := e.fmt },
      match b.halfCopy v s e with
      | some k => { spans := x.halfSpans interp (numAt blk 4 2) k, loc := b.mm.sampBase + k.off, fmt := k.fmt }
      | none => {})

/-- The window that a stream read of source `i` sees (R215): the copy's where the ratio exceeds 2.0 (R154). -/
def shownWindow (b : Block) (v i : Nat) (w : Window × Window) : Window :=
  match b.entryOf v (0x40 + 0x60 * i) with
  | some e => if !w.2.spans.isEmpty && b.overTwo v (0x40 + 0x60 * i) e then w.2 else w.1
  | none => w.1

/-- The windows of a legacy voice (R369): 16P + 2 words from each origin. -/
def legacyWindow (b : Block) (flow : Nat) (o : Option Nat) : Window :=
  match o with
  | none => {}
  | some a => { spans := [(a, 16 * b.pick + 2)], loc := b.num (LEG_INST_BASE (flow / 256)) % 2 ^ 40, fmt := 4 }

/-- The windows of a card: two that its stream reads see, then those of the entries and those of their copies. -/
def cardWindows (b : Block) (c : Card) : List Window :=
  match c.type with
  | 0 =>
    let x := sampleWindows b c.flow 0
    let y := sampleWindows b c.flow 1
    [shownWindow b c.flow 0 x, shownWindow b c.flow 1 y, x.1, y.1, x.2, y.2]
  | 5 =>
    let (x, y) := dvWindows (dvCtx b (c.flow / 256) (c.flow % 256 / 4))
    if c.flow % 256 = 128 then [] else [legacyWindow b c.flow x, legacyWindow b c.flow y]
  | _ => []

/-- The words of WIN_FR and WIN_NF: the first span of a window. -/
def Window.words (w : Window) : List Word :=
  match w.spans with
  | x :: _ => [BitVec.ofNat 32 x.1, BitVec.ofNat 32 x.2]
  | [] => [0, 0]

/-- P13, P14 and P15 at DRAW (R229, R259). -/
def drawPointers (b : Block) (c : Card) : Nat × Nat × Nat :=
  if c.flow < 8192 then
    let p := 0x20000 + c.flow % 256 * 0x800
    let half := (b.voice c.flow).half
    (p, p + 0x400 + 0x200 * half, p + 0x600 - 0x200 * half)
  else if c.type = 2 then
    let l := c.deck - 32
    match entryFor b l (c.flow - 8192) with
    | some e => (0x180000, parBase b l e.ix, stateBase b l e.ix)
    | none => (0x180000, 0, 0)
  else (0, 0, 0)

/-- The selected card reaches shuttle `s` (R92, R95, R214, R229): the committed half is copied into the working half, and the shuttle
resumes at its program's entry. A program without an entry faults with ECAUSE 5. The fence counter holds the budget 4 cycles after the
selection, so that 4 more cycles count from there. -/
def deliver (s : Nat) (c : Card) (b : Block) : Block :=
  let c1 := { c with payload := BitVec.ofNat 64 (deliveredPayload b c), st := .inService s }
  let b1 := setCard c1 b
  let half := (b.voice c.flow).half
  let b2 := if c.flow < 8192 then
      { b1 with mem := Memory.setBytes b1.mem (halfBase c.flow (1 - half)) (Memory.bytes b1.mem (halfBase c.flow half) 512) }
    else b1
  let (p13, p14, p15) := drawPointers b c
  let ws := cardWindows b c
  let numbered {α : Type} (l : List α) : List (Nat × α) := l.zipIdx.map fun x => (x.2, x.1)
  let w (x : Nat) : Word := BitVec.ofNat 32 x
  let bits := c1.bits
  let sh := (b2.shuttle s).drain
  let sh1 := { sh with
    it := FMap.setAll (fun _ => 0) [] ((List.range 4).map fun i => (i, w (bits / 2 ^ (32 * i) % 2 ^ 32)))
    flg := 0
    p := setW (setW (setW sh.p 13 (w p13)) 14 (w p14)) 15 (w p15)
    win := FMap.setAll (fun _ => 0) [] (numbered ((ws.take 2).flatMap Window.words))
    winSpan := FMap.setAll (fun _ => []) [] (numbered (ws.map (·.spans)))
    winAt := FMap.setAll (fun _ => 0) [] (numbered (ws.map (·.loc)))
    winFmt := FMap.setAll (fun _ => 0) [] (numbered (ws.map (·.fmt)))
    tempo := tempoNow b, fence := c.budget + 4, fencePending := false, card := some c.no, levels := 0, branch := none, slotsLeft := 0, rep := none
    m0 := .nop, m1 := .nop, x := .nop, queue := [], done := none, fault := none, bundle := 0, flights := [], folds := []
    pc := ((progEntry b c.prog).map (·.1)).getD 0 % 8192
    banks := FMap.set (fun _ => {}) sh.banks sh.active { (FMap.get (fun _ => {}) sh.banks sh.active) with binds := [], sends := [] } }
  let b3 := b2.setShuttle s sh1
  let b4 := (((b3.put (SHT_SSTAT_state s) 1).put (SHT_SSTAT_prog s) c.prog).put (SHT_SSTAT_flow s) c.flow).put (SHT_SPC_pick s) (c.pick % 65536)
  if (progEntry b c.prog).isSome then b4 else pendFault s 5 0 b4

/-- What harness `h` selects at `t` (R92): the oldest of its shuttles in DRAW for which a card is selectable, and that shuttle's card. -/
def selection (b : Block) (h t : Nat) : Option (Nat × Card) := (drawing b h).findSome? fun s => (bestCard b s t).map fun c => (s, c)
/-- Whether a deck has made its selection of cycle `t` (R92). -/
def selected (b : Block) (d t : Nat) : Bool := FMap.get (fun _ => 0) b.dlr.selT d == t + 1
/-- A deck makes its selection of cycle `t`. -/
def noteSelected (d t : Nat) (b : Block) : Block := { b with dlr := { b.dlr with selT := FMap.set (fun _ => 0) b.dlr.selT d (t + 1) } }

/-- Whether harness `h` loses a card of loom deck `d` in cycle `t` (R92): the deck has made its selection, or a harness of lower number
selects from it in the same cycle. -/
def losesLoom (b : Block) (h d t : Nat) : Bool :=
  selected b d t || (List.range (h % 8)).any fun j =>
    let g := h / 8 * 8 + j
    !selected b g t && ((selection b g t).map fun x => x.2.deck == d).getD false

/-- CARD_SELECT (R91, R92): the oldest shuttle of harness `h` in DRAW for which a card is selectable gets its best one. A harness that has
selected in this cycle selects no more, and one that loses the loom card selects again in the next. -/
def cardSelect (h t : Nat) (b : Block) : Block :=
  if selected b h t then b
  else match selection b h t with
    | none => b
    | some (s, c) =>
      if c.deck ≠ h ∧ losesLoom b h c.deck t then b
      else deliver s c (noteWait c t (noteDepth c.deck c.level t (noteSelected c.deck t (noteSelected h t b))))

/-! ### Cancelling background work (R106) -/

/-- Write the result of a cancel. -/
def cancelResult (r : Nat) (b : Block) : Block :=
  ((b.put DLR_CANCEL_STAT_result r).put DLR_CANCEL_STAT_busy 0).flag DLR_IRQ_STAT_cancel_done

/-- A write of DLR_CANCEL (R106). A flow whose last card is DONE gives ABORT_LATE, one that never had a card NOT_FOUND. -/
def dlrCancel (v : Word) (t : Nat) (b : Block) : Block :=
  if b.on DLR_CANCEL_STAT_busy then b.flag DLR_CANCEL_STAT_ovr
  else
    let f := v.toNat % 16384
    let b1 := b.put DLR_CANCEL_STAT_flow f
    if f < 8448 ∨ 8512 ≤ f then cancelResult 3 b1
    else match b1.dlr.cards.find? fun c => c.flow == f with
      | none => cancelResult (if b1.dlr.doneFlows.contains f then 2 else 3) b1
      | some c => match c.st with
        | .inService _ => setCard { c with cancel := some t } (b1.put DLR_CANCEL_STAT_busy 1)
        | _ => cancelResult 1 (finishCard c .cancelled t b1)

/-! ### Snapshot (R108–R110) -/

/-- A request is pending, in cycle `t` or not: DLR_SNAP_CTL.req reads with it until the request is taken, refused or cancelled. -/
def snapPend (x t : Nat) (b : Block) : Block :=
  let b1 := (b.put DLR_SNAP_STAT_pending x).put DLR_SNAP_CTL_req x
  { b1 with dlr := { b1.dlr with snapT := t } }

/-- A snapshot request is written (R108, R109): ignored while pending. -/
def snapRequest (b : Block) : Block :=
  if b.on DLR_SNAP_STAT_pending then b
  else snapPend 1 b.now (((b.put DLR_SNAP_STAT_ready 0).put DLR_SNAP_STAT_err 0).put DLR_SNAP_STAT_abort_late 0)

/-- A snapshot cancel (R109): before the boundary it drops the request; later it has no effect and says so. The cycle of the cancel is
kept, for a boundary in the same cycle comes first (`snapBoundary`). -/
def snapCancel (b : Block) : Block :=
  if b.on DLR_SNAP_STAT_pending ∧ b.dlr.snap = none then
    let b1 := snapPend 0 b.dlr.snapT b
    { b1 with dlr := { b1.dlr with snapDrop := if b.dlr.snapT = b.now then none else some b.now } }
  else b.put DLR_SNAP_STAT_abort_late 1

/-- Bytes of a list of numbers, `n` bytes each. -/
def packs (n : Nat) (l : List Nat) : List Byte := l.flatMap (leBytes n)

/-- B_L as a statistic, slack and late count of a loom. -/
def loomStat (b : Block) (l : Nat) : List Byte :=
  let st := b.dlr.stats
  packs 4 [(BitVec.ofInt 32 ((FMap.get (fun _ => none) st.slack l).getD 0)).toNat, FMap.get (fun _ => 0) st.late l, busLoad b l, 0]

/-- The capacity K of harness `h` (R21, R100): 0 in a quarantined loom. -/
def capK (b : Block) (h : Nat) : Nat := if b.bit DLR_STAT_quar (h / 8) then 0 else b.get (DLR_HINFO_d h) * 4 * capU b / 1024

/-- The snapshot image with its SEQ (R110), taken at a boundary before anything of the pick that starts. -/
def snapImage (seq : Nat) (b : Block) : List Byte :=
  let st := b.dlr.stats
  let g (m : FMap Nat) (k : Nat) : Nat := FMap.get (fun _ => 0) m k
  let decks (d0 n : Nat) : List Byte := (List.range (8 * n)).flatMap fun i => packs 2 [g st.depth (8 * d0 + i), g st.maxDepth (8 * d0 + i)]
  packs 4 [seq, st.picks] ++ packs 8 [b.pickNo, b.now] ++ List.replicate 40 0 ++ decks 0 32 ++ decks 32 4 ++
  ((List.range 8).flatMap fun l => packs 4 [g st.maxWait l, 0] ++ packs 8 [g st.sumWait l, g st.count l]) ++
  ((List.range 160).flatMap fun s => packs 4 [g st.busy s, g st.winMax s, g st.served s, roleOf b s]) ++
  ((List.range 32).flatMap fun h =>
    packs 4 [capK b h, b.get (DLR_HCAP_A h), admitted b h, g b.dlr.steal h, harnessBytes b h, harnessBytes b h] ++
    packs 2 [admittedVoices b h, unitsUsed b b.pickNo h, g st.fences h % 65536, g st.faults h % 65536]) ++
  ((List.range 4).flatMap (loomStat b)) ++
  ((List.range 2).flatMap fun _ => packs 4 [(BitVec.ofInt 32 b.alc.wc).toNat, chBytes b, st.peak, 0]) ++ List.replicate 32 0

/-- Whether the destination of a snapshot is the Dealer's and in range (R108). -/
def snapTargetOk (b : Block) : Bool :=
  let o := b.get DLR_SNAP_ADDR_offset * 64
  decide (o + 5119 ≤ 0x3BFFFF) &&
  [o / 0x20000, (o + 5119) / 0x20000].all fun n => b.get (MEM_BANK_OWN_owner n) == 8

/-- A copy restarts the window of the maxima and minima (R107). -/
def restartWindow (b : Block) : Block :=
  { b with dlr := { b.dlr with stats := { b.dlr.stats with
      maxDepth := [], maxWait := [], winMax := [], served := [], slack := [], picks := 0, peak := chBytes b } } }

/-- A cancel in the cycle of the boundary comes too late (R109): the request stands, and abort_late is set. -/
def reviveSnap (b : Block) : Block :=
  if b.dlr.snapDrop = some b.now then (snapPend 1 b.dlr.snapT b).put DLR_SNAP_STAT_abort_late 1 else b

/-- At a pick boundary a pending request is served (R108, R109): the image of the statistics is taken, or err is set. A request written
in the boundary's own cycle waits for the next. -/
def snapBoundary (b : Block) : Block :=
  let b1 := { reviveSnap b with dlr := { (reviveSnap b).dlr with snapDrop := none } }
  if !b1.on DLR_SNAP_STAT_pending ∨ b1.dlr.snap ≠ none ∨ b1.dlr.snapT = b1.now then b1
  else if snapTargetOk b1 then
    let image := snapImage ((b1.get DLR_SNAP_STAT_seq + 1) % 65536) b1
    let b2 := restartWindow (b1.put DLR_SNAP_CTL_req 0)
    { b2 with dlr := { b2.dlr with snap := some (0x10000000 + b1.get DLR_SNAP_ADDR_offset * 64, image) } }
  else snapPend 0 b1.dlr.snapT (b1.put DLR_SNAP_STAT_err 1)

/-- The copy ends (R108): SEQ, seq, ready and pending in one cycle. -/
def snapDone (b : Block) : Block :=
  match b.dlr.snap with
  | none => b
  | some (a, image) =>
    let b1 := { b with
      mem := Memory.setBytes b.mem a image
      dlr := { b.dlr with snap := none } }
    (((b1.put DLR_SNAP_STAT_seq (b1.get DLR_SNAP_STAT_seq + 1)).put DLR_SNAP_STAT_ready 1).put DLR_SNAP_STAT_pending 0).flag
      DLR_IRQ_STAT_snap_ready

end Sys2Proof.Machine
end

