-- ==== Sys2Proof/Machine/VFilt.lean ====
section
/-! DEFINITION. The filters of a native voice (R180–R187), one internal sample at a time. Signals are in units of 2^-31, cutoffs in
semitones in units of 2^-45, the resonance in units of 2^-45. A filter's state is a list of signals, zero at the voice's start. -/

namespace Sys2Proof.Machine

/-- What a filter sees at one internal sample: the parameter block, its own place in it, its cutoffs, the resonance, OSR × fs. -/
structure FiltIn where
  blk : List Byte
  o : Nat
  cuts : List Int
  q : Int
  sr : Nat

/-- A byte of the filter's block. -/
def FiltIn.b (x : FiltIn) (k : Nat) : Nat := byteAt x.blk (x.o + k)
/-- A halfword of the filter's block. -/
def FiltIn.h (x : FiltIn) (k : Nat) : Nat := numAt x.blk (x.o + k) 2

/-- The cutoff n_c. -/
def FiltIn.nc (x : FiltIn) : Int := x.cuts.getD 0 0

/-- The cutoffs of a filter at the sub-block's end (R180, R186): from its semitone number in Q8.8, or those of the three formants, with key
tracking and the modulation sum. -/
def cutoffsOf (t : List Byte) (o key : Nat) (m : Int) : List Int :=
  (if byteAt t o = 4 then [16, 24, 32] else [4]).map fun (k : Nat) =>
    (numAt t (o + k) 2 : Int) * 137438953472 + sintAt t (o + 6) 2 * 2147483648 * ((key : Int) - 60) + 96 * m

/-- The resonance of R180: stepped, bounded below 1. -/
def resoOf (t : List Byte) (o : Nat) (m : Int) : Int :=
  clampInt 0 (35184372088832 - 536870912) ((numAt t (o + 8) 2 : Int) * 536870912 + m)

/-- A semitone number as a frequency in Hz (units of 2^-31), between 8 Hz and 0.45 × OSR × fs (R180). -/
def FiltIn.hz (x : FiltIn) (nc : Int) : Int :=
  clampInt (8 * one31) (quotient (9 * x.sr * one31) 20) (440 * exp2 (quotient (nc - 69 * 35184372088832) 25165824))

/-! ### Complex-pole cascade (R181–R183) -/

/-- The Bessel prototype poles, σ and ω × 10,000, of `n` poles, stage by stage. -/
def besselPole (n k : Nat) : Int × Int :=
  match n, k with
  | 2, _ => (11016, 6360)
  | 4, 0 => (13700, 4102) | 4, _ => (9952, 12571)
  | 6, 0 => (15716, 3209) | 6, 1 => (13819, 9715) | 6, _ => (9307, 16620)
  | _, 0 => (17574, 2737) | _, 1 => (16370, 8228) | _, 2 => (13836, 13888) | _, _ => (8929, 19984)

/-- The prototype pole of stage `k` as (σ, ω): the family's; the resonant family lowers σ of stage 0; high-pass takes 1 / ŝ. -/
def FiltIn.proto (x : FiltIn) (k : Nat) : Int × Int :=
  let n := x.b 1
  let (s0, w0) :=
    if x.b 2 = 2 then
      let (s, w) := besselPole n k
      (quotient (s * one31) 10000, quotient (w * one31) 10000)
    else
      let phi := quotient ((2 * k + 1 : Nat) * 4294967296) (4 * n)
      (sinOf phi, cosOf phi)
  let s := if x.b 2 = 1 ∧ k = 0 then quotient (s0 * (35184372088832 - x.q)) 35184372088832 else s0
  if x.b 3 = 1 then
    let d := fmul s s + fmul w0 w0
    (fdiv s d, -(fdiv w0 d))
  else (s, w0)

/-- The pole p_k = r_k e^(jθ_k) (R181) as real and imaginary part. -/
def FiltIn.pole (x : FiltIn) (k : Nat) : Int × Int :=
  let (s, w) := x.proto k
  let f := x.hz x.nc
  let r := min (decayOf (s * f) (x.sr * 4611686018427387904)) (one31 - 32768)
  let th := quotient (w * 2 * f) (x.sr * 2147483648)
  (fmul r (cosOf th), fmul r (sinOf th))

/-- x / y for signals, with the sign where it belongs. -/
def ratioOf (x y : Int) : Int := if y < 0 then quotient (-x) y.natAbs else quotient x y.natAbs

/-- The zero c_k, in units of 2^-31, and the gain (a_k, b_k), in units of 2^-62, of a mode (R182): 0 low-pass, 1 high-pass, else band-pass,
whose gain at z = e^(jω_cT) is a_k abs(1 − z^-2) / abs((1 − p z^-1)(1 − p* z^-1)). -/
def FiltIn.gain (x : FiltIn) (pr pi : Int) : Int × Int × Int :=
  match x.b 3 with
  | 0 =>
    let a := quotient ((one31 - pr) * (one31 - pr) + pi * pi) 4
    (one31, a, ratioOf (-(a * (one31 + pr))) pi)
  | 1 =>
    let a := quotient ((one31 + pr) * (one31 + pr) + pi * pi) 4
    (-one31, a, ratioOf (a * (one31 - pr)) pi)
  | _ =>
    let th := quotient (2 * x.hz x.nc) x.sr
    let mag := pr * pr + pi * pi
    let re := (4611686018427387904 + mag) * cosOf th - 2 * pr * 4611686018427387904
    let im := (4611686018427387904 - mag) * sinOf th
    let a := ratioOf (rootOf (re * re + im * im).toNat) (2 * sinOf th)
    (-one31, a, ratioOf (-(a * (one31 + pr))) pi)

/-- Stage `k` on the input `u`: its state is (u_prev, Re y, Im y). In the resonant family stage 0 is held to the magnitude λ (R183). -/
def FiltIn.stage (x : FiltIn) (k : Nat) (u : Int) (st : List Int) : Int × List Int :=
  let (pr, pi) := x.pole k
  let (c, a, b) := x.gain pr pi
  let w := u + fmul c (st.getD 0 0)
  let yr := st.getD 1 0
  let yi := st.getD 2 0
  let r := quotient (a * w + (pr * yr - pi * yi) * 2147483648) 4611686018427387904
  let i := quotient (b * w + (pr * yi + pi * yr) * 2147483648) 4611686018427387904
  let lim : Int := (x.h 10 * 65536 : Nat)
  let mag := r * r + i * i
  let (r, i) := if x.b 2 = 1 ∧ k = 0 ∧ lim * lim < mag then (quotient (r * lim) (rootOf mag.toNat), quotient (i * lim) (rootOf mag.toNat)) else (r, i)
  (r, [u, r, i])

/-- The cascade: each stage's real output is the next one's input; notch is the input minus the band-pass (R182). -/
def FiltIn.cpc (x : FiltIn) (u : Int) (st : List Int) : Int × List Int :=
  let (v, st') := (List.range (x.b 1 / 2)).foldl (fun (acc : Int × List Int) k =>
    let (y, s) := x.stage k acc.1 ((st.drop (3 * k)).take 3)
    (y, acc.2 ++ s)) (u, [])
  (if x.b 3 = 3 then u - v else v, st')

/-! ### Ladder, state-variable, formant (R184–R186) -/

/-- The ladder (R184): its state is y1–y4. -/
def FiltIn.ladder (x : FiltIn) (u : Int) (st : List Int) : Int × List Int :=
  let w := one31 - decayOf (x.hz x.nc) (x.sr * 2147483648)
  let y (k : Nat) : Int := st.getD (k - 1) 0
  let s0 := tanhOf (quotient (u * x.h 12) 4096 - quotient (4 * x.q * y 4) 35184372088832)
  let y1 := y 1 + fmul w (s0 - tanhOf (y 1))
  let y2 := y 2 + fmul w (tanhOf y1 - tanhOf (y 2))
  let y3 := y 3 + fmul w (tanhOf y2 - tanhOf (y 3))
  let y4 := y 4 + fmul w (tanhOf y3 - tanhOf (y 4))
  let l := [y1, y2, y3, y4]
  (l.getD (x.b 1 - 1) 0, l)

/-- The state-variable filter (R185): its state is s1, s2. -/
def FiltIn.svf (x : FiltIn) (u : Int) (st : List Int) : Int × List Int :=
  let ph := quotient (x.hz x.nc) x.sr
  let g := fdiv (sinOf ph) (cosOf ph)
  let r := max (quotient (35184372088832 - x.q) 16384) 8388608
  let s1 := st.getD 0 0
  let s2 := st.getD 1 0
  let hp := fdiv (u - fmul (2 * r + g) s1 - s2) (one31 + fmul (2 * r) g + fmul g g)
  let bp := fmul g hp + s1
  let lp := fmul g bp + s2
  let out := match x.b 3 with
    | 0 => lp
    | 1 => hp
    | 2 => bp
    | _ => u - fmul (2 * r) bp
  (out, [fmul g hp + bp, fmul g bp + lp])

/-- The formant filter (R186): three resonators, each with the state (Re y, Im y). -/
def FiltIn.formant (x : FiltIn) (u : Int) (st : List Int) : Int × List Int :=
  (List.range 3).foldl (fun (acc : Int × List Int) j =>
    let o := 16 + 8 * j
    let f := x.hz (x.cuts.getD j 0)
    let r := decayOf (x.h (o + 2) * (10 * 35184372088832 - 9 * x.q)) (320 * 35184372088832 * x.sr)
    let th := quotient (2 * f) x.sr
    let pr := fmul r (cosOf th)
    let pi := fmul r (sinOf th)
    let yr := st.getD (2 * j) 0
    let yi := st.getD (2 * j + 1) 0
    let r' := quotient ((one31 - r) * u + pr * yr - pi * yi) 2147483648
    let i' := quotient (pr * yi + pi * yr) 2147483648
    (acc.1 + quotient (sintAt x.blk (x.o + o + 4) 2 * r') 32768, acc.2 ++ [r', i'])) (0, [])

/-- One internal sample of a filter; type 0 passes its input unchanged (R176). -/
def FiltIn.next (x : FiltIn) (u : Int) (st : List Int) : Int × List Int :=
  match x.b 0 with
  | 1 => x.cpc u st
  | 2 => x.ladder u st
  | 3 => x.svf u st
  | 4 => x.formant u st
  | _ => (u, st)

end Sys2Proof.Machine
end

