-- ==== Sys2Proof/Machine/VRender.lean ====
section
/-! DEFINITION. The ROM voice programs STD, LITE and ORGAN (R143, R174–R179, R204): what a render or trump card of one of them makes of a
voice in a pick, control sub-block by control sub-block. -/

namespace Sys2Proof.Machine

/-! ### What a card sees -/

/-- What a program has of the shaping features (R204). -/
structure Coverage where
  srcB : Bool
  filt1 : Bool
  filt2 : Bool
  drive : Bool
  sends : Nat
  envs : Nat
  lfos : Nat
  slots : Nat

/-- STD, LITE and ORGAN. -/
def coverage (prog : Nat) : Coverage :=
  match prog with
  | 0 => { srcB := true, filt1 := true, filt2 := true, drive := true, sends := 4, envs := 4, lfos := 3, slots := 24 }
  | 1 => { srcB := false, filt1 := true, filt2 := false, drive := false, sends := 2, envs := 2, lfos := 1, slots := 8 }
  | _ => { srcB := false, filt1 := false, filt2 := false, drive := false, sends := 2, envs := 1, lfos := 1, slots := 4 }

/-- The frames of a sample as its stream window gives them (R160, R215), and which lie in it. -/
structure Frames where
  e : Sample
  frame : Nat → Int
  inWindow : Nat → Bool

/-- A sample entry with its stream window, and the half-rate copy that the source may read with its own (R154). -/
structure SampleSrc where
  full : Frames
  half : Option Frames

/-- The entry. -/
def SampleSrc.e (x : SampleSrc) : Sample := x.full.e

/-- What a card of a native voice reads beside its native state. -/
structure CardIn where
  prog : Nat
  x : Voice
  v : Nat
  pick : Nat
  /-- the first internal sample, N, the OSR, OSR × fs -/
  start : Nat
  n : Nat
  osr : Nat
  sr : Nat
  /-- the parameter block with every write of the pick in it -/
  blk : List Byte
  /-- velocity, release velocity, unison offsets from the state header -/
  vel : Nat
  relVel : Nat
  detune : Int
  pan : Int
  seed : Nat
  base : MirrorBase
  mirror : List Mirror
  /-- the MIX section, with the global LFO records -/
  mix : List Byte
  /-- internal samples of the fade rendered, and its length; none in a render card -/
  fade : Option (Nat × Nat)
  smpA : Option SampleSrc
  smpB : Option SampleSrc
  /-- the frames of a wavetable and its samples: table, frame, place -/
  frames : Nat → Nat
  wave : Nat → Nat → Nat → Int
  /-- the word of an input channel's block -/
  input : Nat → Nat → Int

/-- How far a card has come: the native state, the sample positions, the sends (lane, internal sample, value), whether the voice has
ended, whether a ratio was limited, the pitch in force, and the internal samples rendered. -/
structure Run where
  nat : Native
  playA : Play
  playB : Play
  sends : List (Nat × Nat × Word) := []
  ended : Bool := false
  rclamp : Bool := false
  pitch : Int := 0
  done : Nat := 0
  /-- whether sources A and B read their half-rate copies in this pick (R154): decided at its first sub-block -/
  halfA : Option Bool := none
  halfB : Option Bool := none

/-! ### Changes at their offsets (R58, R174, R175) -/

/-- A part after one mirrored change. -/
def Part.mirrored (p : Part) (m : Mirror) : Part :=
  match m.field with
  | .ctl c => { p with ctl := FMap.set (fun _ => 0) p.ctl c m.value.toNat }
  | .bend => { p with bend := m.value.toNat }
  | .sustain => { p with sustain := m.value.toNat }
  | .sostenuto => { p with sostenuto := m.value.toNat }
  | .soft => { p with soft := m.value.toNat }
  | .fine => { p with fine := m.value }
  | .transpose => { p with transpose := m.value }
  | .bendRange => { p with bendRange := m.value.toNat }
  | .pnBendRange => { p with pnBendRange := m.value.toNat }
  | .modRange => { p with modRange := m.value.toNat }
  | _ => p

/-- The part as the sub-block at `t` sees it: the last change of each field at or before it. -/
def CardIn.partAt (c : CardIn) (t : Nat) : Part :=
  (c.mirror.filter fun m => m.part == c.x.part && decide (m.offset * c.osr ≤ t)).foldl Part.mirrored
    (FMap.get (fun _ => {}) c.base.parts c.x.part)

/-- Whether a replaced value still stands in the sub-block at `t`: its change comes later. -/
def CardIn.later (c : CardIn) (t : Nat) (u : Undo) : Bool := decide (c.pick < u.pick) || (u.pick == c.pick && decide (t < u.off))

/-- A value at `t`: what the first later change replaced, or the present one. -/
def CardIn.valueAt (c : CardIn) (t : Nat) (what : OldValue) (now : Int) : Int :=
  ((c.x.undo.find? fun u => u.what == what && c.later t u).map (·.old)).getD now

/-- A halfword of a block replaced. -/
def putHalf (blk : List Byte) (o : Nat) (v : Int) : List Byte := setAt (setAt blk o (BitVec.ofInt 8 v)) (o + 1) (BitVec.ofInt 8 (v / 256))

/-- The parameter block at `t`: the later writes taken back, the last first. -/
def CardIn.blkAt (c : CardIn) (t : Nat) : List Byte :=
  c.x.undo.foldr (fun u blk => match u.what with | .param o => if c.later t u then putHalf blk o u.old else blk | _ => blk) c.blk

/-- Whether a change at internal sample `off` of pick `p` takes effect in the sub-block at `t` (R175): the first whose start is at or
after it. `seen` is the start of the sub-block before. -/
def CardIn.lands (c : CardIn) (seen : Option (Nat × Nat)) (t p off : Nat) : Bool :=
  (decide (p < c.pick) || (p == c.pick && decide (off ≤ t))) &&
  match seen with
  | some s => decide (s.1 < p) || (p == s.1 && decide (s.2 < off))
  | none => true

/-! ### The controls of a sub-block (R174) -/

/-- The value of global LFO `g` in the sub-block at `t` (R198), and whether it is bipolar. -/
def CardIn.globalLfo (c : CardIn) (t g : Nat) : Int × Bool :=
  let o := 0x40 + 32 * g
  let locked := byteAt c.mix (o + 1) % 2 == 1
  -- the beat of the sub-block's first sample, also for a voice that starts within it
  let beat := c.base.beats.getD (t / 8 * 8 / c.osr) 0
  let way : Int := (numAt c.mix (o + 4) 2 * 65536 : Nat) +
    (if locked then quotient ((beat * 65536 : Nat)) (numAt c.mix (o + 2) 2)
     else ((FMap.get (fun _ => 0) c.base.glfo g + t / 8 * lfoStep c.mix o c.sr 8 0 : Nat) : Int))
  let cycle := (way / 4294967296).toNat
  let rand (k : Nat) : Int := (Config.draw 0 (32 + g) k).toInt
  let uni := byteAt c.mix (o + 1) / 4 % 2 == 1
  (lfoRaw uni (lfoShape (byteAt c.mix o) (way % 4294967296).toNat (rand cycle) (rand (cycle + 1)) (fun _ => 0)), !uni)

/-- The native state of a voice that starts (R166, R187, R190, R197). -/
def CardIn.fresh (c : CardIn) (e : VCtx) (beat : Nat) : Native :=
  let cov := coverage c.prog
  { fresh := true
    env := (List.range cov.envs).map (envFirst e)
    lfo := (List.range cov.lfos).map (lfoFirst e.blk c.seed)
    srcA := if c.prog = 2 then organFirst e.blk c.seed else srcFirst e.blk 0x40 0 c.seed
    srcB := srcFirst e.blk 0xA0 1 c.seed
    beat0 := beat }

/-- A retrigger (R191): every envelope restarts, and the note is held again. -/
def Run.retrig (r : Run) (e : VCtx) : Run :=
  { r with nat := { r.nat with env := r.nat.env.zipIdx.map fun s => s.1.retrig e s.2, released := false } }

/-- The release jump of a source that does not loop (R157): made at the release, once. In a loop it is made at E (SampleIn.step). `s` is the
block. -/
def Play.onRelease (p : Play) (blk : List Byte) (s : Nat) (set : Bool) (smp : Option SampleSrc) : Play :=
  match smp with
  | some x =>
    if (loopMode blk s x.e = 0 ∨ (loopOf x.e blk s set).len = 0) ∧ !p.jumped ∧ byteAt blk (s + 0x1A) % 2 = 1 ∧ x.e.flags % 2 = 1 then
      { p with pos := x.e.relStart * 4294967296, jumped := true, rev := false }
    else p
  | none => p

/-- A release (R175, R190). -/
def Run.release (r : Run) (c : CardIn) (e : VCtx) : Run :=
  { r with
    nat := { r.nat with env := r.nat.env.zipIdx.map fun s => s.1.release e s.2, released := true }
    playA := r.playA.onRelease e.blk 0x40 c.x.lenA c.smpA
    playB := r.playB.onRelease e.blk 0xA0 c.x.lenB c.smpB }

/-- The commands that land in the sub-block at `t`, in the order of R61. -/
def CardIn.commands (c : CardIn) (nat : Native) (t : Nat) : List VoiceCmd :=
  sortBy (fun x y => lexLe [x.pick, x.off, x.no] [y.pick, y.off, y.no]) (c.x.cmds.filter fun m => m.ready && c.lands nat.seen t m.pick m.off)

/-- A release or a retrigger happens. -/
def Run.happen (r : Run) (c : CardIn) (e : VCtx) (m : VoiceCmd) : Run :=
  if m.release then r.release c e else if m.retrig then r.retrig e else r

/-- p_key (R147): the note's pitch attribute where flags.attr_pitch honours it, else the pitch of its key. -/
def CardIn.keyAt (c : CardIn) (e : VCtx) (t : Nat) : Int :=
  let a := c.valueAt t .attr c.x.attr
  if 0 ≤ a ∧ numAt e.blk 2 2 % 2 = 1 then a else c.valueAt t .pitch c.x.pKey

/-- The voice pitch of R147 but for the glide. -/
def CardIn.pitch (c : CardIn) (e : VCtx) (p : Part) (t : Nat) (drift mPitch : Int) : Int :=
  let flags := numAt e.blk 2 2
  c.keyAt e t + 65536 * (p.transpose + sintAt e.blk 6 2) +
  roundDiv (256 * (p.fine + sintAt e.blk 8 2 + c.valueAt t .detune c.detune)) 100 +
  (if flags / 2 % 2 = 1 then 2 * (p.bendRange : Int) * ((p.bend : Int) - 32768) else 0) +
  (if flags / 4 % 2 = 1 then 2 * (p.pnBendRange : Int) * (c.valueAt t .pnBend c.x.pnBend - 32768) else 0) +
  roundDiv (256 * (numAt e.blk 14 2 : Int) * drift) 214748364800 + roundDiv (48 * mPitch) 536870912

/-- The glide that an event-apply card brings into the sub-block at `t` (R133, R195): from the part's previous pitch at a voice's start,
else from the pitch that the voice is sounding. A card without one ends a glide. -/
def CardIn.glideAt (c : CardIn) (e : VCtx) (nat : Native) (t : Nat) (sounding base : Int) : Option Glide :=
  match ((c.commands nat t).filter fun m => !m.release).getLast? with
  | none => nat.glide
  | some m => match m.glide with
    | some (src, code) =>
      if numAt e.blk 2 2 / 8 % 2 = 1 then
        some { diff := if nat.fresh then src - c.keyAt e t else sounding - base, n := 0, len := timeLen c.sr code 0 }
      else none
    | none => none

/-- glide_offset (R195). -/
def Glide.offset (g : Glide) : Int := if g.len ≤ g.n then 0 else roundDiv (g.diff * (g.len - g.n : Nat)) g.len

/-! ### One internal sample (R176–R179) -/

/-- The controls of a sub-block that its samples share: the S destinations and the pan gains; `old` and `new` are the ends of the ramps. -/
structure Ctl where
  blk : List Byte
  key : Nat
  vel : Nat
  m : Nat
  old : Ramps
  new : Ramps
  env0 : Int × Int
  shapeA : Int
  shapeB : Int
  q1 : Int
  q2 : Int
  gain : Int
  fm : Int
  gL : Int
  gR : Int
  smpA : Option SampleIn
  smpB : Option SampleIn

/-- One internal sample of the source at block `s`: `inc1` is the increment at the sub-block's end, `t` the sample's number in the pick. -/
def CardIn.source (c : CardIn) (k : Ctl) (s : Nat) (smp : Option SampleIn) (inc inc1 mShape : Int) (sync : Option Nat) (t : Nat)
    (st : SrcSt) (pl : Play) : Int × SrcSt × Play × Option Nat :=
  let b := k.blk
  let turn (st : SrcSt) : SrcSt := { st with phase := (((st.phase : Int) + inc) % 4294967296).toNat }
  match byteAt b s with
  | 1 => match smp with
    | some x => let (v, p) := x.next pl; (v, st, p, none)
    | none => (0, st, pl, none)
  | 2 =>
    let w := numAt b (s + 0x10) 2
    (satInt 32 (waveOut (c.wave w) (c.frames w) (mipLevel inc1) (byteAt b (s + 0x14)) (byteAt b (s + 0x15)) st.phase
      ((numAt b (s + 0x12) 2 * 536870912 : Nat) + mShape)), turn st, pl, none)
  | 3 =>
    let width := (clampInt 0x200 0xFE00 ((numAt b (s + 0x12) 2 : Int) + quotient mShape 1073741824)).toNat
    let (v, st', w) := vaNext (byteAt b (s + 0x10)) width inc (if byteAt b (s + 0x11) = 1 then sync else none) st
    (v, st', pl, w)
  | 4 => let (v, st') := fmNext b s c.sr inc mShape st; (v, st', pl, none)
  | 5 =>
    let seed := if byteAt b (s + 0x11) = 1 then numAt b (s + 0x14) 4 else c.seed
    let (v, st') := noiseNext (byteAt b (s + 0x10)) (seedOf seed) st
    (v, st', pl, none)
  | 6 => (c.input (byteAt b (s + 0x10)) t, st, pl, none)
  | _ => (0, st, pl, none)

/-- Drive at a point (R176): 1 before filter 1, 2 between the filters, 3 after them. -/
def Ctl.drive (k : Ctl) (on : Bool) (point : Nat) (x : Int) : Int :=
  if on && byteAt k.blk 0x1C1 == point then
    let y := quotient (x * numAt k.blk 0x1C2 2 * k.gain) (4096 * 2147483648)
    if byteAt k.blk 0x1C4 = 0 then tanhOf y else softClip y
  else x

/-- The routing of the sources through drive and filters (R176): the signal, and the filters' states. -/
def CardIn.route (c : CardIn) (k : Ctl) (j : Nat) (a b : Int) (f1 f2 : List Int) : Int × List Int × List Int :=
  let cov := coverage c.prog
  let cuts (x y : List Int) : List Int := List.zipWith (fun u w => between u w j k.m) x y
  let x1 : FiltIn := { blk := k.blk, o := 0x100, cuts := cuts k.old.cut1 k.new.cut1, q := k.q1, sr := c.sr }
  let x2 : FiltIn := { blk := k.blk, o := 0x160, cuts := cuts k.old.cut2 k.new.cut2, q := k.q2, sr := c.sr }
  let run1 (u : Int) : Int × List Int := if cov.filt1 then x1.next u f1 else (u, f1)
  let run2 (u : Int) : Int × List Int := if cov.filt2 then x2.next u f2 else (u, f2)
  let d := k.drive cov.drive
  let mix (u w : Int) : Int := quotient ((35184372088832 - k.fm) * u + k.fm * w) 35184372088832
  match (if cov.srcB then byteAt k.blk 0x1C0 else 0) with
  | 1 =>
    let (u, g1) := run1 (d 1 a)
    let (w, g2) := run2 (d 1 b)
    (d 3 (mix u w), g1, g2)
  | 2 =>
    let x := d 1 (a + b)
    let (u, g1) := run1 x
    let (w, g2) := run2 x
    (d 3 (mix u w), g1, g2)
  | _ =>
    let (u, g1) := run1 (d 1 (a + b))
    let (w, g2) := run2 (d 2 u)
    (d 3 w, g1, g2)

/-- The dry and send writes of the mono signal `m` at internal sample `t` (R177, R178); `j` is its place in the sub-block. Lanes are numbered
16 + bus. -/
def CardIn.writes (c : CardIn) (k : Ctl) (j t : Nat) (m : Int) : List (Nat × Nat × Word) :=
  let b := k.blk
  let bus := byteAt b 0xA
  let og : Int := numAt b 0xC 2
  let dry (g : Int) : Word := sat32 (quotient (m * g * og) (2147483648 * 16384))
  let d := match byteAt b 0xB with
    | 0 => [(16 + bus, t, dry k.gL), (17 + bus, t, dry k.gR)]
    | 1 => [(16 + bus, t, sat32 (quotient (m * og) 16384))]
    | _ => []
  d ++ (List.range (coverage c.prog).sends).flatMap fun s =>
    let sb := byteAt b (0x1D0 + 4 * s)
    let e := between (k.old.sends.getD s 0) (k.new.sends.getD s 0) j k.m
    let snd (g : Int) : Word := sat32 (quotient (m * g * e) (2147483648 * 576460752303423488))
    if sb = 0xFF then []
    else if byteAt b (0x1D1 + 4 * s) % 2 = 1 then [(16 + sb, t, snd one31)]
    else [(16 + sb, t, snd k.gL), (17 + sb, t, snd k.gR)]

/-- One internal sample: sources, routing, amplifier, fade (R179), writes. -/
def CardIn.sample (c : CardIn) (k : Ctl) (t0 : Nat) (r : Run) (j : Nat) : Run :=
  let b := k.blk
  let t := t0 + j
  let incA := between k.old.incA k.new.incA j k.m
  let incB := between k.old.incB k.new.incB j k.m
  let (a0, sa, pa, wrap) :=
    if c.prog = 2 then
      let (v, st) := organNext b c.sr c.seed incA r.nat.srcA
      (v, st, r.playA, none)
    else c.source k 0x40 k.smpA incA k.new.incA k.shapeA none t r.nat.srcA r.playA
  let (b0, sb, pb, _) :=
    if (coverage c.prog).srcB then c.source k 0xA0 k.smpB incB k.new.incB k.shapeB wrap t r.nat.srcB r.playB
    else (0, r.nat.srcB, r.playB, none)
  let lv (v l : Int) : Int := quotient (v * l) 1152921504606846976
  let flip (o : Nat) (v : Int) : Int := if c.prog ≠ 2 ∧ byteAt b (o + 1) % 2 = 1 then -v else v
  let av := flip 0x40 (lv a0 (between k.old.lvlA k.new.lvlA j k.m))
  let bv := flip 0xA0 (lv b0 (between k.old.lvlB k.new.lvlB j k.m))
  let (y, f1, f2) := c.route k j av bv r.nat.filt1 r.nat.filt2
  let env := between k.env0.1 k.env0.2 j k.m
  let amp := between k.old.amp k.new.amp j k.m
  let velNum : Int := 65536 * 65535 - (numAt b 0x1CA 2 * (65535 - k.vel) : Nat)
  let (fn, fd) := match c.fade with
    | some (pos, len) => (len - (pos + r.done + 1), len)
    | none => (1, 1)
  let mono := quotient (y * env * amp * velNum * (fn : Int)) (2147483648 * 576460752303423488 * 65536 * 65535 * fd)
  { r with
    nat := { r.nat with srcA := { sa with n := sa.n + 1 }, srcB := { sb with n := sb.n + 1 }, filt1 := f1, filt2 := f2 }
    playA := pa, playB := pb, sends := r.sends ++ c.writes k j t mono, done := r.done + 1 }

/-! ### One control sub-block (R174) -/

/-- The pan gains of a position in units of 2^-45 (R177). -/
def panGains (law : Nat) (p : Int) : Int × Int :=
  match law with
  | 0 =>
    let ph := quotient (p + 35184372088832) 65536
    (cosOf ph, sinOf ph)
  | 1 => (quotient (35184372088832 - p) 32768, quotient (35184372088832 + p) 32768)
  | _ => (min one31 (quotient (35184372088832 - p) 16384), min one31 (quotient (35184372088832 + p) 16384))

/-- Whether a source whose pitch at the start of a pick is `p` reads its half-rate copy for the whole pick (R154). -/
def SampleSrc.halves (x : SampleSrc) (e : VCtx) (p : Int) : Bool := x.half.isSome && decide (536870912 < (sampleRatio e.sr p x.e).1)

/-- What a SAMPLE source plays in a sub-block; `half`: it reads the half-rate copy. -/
def sampleIn (e : VCtx) (s : Nat) (p : Int) (released set half : Bool) (x : SampleSrc) : SampleIn × Bool :=
  let (ratio, limited) := sampleRatio e.sr p x.e
  let read := if half then x.half.getD x.full else x.full
  ({ e := x.e, lp := loopOf x.e e.blk s set, mode := loopMode e.blk s x.e
     arm := released && byteAt e.blk (s + 0x1A) % 2 == 1 && x.e.flags % 2 == 1
     interp := byteAt e.blk (s + 0x12), ratio := ratio, copy := if half then x.half.map (·.e) else none
     frame := read.frame, inWindow := read.inWindow }, limited)

/-- The sub-block `k` of a card (R174): changes, envelopes, LFOs and controllers, sums, destinations, samples. -/
def CardIn.block (c : CardIn) (r0 : Run) (k : Nat) : Run :=
  let cov := coverage c.prog
  let t := max c.start (8 * k)
  let m := 8 * (k + 1) - t
  let blk := c.blkAt t
  let part := c.partAt t
  let writes := c.x.undo.filterMap fun u => match u.what with | .param o => if c.lands r0.nat.seen t u.pick u.off then some o else none | _ => none
  let e : VCtx :=
    { blk := blk, key := (c.valueAt t .key c.x.key).toNat, vel := (c.valueAt t .vel c.vel).toNat, sr := c.sr, tempo := c.base.tempo, writes := writes }
  let beat := c.base.beats.getD (t / c.osr) 0
  let first := r0.nat.fresh
  let r1 := if first then { r0 with nat := c.fresh e beat } else r0
  let r2 := (c.commands r1.nat t).foldl (fun acc m => acc.happen c e m) r1
  let nat := r2.nat
  let old (d : Nat) : Int := nat.mods.getD (d - 20) 0
  -- envelopes and LFOs
  let env := nat.env.zipIdx.map fun s => s.1.block e s.2 nat.released (old (20 + s.2)) m
  let lfoNow := nat.lfo.zipIdx.map fun s =>
    let o := lfoBase s.2
    if byteAt blk (o + 1) % 2 = 1 then
      s.1.to c.seed (12 + s.2) (lockedPhase blk o beat (if byteAt blk (o + 1) / 2 % 2 = 1 then nat.beat0 else 0))
    else s.1
  let lfoVals := lfoNow.zipIdx.map fun s =>
    let o := lfoBase s.2
    (lfoValue blk s.2 c.sr nat.age (old (27 + s.2)) s.1 (fun i => c.wave (numAt blk (o + 10) 2) (numAt blk (o + 12) 2) i),
      byteAt blk (o + 1) / 4 % 2 == 0)
  let lfoNext := lfoNow.zipIdx.map fun s =>
    let o := lfoBase s.2
    if byteAt blk (o + 1) % 2 = 1 then s.1
    else s.1.to c.seed (12 + s.2) ((s.1.phase + lfoStep blk o c.sr m (old (24 + s.2))) % 4294967296)
  -- the matrix
  let slots := (List.range cov.slots).map (slotOf blk)
  let mi : ModIn :=
    { env := env.map (·.v), lfo := lfoVals, glfo := (List.range 16).map (c.globalLfo t)
      vel := e.vel, relVel := if nat.released then c.relVel else 0, key := e.key, pressure := (c.valueAt t .pressure c.x.pressure).toNat
      pnBend := (c.valueAt t .pnBend c.x.pnBend).toNat, part := part
      noise := (Config.draw c.seed 3 nat.blocks).toInt, noteRandom := (Config.draw c.seed 4 0).toInt
      unison := c.x.unison, uniCount := c.x.uniCount, beat := beat % 16777216
      pnv := (List.range 4).map fun j => numAt blk (0x3F4 + 2 * j) 2 }
  let smooth := smoothed slots mi (byteAt blk 0x3FC) first nat.smooth
  let sum := modSum slots mi smooth
  -- pitch
  let drift := if numAt blk 0x10 2 = 0 then nat.drift else (Config.draw c.seed 2 nat.blocks).toInt
  let base := c.pitch e part t drift (sum 1)
  let glide := c.glideAt e nat t r2.pitch base
  let p := satInt 32 (base + (match glide with | some g => g.offset | none => 0))
  let pA := srcPitch blk 0x40 p (sum 2)
  let pB := srcPitch blk 0xA0 p (sum 3)
  let halfA := r0.halfA.getD ((c.smpA.map fun x => x.halves e pA).getD false)
  let halfB := r0.halfB.getD ((c.smpB.map fun x => x.halves e pB).getD false)
  let sA := c.smpA.map (sampleIn e 0x40 pA nat.released c.x.lenA halfA)
  let sB := c.smpB.map (sampleIn e 0xA0 pB nat.released c.x.lenB halfB)
  -- destinations
  let new : Ramps :=
    { incA := phaseInc c.sr pA, incB := phaseInc c.sr pB
      lvlA := sintAt blk 0x48 2 * upBy (sum 4), lvlB := sintAt blk 0xA8 2 * upBy (sum 5)
      cut1 := cutoffsOf blk 0x100 e.key (sum 8), cut2 := cutoffsOf blk 0x160 e.key (sum 10)
      amp := numAt blk 0x1C8 2 * upBy (sum 13)
      sends := (List.range cov.sends).map fun s => (numAt blk (0x1D2 + 4 * s) 2 : Int) * upBy (sum (16 + s)) }
  let pan := clampInt (-35184372088832) 35184372088832 ((sintAt blk 0x1CC 2 + c.valueAt t .pan c.pan) * 1073741824 + sum 14)
  let (gL, gR) := panGains (byteAt blk 0x1CE) pan
  let ctl : Ctl :=
    { blk := blk, key := e.key, vel := e.vel, m := m, old := if first then new else nat.ramps, new := new
      env0 := ((nat.env.getD 0 {}).v, (env.getD 0 {}).v), shapeA := sum 6, shapeB := sum 7
      q1 := resoOf blk 0x100 (sum 9), q2 := resoOf blk 0x160 (sum 11), gain := exp2Mod (sum 12)
      fm := clampInt 0 35184372088832 ((numAt blk 0x1C6 2 : Int) * 536870912 + sum 15), gL := gL, gR := gR
      smpA := sA.map (·.1), smpB := sB.map (·.1) }
  let cv := (cvTargets slots).map fun ch => (16 + 256 + ch, t, sat32 (quotient (sum (32 + ch)) 16384))
  let r3 := (List.range m).foldl (c.sample ctl t) { r2 with sends := r2.sends ++ cv }
  { r3 with
    nat := { r3.nat with
      fresh := false, env := env, lfo := lfoNext, smooth := smooth, mods := (List.range 10).map fun i => sum (20 + i), ramps := new
      drift := drift, glide := glide.map fun g => { g with n := g.n + m }, age := nat.age + m, blocks := nat.blocks + 1
      seen := some (c.pick, t) }
    halfA := some halfA
    halfB := some halfB
    ended := r2.ended || (env.getD 0 {}).done
    rclamp := r3.rclamp || (sA.map (·.2)).getD false || (sB.map (·.2)).getD false
    pitch := p }

/-- A whole pick of a native voice. -/
def CardIn.run (c : CardIn) (r : Run) : Run :=
  ((List.range (c.n / 8)).filter fun k => decide (c.start / 8 ≤ k)).foldl c.block r

/-- env_out (R194): envelope 0 at the last internal sample. -/
def Run.envOut (r : Run) : Nat := (clampInt 0 0x7FFF (quotient (r.nat.env.getD 0 {}).v 65536)).toNat

end Sys2Proof.Machine
end

