-- ==== Sys2Proof/Machine/Native.lean ====
section
/-! DEFINITION. What the ROM programs leave at the OK completion of their cards (notes/assumptions/64.md): a native voice's pick
(R143, R174–R204, R213, R218), and a bus program's returns and state (R259, R262, R263). -/

namespace Sys2Proof.Machine

/-- Whether a card renders or fades a voice of STD, LITE or ORGAN that still holds its context. -/
def isNative (c : Card) : Bool := c.type == 0 && decide (c.prog ≤ 2)

/-- A number of `n` bytes of the half that a card of voice `v` writes. -/
def setWork (v off n x : Nat) (b : Block) : Block :=
  { b with mem := Memory.setNum b.mem (halfBase v (1 - (b.voice v).half) + off) n x }

/-- The voice seed (R166): the low 32 bits of the start frame XOR V; 0 becomes 1. -/
def voiceSeed (v start : Nat) : Nat := max 1 ((start % 2 ^ 32) ^^^ v)

/-! ### What the card of a voice reads -/

/-- The frames that a WAVES table holds (R163). -/
def tableFrames (b : Block) (w : Nat) : Nat := numAt (b.sect 0xC) (6 + 16 * w) 2

/-- Where table `w` lies in the SRAM of loom `l` (R257). -/
def tableBase (b : Block) (l w : Nat) : Nat :=
  waveBase b l + sumNat (((List.range w).filter fun k => waveMask b k / 2 ^ l % 2 == 1).map fun k => ceilMul (8188 * tableFrames b k) 64)

/-- A sample of a frame of a wavetable: Q1.15, levels 0 to 10 in order, in units of 2^-31. -/
def tableSample (b : Block) (l w frame i : Nat) : Int :=
  (BitVec.ofNat 16 (Memory.num b.mem (loomBase l + tableBase b l w + 8188 * frame + 2 * i) 2)).toInt * 65536

/-- Internal sample `t` of an input channel's block of pick `n` (R167, R271). -/
def inputSample (b : Block) (l n ch t : Nat) : Int :=
  if b.on DCH_CFG_inputs then
    (BitVec.ofNat 32 (Memory.num b.mem (loomBase l + 2048 * b.nInt + 512 * b.nInt * (n % 2) + 4 * b.nInt * ch + 4 * t) 4)).toInt
  else 0

/-- The sample that source `i` (0 A, 1 B) of voice `v` plays on shuttle `s`, through the card's window. -/
def sampleSrc (b : Block) (s v i : Nat) : Option SampleSrc :=
  let sh := b.shuttle s
  let o := if i = 0 then 0x40 else 0xA0
  let frames (e : Sample) (w : Nat) : Frames :=
    let spans := FMap.get (fun _ => []) sh.winSpan w
    { e := e
      frame := fun k => match nearestIn spans k with
        | some n => (decodeFrame b.mem (FMap.get (fun _ => 0) sh.winAt w) (FMap.get (fun _ => 0) sh.winFmt w) n).toInt
        | none => 0
      inWindow := fun k => spans.isEmpty || inSpans spans k }
  (b.entryOf v o).map fun e => { full := frames e (2 + i), half := (b.halfCopy v o e).map fun h => frames h (4 + i) }

/-- The base and the changes that the harness has mirrored for a pick (R58): the one in progress, or the one before for a late card. -/
def mirrored (b : Block) (pick : Nat) : MirrorBase × List Mirror :=
  if pick = b.alc.base.pick then (b.alc.base, b.alc.mirror)
  else if pick = b.alc.last.pick then (b.alc.last, b.alc.lastMirror)
  else ({ b.alc.base with parts := b.alc.parts }, [])

/-- The velocity with which a voice was released (R200): its note's, or the one that an event-apply card wrote. -/
def releaseVelocity (b : Block) (v : Nat) : Nat :=
  match b.note (b.voice v).note with
  | some nt => if nt.released ∧ !nt.sustained then nt.relVel else b.stateNum v 8 2
  | none => b.stateNum v 8 2

/-- What the card `c` on shuttle `s` reads. -/
def cardIn (b : Block) (s : Nat) (c : Card) : CardIn :=
  let v := c.flow
  let l := v / 2048
  let p := c.payload.toNat
  let (base, mir) := mirrored b c.pick
  let half (off : Nat) : Int := (BitVec.ofNat 16 (b.stateNum v off 2)).toInt
  { prog := c.prog, x := b.voice v, v := v, pick := c.pick, start := bitsOf p 7 0, n := b.nInt, osr := b.osr, sr := b.osr * b.fs
    blk := b.paramBlock v, vel := b.stateNum v 6 2, relVel := releaseVelocity b v
    detune := half 0xA, pan := half 0xC, seed := voiceSeed v (b.stateNum v 0x10 8), base := base, mirror := mir, mix := b.sect 0xD
    fade := if p.testBit 10 then some (bitsOf p 21 12, bitsOf p 31 22) else none
    smpA := sampleSrc b s v 0, smpB := sampleSrc b s v 1
    frames := tableFrames b, wave := tableSample b l, input := inputSample b l c.pick }

/-- Where a source of the voice stands when the card starts: `f` is its first bit in pflags. -/
def playOf (b : Block) (v s pos f : Nat) : Play :=
  match b.entryOf v s with
  | some e =>
    { pos := b.positionOf v s pos e
      rev := !(b.voice v).nat.fresh && (b.stateNum v 0x30 2).testBit f, jumped := !(b.voice v).nat.fresh && (b.stateNum v 0x30 2).testBit (f + 2) }
  | none => { pos := 0, rev := false, jumped := false }

/-- The pick that the card renders. -/
def nativeRun (s : Nat) (c : Card) (b : Block) : Run :=
  let v := c.flow
  (cardIn b s c).run
    { nat := (b.voice v).nat, playA := playOf b v 0x40 0x20 0, playB := playOf b v 0xA0 0x28 1
      rclamp := (b.stateNum v 0 2).testBit 0, pitch := (BitVec.ofNat 32 (b.stateNum v 0x1C 4)).toInt }

/-! ### What it leaves -/

/-- A flag as a bit. -/
def bitOf (x : Bool) (i : Nat) : Nat := if x then 2 ^ i else 0

/-- The state header's seed after the pick (R213): the state of the first NOISE source that is seeded from the voice. -/
def seedAfter (b : Block) (v : Nat) (r : Run) : Nat :=
  let noisy (s : Nat) : Bool := byteAt (b.paramBlock v) s == 5 && byteAt (b.paramBlock v) (s + 0x11) == 0
  if (b.voice v).prog = 2 then b.stateNum v 0x18 4
  else if noisy 0x40 then r.nat.srcA.noise
  else if noisy 0xA0 ∧ (b.voice v).prog = 0 then r.nat.srcB.noise
  else b.stateNum v 0x18 4

/-- The state header of the half that the card writes (R213, R216): flags, env_out, release velocity, seed, pitch, positions. -/
def writeHeader (v : Nat) (missed : Bool) (r : Run) (b : Block) : Block :=
  let x := b.voice v
  let flags := bitOf r.rclamp 0 + bitOf missed 1 + bitOf r.nat.released 2 + bitOf x.detached 3
  let pf := bitOf r.playA.rev 0 + bitOf r.playB.rev 1 + bitOf r.playA.jumped 2 + bitOf r.playB.jumped 3
  let seed := seedAfter b v r
  let rel := if r.nat.released then releaseVelocity b v else b.stateNum v 8 2
  setWork v 0x30 2 pf (setWork v 0x28 8 r.playB.pos (setWork v 0x20 8 r.playA.pos (setWork v 0x1C 4 (BitVec.ofInt 32 r.pitch).toNat
    (setWork v 0x18 4 seed (setWork v 8 2 rel (setWork v 2 2 r.envOut (setWork v 0 2 flags b)))))))

/-- The program's own bytes of the half it writes (R213). -/
def writeOwn (v pick : Nat) (b : Block) : Block :=
  { b with mem := Memory.setBytes b.mem (halfBase v (1 - (b.voice v).half) + 0x40) ((List.range 448).map fun i => Config.progByte v pick i) }

/-- The pick becomes the voice's working state; what event-apply cards asked of its sub-blocks is done, and what was asked after the start
of its last one is left to the next pick (R175). -/
def nativeState (s : Nat) (c : Card) (r : Run) (b : Block) : Block :=
  let v := c.flow
  let missed := (b.shuttle s).flg.getLsbD 6 || r.playA.missed || r.playB.missed
  let b1 := writeOwn v c.pick (writeHeader v missed r b)
  let x := b1.voice v
  let last := max (bitsOf c.payload.toNat 7 0) (b.nInt - 8)
  b1.setVoice v { x with
    nat := r.nat
    cmds := x.cmds.filter fun m => !m.ready || decide (c.pick < m.pick) || (m.pick == c.pick && decide (last < m.off)) }

/-- The program's sends join the bank of its shuttle (R218), each bus or CV channel in a lane of its own. -/
def Bank.plus (k : Bank) (l : List (Nat × Nat × Word)) : Bank :=
  { k with
    binds := l.foldl (fun m x => FMap.set (fun _ => 0) m x.1 (x.1 - 15)) k.binds
    sends := k.sends ++ l }

/-! ### Bus programs (R262, R263) -/

/-- A signed 16-bit field of a parameter area, clamped (R263). -/
def parInt (par : List Byte) (o : Nat) (lo hi : Int) : Int := max lo (min hi (BitVec.ofNat 16 (numAt par o 2)).toInt)

/-- Whether an EQ8 passes its input: each band is off (a reserved type is), or a peak or shelf of 0 dB. -/
def eqFlat (par : List Byte) : Bool :=
  (List.range 8).all fun j =>
    let type := byteAt par (8 * j)
    type == 0 || decide (5 < type) || (decide (type ≤ 3) && numAt par (8 * j + 4) 2 == 0)

/-- Whether a DYNAMICS leaves every level as it is: ratio 1 (the nearer limit below it too), makeup 0 dB. -/
def dynFlat (par : List Byte) : Bool := decide (numAt par 2 2 ≤ 0x100) && decide (parInt par 0xA 0 0x1800 = 0)

/-- The input of channel `k` of an entry for sample `i`: the bus, or one bus of the pair; a mono input feeds both returns (R262). -/
def busInput (b : Block) (l x : Nat) (e : Entry) (k i : Nat) : Word :=
  BitVec.ofNat 32 (Memory.num b.mem (loomBase l + x * 1024 * b.nInt + 4 * b.nInt * (e.bus + if e.stereo then k else 0) + 4 * i) 4)

/-- The delay time of channel `k` of a DELAY in internal samples: 1 to the longest delay (R262, R263). -/
def delayTime (b : Block) (tempo : Nat) (e : Entry) (par : List Byte) (k : Nat) : Nat :=
  let raw := numAt par (4 * k) 4
  let t := if byteAt par 0xE = 1 then
      (quotient (raw * 60 * (b.fs * 2 ^ b.tbu.osr) * 65536 : Nat) (2 ^ 24 * max 1 tempo)).toNat
    else raw
  max 1 (min (e.mem / 8 - b.nInt) t)

/-- A DELAY's read point at sample `i` of `n`: at a new time it moves over the pick in a linear crossfade. -/
def delayRead (line : List Word) (n old new i : Nat) : Word :=
  let y (t : Nat) : Word := line.getD (t - 1) 0
  if old = 0 ∨ old = new then y new
  else BitVec.ofInt 32 (quotient (((n : Int) - (i + 1 : Nat)) * (y old).toInt + ((i + 1 : Nat) : Int) * (y new).toInt) n)

/-- What enters a DELAY's line: the input and the fed-back read point. Where damp or cross acts, the word is free. -/
def delayWrite (par : List Byte) (x y free : Word) : Word :=
  if numAt par 0xA 2 = 0 ∧ numAt par 0xC 2 = 0 then sat32 (x.toInt + quotient (parInt par 8 (-0x7EB8) 0x7EB8 * y.toInt) 32768) else free

/-- Channel `k` of a ROM bus program over a pick: its return, and its line after it (R262, R263). Where the spec gives a program's signal
path no formula, its words are free. -/
def busChannel (b : Block) (l pick x tempo : Nat) (e : Entry) (k : Nat) : List Word × List Word :=
  let par := Memory.bytes b.mem (loomBase l + parBase b l e.ix) 1024
  let key := 512 * l + 2 * e.ix + k
  let free (j i : Nat) : Word := Config.busWord (e.bus * 4 + l) pick (j * 2048 + k * 1024 + i)
  let old := FMap.get (fun _ => 0) b.mix.times key
  let new := delayTime b tempo e par k
  (List.range b.nInt).foldl (fun (acc : List Word × List Word) i =>
    let (out, line) := acc
    let v := busInput b l x e k i
    match e.prog with
    | 0x10 => (out ++ [if eqFlat par then v else free 0 i], line)
    | 0x11 =>
      let y := delayRead line b.nInt old new i
      (out ++ [y], (delayWrite par v y (free 1 i) :: line).take (e.mem / 8))
    | 0x14 =>
      let line1 := (v :: line).take 257
      (out ++ [if dynFlat par then line1.getD (min 256 (numAt par 0xC 2)) 0 else free 0 i], line1)
    | _ => (out ++ [free 0 i], line)) ([], FMap.get (fun _ => []) b.mix.lines key)

/-- A ROM bus program's card leaves its returns (every word of both, R259), its lines and its state area. -/
def busProgram (s : Nat) (c : Card) (b : Block) : Block :=
  let l := c.deck - 32
  let x := c.payload.toNat % 2
  let tempo := (b.shuttle s).tempo
  match entryFor b l (c.flow - 8192) with
  | some e =>
    let run := (List.range 2).map fun k => (k, busChannel b l c.pick x tempo e k)
    let words := run.flatMap fun r => r.2.1.flatMap fun w => leBytes 4 w.toNat
    let state := (List.range e.mem).map fun i => Config.busByte (e.bus * 4 + l) c.pick i
    let par := Memory.bytes b.mem (loomBase l + parBase b l e.ix) 1024
    let keep (b : Block) (r : Nat × List Word × List Word) : Block :=
      let key := 512 * l + 2 * e.ix + r.1
      { b with mix := { b.mix with
        lines := FMap.set (fun _ => []) b.mix.lines key r.2.2
        times := FMap.set (fun _ => 0) b.mix.times key (if e.prog = 0x11 then delayTime b tempo e par r.1 else 0) } }
    let m := Memory.setBytes b.mem (loomBase l + retBase b l e.ix + 2 * x * 4 * b.nInt) words
    run.foldl keep { b with mem := Memory.setBytes m (loomBase l + stateBase b l e.ix) state }
  | none => b

end Sys2Proof.Machine
end

