-- ==== Sys2Proof/Machine/Complete.lean ====
section
/-! DEFINITION. The completion of a card (R96, R97, R218, R226, R227, R230): what OK commits and drains, what any other status drops,
the effects of the event-apply program (R145, R156), and the fault and tap handlers (R227, R228). -/

namespace Sys2Proof.Machine

/-! ### Drains (R218, R255) -/

/-- Six bits of MIX_SAT for loom `l`. -/
def MIX_SAT_accL (l : Nat) : Fld := ⟨MIX_SAT, 6 * l + 5, 6 * l⟩

/-- Where word `i` of a bus lies in a loom's accumulator buffer (R256). -/
def accumAddr (l n x bus i : Nat) : Nat := loomBase l + x * 1024 * n + 4 * n * bus + 4 * i

/-- A pick in which an add of loom `l` saturates counts once (R255). -/
def noteAccSat (l : Nat) (b : Block) : Block :=
  if b.dlr.satLooms.contains l then b
  else (({ b with dlr := { b.dlr with satLooms := b.dlr.satLooms ++ [l] } }).bump (MIX_SAT_accL l)).flag MIX_IRQ_STAT_sat

/-- Add one Q1.31 value into a Q5.27 accumulator word (R255). -/
def accumAdd (l bus i x : Nat) (v : Word) (b : Block) : Block :=
  let a := accumAddr l b.nInt x bus i
  let sum := (BitVec.ofNat 32 (Memory.num b.mem a 4)).toInt + asr v.toInt 4
  let b1 := { b with mem := Memory.setNum b.mem a 4 (sat32 sum).toNat }
  if satHits 32 sum then noteAccSat l b1 else b1

/-- A send added to what its word of the buffer holds (R218), exactly while the sum is a Q1.31 number. -/
def sendAdd (x : Option Word) (y : Word) : Word :=
  match x with
  | none => y
  | some v => if satHits 32 (v.toInt + y.toInt) then Config.sendOver v y else v + y

/-- The words of a send buffer that SND has written (R218), keyed by 256 × lane + sample. -/
def Bank.words (k : Bank) : FMap (Option Word) :=
  k.sends.foldl (fun m x =>
    let key := 256 * x.1 + x.2.1
    FMap.set (fun _ => none) m key (some (sendAdd (FMap.get (fun _ => none) m key) x.2.2))) []

/-- Apply the sends of a card (R218, R202): buses add into buffer n mod 2, CV targets offer a value for the sample's sub-block. `start`: the
voice's start frame. -/
def drainSends (s pick voice start : Nat) (k : Bank) (b : Block) : Block :=
  k.words.foldl (fun acc x =>
    let target := FMap.get (fun _ => 0) k.binds (x.1 / 256) - 1
    let i := x.1 % 256
    let value := x.2.getD 0
    if target < 256 then accumAdd (s / 40) target i (pick % 2) value acc
    else { acc with dlr := { acc.dlr with offers := acc.dlr.offers ++
      [{ chan := target - 256, pick := pick, sub := i / 8, voice := voice, startFrame := start, value := value }] } }) b

/-- The sends of a DV32 output card of pick `pick` (R370): each output, as v << 14 in Q1.31, to all internal samples of its frame, on the
main and the send pair of the instance. -/
def dvSend (i pick : Nat) (b : Block) : Block :=
  let c := dvCtx b i 32
  let outs := dvOutputs b.pick c.list c.regs (dvMixRead b i)
  let main := b.get (LEG_INST_CFG_main_bus i)
  let send := b.get (LEG_INST_CFG_send_bus i)
  (outs.zipIdx).foldl (fun acc x =>
    ([(main, x.1.ml), (main + 1, x.1.mr), (send, x.1.sl), (send + 1, x.1.sr)] : List (Nat × Int)).foldl (fun acc y =>
      (List.range b.osr).foldl (fun acc k =>
        accumAdd 0 (y.1 % 256) (b.osr * x.2 + k) (pick % 2) (BitVec.ofInt 32 (y.2 * 16384)) acc) acc) acc) b

/-! ### The event-apply program (R82, R145, R156, R213) -/

/-- A PARAM's halfword at offset `at'` of the parameter block (R145, R173), at offset `o` of pick `p`: live ones are clamped and written,
staged ones staged, fixed ones ignored. -/
def applyParam (v p o at' x : Nat) (b : Block) : Block :=
  let y := b.voice v
  let blk := b.paramBlock v
  match applyCode y.prog blk at' with
  | .live f => writeParam v p o at' (f.clamp at' x) b
  | .staged =>
    if at' < 0xA0 then b.setVoice v { y with stageA := y.stageA.write (at' - 0x40) x (numAt blk 0x5C 2) (numAt blk 0x60 2) }
    else b.setVoice v { y with stageB := y.stageB.write (at' - 0xA0) x (numAt blk 0xBC 2) (numAt blk 0xC0 2) }
  | .fixed => b

/-- Key, note ID and velocity in the working half. -/
def writeNote (v : Nat) (a : Apply) (b : Block) : Block :=
  setWork v 6 2 (a.data.toNat % 65536) (setWork v 5 1 (a.data.toNat / 65536 % 256) (setWork v 4 1 (b.voice v).key b))

/-- The unison offsets that a starting voice's card delivers, in the working half (R115). -/
def writeUni (v : Nat) (a : Apply) (b : Block) : Block :=
  match a.uni with
  | some (d, q) => setWork v 0xC 2 (BitVec.ofInt 16 q).toNat (setWork v 0xA 2 (BitVec.ofInt 16 d).toNat b)
  | none => b

/-- The commands of a voice when the event-apply card `a` has completed OK: what it brings is ready. -/
def Voice.readied (x : Voice) (a : Apply) : Voice :=
  { x with cmds := x.cmds.map fun m => if m.no = a.cmd then { m with ready := true } else m }

/-- What an event-apply card of pick `p` of the ROM program leaves (R145, R213): an initialised context, a restarted or moved note, a
release, a parameter, or a per-note value. -/
def applyEvent (p : Nat) (a : Apply) (b : Block) : Block :=
  let v := a.voice
  let x := b.voice v
  match if a.ignore then 0 else a.op with
  | 1 =>
    if a.init then
      let clean := { b with mem := Memory.setBytes b.mem (halfBase v (1 - x.half)) (List.replicate 512 0) }
      let b1 := setWork v 0x18 4 (voiceSeed v x.startFrame) (setWork v 0x10 8 x.startFrame (writeUni v a (writeNote v a clean)))
      b1.setVoice v { (b1.voice v).readied a with nat := {} }
    else
      let old (o : Nat) : Int := (BitVec.ofNat 16 (b.stateNum v o 2)).toInt
      let b0 := noteUndo v p a.offset .vel (b.stateNum v 6 2 : Nat) (writeUni v a (writeNote v a b))
      let b1 := noteUndo v p a.offset .pan (old 0xC) (noteUndo v p a.offset .detune (old 0xA) b0)
      b1.setVoice v ((b1.voice v).readied a)
  | 2 =>
    let flags := Memory.num b.mem (halfBase v (1 - x.half)) 2
    setWork v 0 2 (flags ||| 4) (setWork v 8 2 (a.data.toNat % 65536) (b.setVoice v (x.readied a)))
  | 9 => applyParam v p a.offset (a.data.toNat % 1024) (a.data.toNat / 65536) b
  | 3 => perNoteValue 3 v p a.offset 0 (a.data.toNat % 65536) b
  | 5 => perNoteValue 5 v p a.offset (a.data.toNat / 2 ^ 24) (a.data.toNat % 65536) b
  | 7 => perNoteValue 7 v p a.offset 0 (a.data.toNat % 65536) b
  | _ => b

/-! ### Cards and their voices -/

/-- Whether the voice that a card was made for still holds its context: a voice admitted later is another. -/
def ownsVoice (b : Block) (c : Card) : Bool :=
  decide (c.flow < 8192) && c.type != 5 && (b.voice c.flow).st != .free && decide ((b.voice c.flow).admitPick ≤ c.pick)

/-- Whether a card renders a voice: render, trump or legacy render. -/
def Card.render (c : Card) : Bool := c.type == 0 || c.type == 5

/-- Write the parameter queue to the block of a voice, in issue order (R212). -/
def writeQueue (flow : Nat) (q : List Store) (b : Block) : Block :=
  { b with mem := q.foldl (fun m x => Memory.setBytes m (ctxBase flow + x.addr) x.bytes) b.mem }

/-- What OK does to the voice of a card (R97, R105, R230): the working half becomes committed, a fade advances, and the voice is freed
when the card's end bit is set or DONE carried E. -/
def commitVoice (c : Card) (e : Bool) (b : Block) : Block :=
  let v := c.flow
  if c.type = 5 then
    (dvCommit (v / 256) (v % 256 / 4) b).setVoice v { b.voice v with half := 1 - (b.voice v).half }
  else if !ownsVoice b c then b
  else
    let b1 := match c.apply with | some a => if c.prog = 8 then applyEvent c.pick a b else b | none => b
    let x := b1.voice v
    let fade := c.type == 0 && c.payload.getLsbD 10
    let ends := e || (c.type == 0 && c.payload.getLsbD 11)
    if ends then endVoice v b1
    else b1.setVoice v { x with half := 1 - x.half, fadePos := if fade then x.fadePos + b.nInt else x.fadePos }

/-- A voice is freed by R97, R84 or R427 and counted (R135): its note ends at the next pick boundary, where its other voices go into
release. -/
def faultFree (v : Nat) (b : Block) : Block :=
  let b1 := ((freeVoice v b).bump VAL_CNT4_faulted).flag VAL_IRQ_STAT_faulted
  { b1 with alc := { b1.alc with endNext := addNew (b.voice v).note b1.alc.endNext } }

/-- A voice's card ended FENCED or FAULT (R97): the second pick in a row frees it without a fade. -/
def failVoice (c : Card) (b : Block) : Block :=
  if !ownsVoice b c then b
  else
    let x := b.voice c.flow
    if x.fails ≠ 0 ∧ x.failPick + 1 = c.pick then faultFree c.flow b
    else b.setVoice c.flow { x with fails := 1, failPick := c.pick }

/-! ### The self-test (R433, R434) -/

/-- A test card completed: its signature matched, or the step fails and the shuttle is retired. -/
def bistResult (h s : Nat) (pass : Bool) (b : Block) : Block :=
  if !pass then
    let b1 := { b with rel := { b.rel with fails := b.rel.fails + 1 } }
    ((retireNext s b1).bump REL_ROT_fail).flag REL_IRQ_STAT_bist_fail
  else
    let n := FMap.get (fun _ => 0) b.dlr.bistStep h + 1
    if n < 128 then { b with dlr := { b.dlr with bistStep := FMap.set (fun _ => 0) b.dlr.bistStep h n } }
    else
      ({ b with
        dlr := { b.dlr with bistStep := FMap.set (fun _ => 0) b.dlr.bistStep h 0, testDone := addNew h b.dlr.testDone }
        rel := { b.rel with passes := b.rel.passes + 1, tested := FMap.set (fun _ => 0) b.rel.tested s b.now } }).bump REL_ROT_pass

/-! ### Leaving a card -/

/-- The counts of a completion on a shuttle (R107, R216): served, and wclamp of a card whose flag was set. -/
def noteServed (s : Nat) (c : Card) (b : Block) : Block :=
  let st := b.dlr.stats
  let b1 := { b with dlr := { b.dlr with stats := { st with served := FMap.set (fun _ => 0) st.served s (FMap.get (fun _ => 0) st.served s + 1) } } }
  if (b.shuttle s).flg.getLsbD 6 then
    let b2 := b1.bump (SHT_STR_wclamp (s / 5))
    if c.type = 5 then dvClamp (c.flow / 256) (c.flow % 256 / 4) b2 else b2
  else b1

/-- The shuttle stops being busy with a card and waits in DRAW from `t`. -/
def enterDraw (s t : Nat) (b : Block) : Block :=
  let sh := b.shuttle s
  (b.setShuttle s { sh with card := none, drawT := t, done := none, fault := none, fencePending := false, m0 := .nop, m1 := .nop, x := .nop }).put
    (SHT_SSTAT_state s) 0

/-- The pick that a ROM voice program has rendered by the card's end, where the card is one of its own. -/
def romRun (s : Nat) (c : Card) (b : Block) : Option Run := if isNative c && ownsVoice b c then some (nativeRun s c b) else none

/-- What a ROM program's card leaves in memory and in its voice. -/
def romEffect (s : Nat) (c : Card) (r : Option Run) (b : Block) : Block :=
  match r with
  | some r => nativeState s c r b
  | none => if c.type = 2 ∧ 0x10 ≤ c.prog ∧ c.prog ≤ 0x14 then busProgram s c b else b

/-- The shuttle and its send bank at the completion: a ROM program's sends are in the bank, and a missed window shows in FLG (R216). -/
def romShuttle (c : Card) (r : Option Run) (b : Block) (sh : Shuttle) : Shuttle :=
  match r with
  | none => if dvMissed c b then { sh with flg := sh.flg ||| 64 } else sh
  | some r => { sh with
      flg := if r.playA.missed || r.playB.missed then sh.flg ||| 64 else sh.flg
      banks := FMap.set (fun _ => {}) sh.banks sh.active ((FMap.get (fun _ => {}) sh.banks sh.active).plus r.sends) }

/-- The loads among the outstanding transfers complete and are discarded, and the stores complete (R226). -/
def dropTransfers (s : Nat) (b : Block) : Block :=
  let sh := b.shuttle s
  sh.xfers.foldl (fun b x => if x.store then x.move s b else eccCheck (x.from s) x.ecc false b) (b.setShuttle s { sh with xfers := [] })

/-- Results still in flight are dropped (R226): those due by the next bundle have landed; a fold whose length has landed still comes (R223),
and an accumulator forwards what extraction reads. -/
def Shuttle.dropFlights (sh : Shuttle) : Shuttle :=
  let x := sh.startBundle sh.bundle
  { x with flights := [], accFwd := x.acc }

/-- Whether a cancel of the card came before its completion point at `t` (R104). -/
def Card.cancelled (c : Card) (t : Nat) : Bool := (c.cancel.map fun x => decide (x < t)).getD false

/-- The report of a cancel at the card's completion point (R104, R106): CANCELLED where it came before, ABORT_LATE in the same cycle. -/
def noteCancel (c : Card) (t : Nat) (b : Block) : Block :=
  match c.cancel with
  | none => b
  | some _ => cancelResult (if c.cancelled t then 1 else 2) b

/-- A card ends FENCED, FAULT or CANCELLED at `t` (R96, R226, R227): its queue, its send bank and the results still on their way are
dropped. A cancel that came before makes it CANCELLED (R104). -/
def failCard (s : Nat) (c : Card) (status : Status) (t : Nat) (b : Block) : Block :=
  let b1 := dropTransfers s b
  let sh := b1.shuttle s
  let bank := FMap.get (fun _ => {}) sh.banks sh.active
  let b2 := noteServed s c (b1.setShuttle s { sh.dropFlights with
    queue := [], m0 := .nop, m1 := .nop, x := .nop
    banks := FMap.set (fun _ => {}) sh.banks sh.active { bank with binds := [], sends := [] } })
  if c.cancelled t then noteCancel c t (finishCard c .cancelled t b2)
  else noteCancel c t (finishCard c status t (failVoice c (if c.render then impair b2 else b2)))

/-- Count a FENCED or FAULT completion (R96, R107). -/
def noteFence (s : Nat) (b : Block) : Block :=
  let h := s / 5
  let st := b.dlr.stats
  (({ b with dlr := { b.dlr with stats := { st with fences := FMap.set (fun _ => 0) st.fences h (FMap.get (fun _ => 0) st.fences h + 1) } } }).bump
    DLR_CNT_fence).bump (SHT_SCNT_fences s) |>.flag DLR_IRQ_STAT_fence
def noteFault (s : Nat) (b : Block) : Block :=
  let h := s / 5
  let st := b.dlr.stats
  (((({ b with dlr := { b.dlr with stats := { st with faults := FMap.set (fun _ => 0) st.faults h (FMap.get (fun _ => 0) st.faults h + 1) } } }).bump
    DLR_CNT_fault).bump (SHT_SCNT_faults s)).flag DLR_IRQ_STAT_fault).flag SHT_IRQ_STAT_fault

/-! ### Permitted points (R225–R228) -/

/-- Whether the boundary before the next bundle is a permitted point. -/
def permitted (b : Block) (s : Nat) : Bool := (b.shuttle s).slotsLeft == 0 && (b.shuttle s).rep.isNone

/-- A tap that was asked for is dropped, and SHT_TAP.req clears (R228). -/
def dropTap (s : Nat) (b : Block) : Block :=
  let sh := b.shuttle s
  if sh.tapReq then (b.setShuttle s { sh with tapReq := false }).put SHT_TAP_req 0 else b

/-- The fence counter has reached 0 (R95, R226): the fence waits for a permitted point. -/
def fenceExpire (s : Nat) (b : Block) : Block :=
  let sh := b.shuttle s
  if shtState b s = 1 ∧ sh.fence = 0 ∧ sh.done.isNone then b.setShuttle s { sh with fencePending := true } else b

/-- The FENCED completion point (R226); a pending fault comes first (R227). -/
def fencedCompletion (s t : Nat) (b : Block) : Block :=
  let sh := b.shuttle s
  match cardOf b s with
  | some c =>
    if shtState b s = 1 ∧ sh.fencePending ∧ sh.fault = none ∧ sh.done.isNone ∧ permitted b s then
      let b1 := failCard s c .fenced t b
      enterDraw s t (dropTap s (if c.cancelled t then b1 else noteFence s b1))
    else b
  | none => b

/-- A cancel in service at a permitted point (R96, R106). -/
def cancelAtPoint (s t : Nat) (b : Block) : Block :=
  match cardOf b s with
  | some c =>
    if c.cancelled t ∧ shtState b s = 1 ∧ (b.shuttle s).done.isNone ∧ permitted b s then
      enterDraw s t (failCard s c .cancelled t b)
    else b
  | none => b

/-- SHT_CFG.fault_budget in force: 256–16,384, else 1,024. -/
def faultBudget (b : Block) : Nat :=
  let v := b.get SHT_CFG_fault_budget
  if 256 ≤ v ∧ v ≤ 16384 then v else 1024

/-- Save EPC and EFLG as they stand at the boundary (R249), record the cause, and branch to a vector. -/
def enterHandler (s state cause : Nat) (addr : Word) (vec : Nat) (b : Block) : Block :=
  let sh := (b.shuttle s).startBundle (b.shuttle s).bundle
  (b.setShuttle s { sh with
    epc := BitVec.ofNat 32 sh.pc, eflg := sh.flg, ecause := cause, eaddr := addr, pc := vec, fault := none, done := none, m0 := .nop, m1 := .nop, x := .nop }).put
    (SHT_SSTAT_state s) state

/-- A register-file parity fault is taken (R425): the second within 4,194,304 picks of the first retires the shuttle. -/
def parityTaken (s : Nat) (b : Block) : Block :=
  let first := FMap.get (fun _ => 0) b.rel.parityPick s
  let b1 := (b.bump (SHT_SCNT_parity s)).flag SHT_IRQ_STAT_parity
  if first ≠ 0 ∧ b.pickNo ≤ first - 1 + 4194304 then retireNext s b1
  else { b1 with rel := { b1.rel with parityPick := FMap.set (fun _ => 0) b1.rel.parityPick s (b.pickNo + 1) } }

/-- The fault handler is entered (R227): the fence counter holds the handler's budget. -/
def faultHandler (s cause : Nat) (addr : Word) (b : Block) : Block :=
  let vec := max 64 (b.get SHT_VEC_fault_vec)
  let b1 := enterHandler s 2 cause addr vec b
  let sh := b1.shuttle s
  let b2 := b1.setShuttle s { sh with fence := faultBudget b, fencePending := false }
  let b3 := (b2.put (SHT_SSTAT_cause s) cause).put (SHT_SFCAP_eaddr s) addr.toNat
  if cause = 4 then parityTaken s b3 else b3

/-- An uncorrectable error in a bundle's line (R428): the fault is pending with the bundle index, and the harness's instruction memory is
rewritten from the others, which hold the same. -/
def fetchError (s : Nat) (b : Block) : Block :=
  let pc := (b.shuttle s).pc
  ((noteHarness (s / 5) 1 0 (16 * pc) (pendFault s 1 (BitVec.ofNat 32 pc) b)).bump REL_CNT_ireload).flag REL_IRQ_STAT_ireload

/-- FAULT_TAKEN (R227): at a permitted point a pending fault completes the card FAULT and enters the handler. In a handler no card is
left to complete. -/
def faultTaken (s t : Nat) (fetch : Bool) (b : Block) : Block :=
  let b0 := if fetch && issuing b s then fetchError s b else b
  match (b0.shuttle s).fault with
  | none => b0
  | some (cause, addr) =>
    if !running b0 s ∨ !permitted b0 s then b0
    else
      let b1 := match cardOf b0 s with
        | some c =>
          let y := failCard s c .fault t b0
          let x := if c.cancelled t then y else noteFault s y
          x.setShuttle s { x.shuttle s with card := none }
        | none => b0
      faultHandler s cause addr (dropTap s b1)

/-- A legacy card finds the bank of its mix block in other hands (R217, R370); voice 0 writes it first, the others read it. -/
def dvBankFault (s : Nat) (c : Card) (b : Block) : Block :=
  let o := 0x1FF000 + 1024 * (c.flow / 256)
  if c.type = 5 ∧ !loomOwned b 0 o then loomRefused s 0 (BitVec.ofNat 32 o) (c.flow % 256 == 0) b else b

/-- DONE is accepted at `t`: the OK completion point (R230), or that of a card cancelled before (R104). A fault that
the card's last bundle or a transfer has left comes first (R227). `pass`: the signature of a test
card matched. -/
def doneAccept (s t : Nat) (pass : Bool) (b : Block) : Block :=
  match (b.shuttle s).done, cardOf b s with
  | some e, some c =>
   if c.cancelled t then enterDraw s t (failCard s c .cancelled t b)
   else
    let b1 := dvBankFault s c (completeTo s 0 8 b)
    if (b1.shuttle s).fault.isSome then faultTaken s t false b1
    else
    let b2 := if c.type = 5 ∨ ownsVoice b1 c then writeQueue c.flow (b1.shuttle s).drain.queue b1 else b1
    let run := romRun s c b2
    let sh := romShuttle c run b2 (b1.shuttle s).drain
    let bank := FMap.get (fun _ => {}) sh.banks sh.active
    -- a voice whose envelope 0 completes its last segment ends naturally (R194)
    let b3 := commitVoice c (e || (run.map (·.ended)).getD false) (romEffect s c run b2)
    -- a card of an earlier pick is late: its sends are discarded (R19)
    let b4 := if c.render ∧ c.pick = b.pickNo ∧ b.mix.mixed ≤ c.pick then
        drainSends s c.pick c.flow (b.voice c.flow).startFrame bank (if c.type = 5 ∧ c.payload.getLsbD 39 then dvSend (c.flow / 256) c.pick b3 else b3)
      else b3
    let sends := c.render && !bank.sends.isEmpty
    let sh1 := { sh with
      queue := [], active := if sends then 1 - sh.active else sh.active
      banks := FMap.set (fun _ => {}) sh.banks sh.active { binds := [], sends := [], draining := sends || bank.draining } }
    let b5 := noteServed s c (b4.setShuttle s sh1)
    let b6 := if c.type = 4 then bistResult (s / 5) s pass b5 else b5
    finishCard c .ok t (enterDraw s t (noteCancel c t b6))
  | _, _ => b

/-- A fault handler's fence has expired (R227): the shuttle halts, and is retired at the next pick boundary (R425). -/
def handlerOverrun (s : Nat) (b : Block) : Block :=
  let sh := b.shuttle s
  if shtState b s = 2 ∧ sh.fence = 0 then
    let pc : Word := BitVec.ofNat 32 sh.pc
    let b1 := b.setShuttle s { sh with ecause := 7, eaddr := pc }
    let b2 := ((b1.put (SHT_SSTAT_state s) 4).put (SHT_SSTAT_cause s) 7).put (SHT_SFCAP_eaddr s) pc.toNat
    retireNext s ((b2.bump (SHT_SCNT_overruns s)).flag SHT_IRQ_STAT_overrun)
  else b

/-- A tap request (R228): ignored while the debug scope is locked, or when it names no shuttle. -/
def tapRequest (v : Word) (b : Block) : Block :=
  let s := v.toNat % 256
  let b1 := b.put SHT_TAP_shuttle s
  if v.getLsbD 8 then
    (if debugOpen b ∧ s < 160 then (b1.setShuttle s { b1.shuttle s with tapReq := true }).put SHT_TAP_req 1 else b1.put SHT_TAP_req 0)
  else b1

/-- TAP_TAKEN (R228): at a permitted point of a card, with no fault or fence pending; the card stays IN_SERVICE and its fence counter is
frozen. -/
def tapTaken (s : Nat) (b : Block) : Block :=
  let sh := b.shuttle s
  if sh.tapReq ∧ debugOpen b ∧ shtState b s = 1 ∧ sh.done.isNone ∧ permitted b s then
    (if sh.fault.isSome ∨ sh.fencePending then b
     else
      let vec := let v := b.get SHT_VEC_tap_vec; if v < 64 then 72 else v
      (dropTap s (enterHandler s 3 0 sh.eaddr vec b)).flag SHT_IRQ_STAT_tap)
  else b

/-- A send bank has drained (R218). -/
def sendDrainEnd (s k : Nat) (b : Block) : Block :=
  let sh := b.shuttle s
  b.setShuttle s { sh with banks := FMap.set (fun _ => {}) sh.banks k { (FMap.get (fun _ => {}) sh.banks k) with draining := false } }

/-- A register-file parity error of shuttle `s` (R227, R425): a fault with ECAUSE 4 is pending, EADDR the bundle index. -/
def parityError (s : Nat) (b : Block) : Block :=
  if issuing b s then pendFault s 4 (BitVec.ofNat 32 (b.shuttle s).pc) b else b

/-! ### The stream engine's arrivals (R145, R159, R170) -/

/-- The per-note controller values that were mirrored to voice `v` before its template came stand in its block (R58, R203). -/
def mirroredPnv (v p : Nat) (l : List Mirror) (b : Block) : Block :=
  l.foldl (fun acc m =>
    match m.field with
    | .pnCtl u c => if u = v then writePnv v p m.offset c m.value.toNat acc else acc
    | .pnReset u => if u = v then resetPnv v p m.offset acc else acc
    | _ => acc) b

/-- The template of a voice has been copied into its parameter block (R145): the first 1,024 bytes of its context. -/
def templateCopied (v : Nat) (b : Block) : Block :=
  let x := b.voice v
  if x.st == .free || x.copied then b
  else
    let old := x.undo.filter fun u => match u.what with | .param _ => false | _ => true
    mirroredPnv v b.pickNo b.alc.mirror (mirroredPnv v (b.pickNo - 1) b.alc.lastMirror
      (({ b with mem := Memory.setBytes b.mem (ctxBase v) (b.templateBytes x.template) }).setVoice v { x with copied := true, undo := old }))

/-- Whether another voice's windows come first (R159): those of a voice of the harness admitted in this pick precede every other window, in
the order of admission. -/
def fetchedBefore (b : Block) (v : Nat) : Bool :=
  let new (x : Voice) : Bool := x.st != .free && x.admitPick == b.pickNo && x.charged
  let waits (x : Voice) : Bool := new x && x.bytes != 0 && decide (x.winPick < max b.pickNo x.startPick + 1)
  let key (u : Nat) (x : Voice) : List Nat := [x.note, x.layer, x.unison, u]
  let mine := b.voice v
  (voicesOf b).any fun kv => kv.1 / 256 == v / 256 && kv.1 != v && waits kv.2 &&
    !(new mine && lexLe (key v mine) (key kv.1 kv.2))

/-- The last window of a voice's next pick arrives (R159): that of the pick in progress, or of its start, when it is not in yet; else
that of the next pick, once the render card of this pick is DONE. A render card that waited for it counts. -/
def windowArrival (v : Nat) (b : Block) : Block :=
  let x := b.voice v
  let first := max b.pickNo x.startPick
  let waits := b.dlr.cards.any fun c => c.flow == v && c.render && c.st == .ready && !windowsIn b c
  let b1 := if waits then b.bump (SHT_STR_wwait (v / 256)) else b
  if (x.st == .free && !legacyFlow b v) || fetchedBefore b v then b
  else if x.winPick < first + 1 then b1.setVoice v { x with winPick := first + 1 }
  else if b.dlr.cards.any (fun c => c.flow == v && c.render && c.pick == b.pickNo) then b
  else b1.setVoice v { x with winPick := first + 2 }

end Sys2Proof.Machine
end

