-- ==== Sys2Proof/Machine/Bundle.lean ====
section
/-! DEFINITION. The issue of a bundle (R219, R224, R235–R254). A slot command gives one slot of the shuttle's next bundle; the command of
slot C issues it. Registers and flags are read as they stand at its start, loads see the memory before it, and its stores follow. -/

namespace Sys2Proof.Machine

/-! ### Register writes -/

/-- Ranks of the slots in one cycle (R219): C over X over M1 over M0. -/
def rankX : Nat := 2
def rankC : Nat := 3

/-- A write on its way: due `d` bundles after the one that issues now. -/
def later (sh : Shuttle) (rank d cls reg : Nat) (v : Acc) : Flight :=
  { due := sh.bundle + d, cls := cls, reg := reg, val := v, issued := sh.bundle, rank := rank }

/-- A word register's write on its way. -/
def laterW (sh : Shuttle) (rank d cls reg : Nat) (v : Word) : Flight := later sh rank d cls reg (v.setWidth 72)

/-- Sticky flags on their way: sat 16, asat 32, wclamp 64 (R207). -/
def sticky (sh : Shuttle) (rank mask : Nat) (on : Bool) : List Flight :=
  if on then [laterW sh rank 1 19 0 (BitVec.ofNat 32 mask)] else []

/-! ### Slots M0 and M1 -/

/-- The word that a load of a kind leaves in Dd, from its bytes. -/
def loadWord (k : Load) (l : List Byte) : Word :=
  let x := leNat l
  match k with
  | .half => (BitVec.ofNat 16 x).signExtend 32
  | _ => BitVec.ofNat 32 x

/-- Pointer post-modify of a Format A access (R238): readable in the next bundle. -/
def postFlight (sh : Shuttle) (rank : Nat) (f : FmtA) (size : Nat) : List Flight :=
  match f.posted sh size with
  | some p => [laterW sh rank 1 1 f.p.toNat p]
  | none => []

/-- A load (R211, R212, R219, R239): `b0` is the block at the start of the bundle. A faulting load writes zero (R227). -/
def doLoad (s rank : Nat) (sh : Shuttle) (k : Load) (f : FmtA) (e : Ecc) (b0 b : Block) : Block :=
  let a := f.addr sh
  let size := k.size
  let (l, b1) : List Byte × Block :=
    match localAccess b0 s a.toNat size false with
    | .at p =>
      (match e with
       | .uncorrectable _ => (List.replicate size 0, pendFault s 1 a (eccCheck p e false b))
       | _ => (localBytes s a.toNat p size b0, eccCheck p e false b))
    | .queue _ => (List.replicate size 0, b)
    | .fault c => (List.replicate size 0, pendFault s c a b)
  let d := f.d.toNat
  let regs := match k with
    | .pair => [laterW sh rank 3 0 d (BitVec.ofNat 32 (leNat (l.take 4))), laterW sh rank 3 0 (d + 1) (BitVec.ofNat 32 (leNat (l.drop 4)))]
    | _ => [laterW sh rank 3 0 d (loadWord k l)]
  addFlights s (postFlight sh rank f size ++ regs) b1

/-- A store (R212): to memory at once, or into the parameter queue; a 33rd queued store faults with ECAUSE 6. One that fills no 64-bit word
of the memory (R317) reads it first. -/
def doStore (s rank : Nat) (sh : Shuttle) (k : StoreKind) (f : FmtA) (e : Ecc) (b0 b : Block) : Block :=
  let a := f.addr sh
  let size := k.size
  let d := f.d.toNat
  let l := match k with
    | .pair => leBytes 4 (sh.rd d).toNat ++ leBytes 4 (sh.rd (d + 1)).toNat
    | _ => leBytes size (sh.rd d).toNat
  let b1 := match localAccess b0 s a.toNat size true with
    | .at p =>
      let b1 := eccCheck p e false b
      let stored : Block := { b1 with mem := Memory.setBytes b1.mem p l }
      (match e with
       | .uncorrectable _ => pendFault s 1 a (if Config.storedOnError p then stored else b1)
       | _ => stored)
    | .queue o =>
      let q := (b.shuttle s).queue
      if 32 ≤ q.length then pendFault s 6 a b else b.setShuttle s { b.shuttle s with queue := q ++ [⟨o, l⟩] }
    | .fault c => pendFault s c a b
  addFlights s (postFlight sh rank f size) b1

/-- A stream read (R215, R240). The harness holds the window in its stream pool, whose error faults as a load's (R227, R428). -/
def doSrd (s rank : Nat) (sh : Shuttle) (d f : Nat) (w inc : Bool) (e : Ecc) (b : Block) : Block :=
  let i := if w then 1 else 0
  let spans := FMap.get (fun _ => []) sh.winSpan i
  let n := (sh.rd f).toNat
  let fmt := FMap.get (fun _ => 0) sh.winFmt i
  let near := nearestIn spans n
  let v : Word :=
    match near with
    | none => 0
    | some k =>
      -- a DV32 address at or beyond the instance's length reads 0 (R357)
      if fmt = 4 ∧ b.get (LEG_INST_LEN_words (s / 5)) ≤ k then 0
      else decodeFrame b.mem (FMap.get (fun _ => 0) sh.winAt i) fmt k
  let clamp := near.isSome && !inSpans spans n
  let pool := 0xA0000 + Config.poolAddr s (sh.rd f) % 0x18000 * 8
  let b1 := eccCheck (harnessBase (s / 5) + pool) e false b
  let (v, b1) := match e with
    | .uncorrectable _ => (0, pendFault s 1 (BitVec.ofNat 32 pool) b1)
    | _ => (v, b1)
  addFlights s ([laterW sh rank 3 0 d v] ++ sticky sh rank 64 clamp ++ (if inc then [laterW sh rank 1 0 f (sh.rd f + 1)] else [])) b1

/-- LDL or STL (R217, R241): the checks, then the transfer is outstanding; a ninth waits for the oldest. -/
def doLoom (s : Nat) (sh : Shuttle) (store : Bool) (lr p size : Nat) (e : Ecc) (b : Block) : Block :=
  let n := 16 * 2 ^ size
  let o := sh.rd lr
  let a := sh.ptr p
  let l := s / 40
  if o.toNat % n ≠ 0 then pendFault s 3 o b
  else if a.toNat % n ≠ 0 then pendFault s 3 a b
  else if a.toNat < 0x180000 ∨ 0x184000 ≤ a.toNat then pendFault s 2 a b
  else if 0x200000 ≤ o.toNat then pendFault s 3 o b
  else if store ∧ o.toNat < 2048 * b.nInt then pendFault s 2 o b
  else if !loomOwned b l o.toNat then
    loomRefused s l o store b
  else
    let b1 := completeTo s 7 8 b
    let sh1 := b1.shuttle s
    b1.setShuttle s { sh1 with xfers := sh1.xfers ++ [{ store := store, loom := o.toNat, priv := a.toNat, size := n, ecc := e }] }

/-- SND (R218, R242): into the active bank; an SND to a bank that drains waits for the end of the drain. -/
def doSnd (s rank : Nat) (sh : Shuttle) (v t lane : Nat) (inc : Bool) (b : Block) : Block :=
  let x := (sh.rd t).toNat
  let sample := x % 256
  let target := x / 256 % 512
  let cur := b.shuttle s
  let bank := FMap.get (fun _ => {}) cur.banks cur.active
  let bound := FMap.get (fun _ => 0) bank.binds lane
  let render := match cardOf b s with | some c => c.render | none => false
  let b1 :=
    if b.nInt ≤ sample ∨ 287 < target ∨ (bound ≠ 0 ∧ bound ≠ target + 1) ∨ !render then pendFault s 2 (Config.sndAddr (sh.rd t)) b
    else
      let bank1 := { bank with
        binds := FMap.set (fun _ => 0) bank.binds lane (target + 1), sends := bank.sends ++ [(lane, sample, sh.rd v)], draining := false }
      b.setShuttle s { cur with banks := FMap.set (fun _ => {}) cur.banks cur.active bank1 }
  addFlights s (if inc then [laterW sh rank 1 0 t (sh.rd t + 1)] else []) b1

/-- Slot M0 (rank 0) or M1 (rank 1), but for stores. -/
def execLoad (s rank : Nat) (sh : Shuttle) (op : MOp) (b0 b : Block) : Block :=
  match op with
  | .load k f e => doLoad s rank sh k f e b0 b
  | .srd d f w inc e => doSrd s rank sh d.toNat f.toNat w inc e b
  | .ldl l p size e => doLoom s sh false l.toNat p.toNat size.toNat e b
  | .stl l p size e => doLoom s sh true l.toNat p.toNat size.toNat e b
  | .snd v t lane inc => doSnd s rank sh v.toNat t.toNat lane.toNat inc b
  | .padd k j cls imm =>
    let x := if cls then sh.mod j.toNat else sh.ptr j.toNat
    addFlights s [laterW sh rank 1 (if cls then 2 else 1) k.toNat (x + imm.signExtend 32)] b
  | .pmov d k dir =>
    addFlights s
      [match dir.toNat with
       | 0 => laterW sh rank 1 1 k.toNat (sh.rd d.toNat)
       | 1 => laterW sh rank 1 2 k.toNat (sh.rd d.toNat)
       | 2 => laterW sh rank 1 0 d.toNat (sh.ptr k.toNat)
       | _ => laterW sh rank 1 0 d.toNat (sh.mod k.toNat)] b
  | .pli k cls imm => addFlights s [laterW sh rank 1 (if cls then 2 else 1) k.toNat (if cls then imm.signExtend 32 else imm.setWidth 32)] b
  | .store .. | .nop => b

/-- The store of slot M0 or M1; M1's comes second, so it stays (R236). -/
def execStore (s rank : Nat) (sh : Shuttle) (op : MOp) (b0 b : Block) : Block :=
  match op with
  | .store k f e => doStore s rank sh k f e b0 b
  | _ => b

/-! ### Slot X (R208, R209, R220, R244) -/

/-- An accumulator's new value: forwarded to accumulation in the next bundle, readable by extraction three later (R219). -/
def accFlights (sh : Shuttle) (a : Nat) (v : Acc) : List Flight := [later sh rankX 1 17 a v, later sh rankX 4 16 a v]

/-- Set an accumulator to a product, or add it, with saturation (R208). -/
def accumulate (sh : Shuttle) (a : Nat) (acc : Bool) (prod : Int) : List Flight :=
  let sum := (if acc then (sh.accum a).toInt else 0) + prod
  accFlights sh a (accSat sum) ++ sticky sh rankX 32 (satHits 72 sum)

/-- A product, negated where the instruction says so. -/
def signed (neg : Bool) (x : Int) : Int := if neg then -x else x

/-- Extract an accumulator into a D register (R209). -/
def extract (sh : Shuttle) (a s d : Nat) : List Flight :=
  let x := extractExact (sh.extr a) s
  [laterW sh rankX 4 0 d (sat32 x)] ++ sticky sh rankX 16 (satHits 32 x)

/-- The writes of slot X. -/
def execX (sh : Shuttle) : XOp → List Flight
  | .nop => []
  | .cmac pair acc neg conj zx zy =>
    let a := if pair then 2 else 0
    let xr := sh.rd (2 * zx.toNat)
    let xi := sh.rd (2 * zx.toNat + 1)
    let yr := sh.rd (2 * zy.toNat)
    let yi := sh.rd (2 * zy.toNat + 1)
    let re := if conj then mulQ xr yr + mulQ xi yi else mulQ xr yr - mulQ xi yi
    let im := if conj then mulQ xi yr - mulQ xr yi else mulQ xr yi + mulQ xi yr
    accumulate sh a acc (signed neg re) ++ accumulate sh (a + 1) acc (signed neg im)
  | .rmac a acc neg x y => accumulate sh a.toNat acc (signed neg (mulQ (sh.rd x.toNat) (sh.rd y.toNat)))
  | .rmac2 a b negA negB acc x y u v =>
    accumulate sh a.toNat acc (signed negA (mulQ (sh.rd x.toNat) (sh.rd y.toNat))) ++
    accumulate sh b.toNat acc (signed negB (mulQ (sh.rd u.toNat) (sh.rd v.toNat)))
  | .ext d a s z =>
    if z then extract sh a.toNat s.toNat d.toNat ++ extract sh (a.toNat + 1) s.toNat (d.toNat + 1)
    else extract sh a.toNat s.toNat d.toNat
  | .accset a x => accFlights sh a.toNat (BitVec.ofInt 72 ((sh.rd x.toNat).toInt * 2 ^ 32))

/-! ### Slot C (R221, R245–R249) -/

/-- A result with the flags it writes. -/
def aluFlights (sh : Shuttle) (d : Option Nat) (r : AluOut) : List Flight :=
  (match d with | some k => [laterW sh rankC 1 0 k r.val] | none => []) ++ [laterW sh rankC 1 18 0 (BitVec.ofNat 32 (r.mask * 16 + r.flags))]

/-- The code of a shaper function (R221). -/
def ShpFn.code : ShpFn → Nat
  | .exp2 => 0
  | .sin => 1
  | .tanh => 2
  | .sclip => 3
  | .blep => 4
  | .blamp => 5
  | .win => 6
  | .reserved => 7

/-- A shaper lookup (R221, R248). -/
def shape (fn : ShpFn) (x : Word) : Word := BitVec.ofInt 32 (shaper fn.code x)

/-- The register writes of slot C. -/
def execC (s : Nat) (now : Nat) (sh : Shuttle) (c : COp) (cur : Shuttle) : Shuttle :=
  let out (l : List Flight) : Shuttle := { cur with flights := cur.flights ++ l }
  match c with
  | .alu fn d a b => out (aluFlights sh (some d.toNat) (aluOut fn (sh.rd a.toNat) (sh.rd b.toNat)))
  | .cmp a b => out (aluFlights sh none (subOut (sh.rd a.toNat) (sh.rd b.toNat)))
  | .mov d a => out [laterW sh rankC 1 0 d.toNat (sh.rd a.toNat)]
  | .addi d a imm => out (aluFlights sh (some d.toNat) (addOut (sh.rd a.toNat) (imm.signExtend 32)))
  | .andi d a imm => out (aluFlights sh (some d.toNat) (outZN (sh.rd a.toNat &&& imm.setWidth 32)))
  | .ori d a imm => out (aluFlights sh (some d.toNat) (outZN (sh.rd a.toNat ||| imm.setWidth 32)))
  | .xori d a imm => out (aluFlights sh (some d.toNat) (outZN (sh.rd a.toNat ^^^ imm.setWidth 32)))
  | .shi d a kind n =>
    let x := sh.rd a.toNat
    out (aluFlights sh (some d.toNat) (outZN (match kind.toNat with
      | 0 => shlW x n.toNat
      | 1 => shrW x n.toNat
      | _ => asrW x n.toNat)))
  | .cmpi a imm => out (aluFlights sh none (subOut (sh.rd a.toNat) (imm.signExtend 32)))
  | .ldi d imm => out [laterW sh rankC 1 0 d.toNat (imm.signExtend 32)]
  | .ldhi d imm => out [laterW sh rankC 1 0 d.toNat (BitVec.ofNat 32 (imm.toNat * 65536 + (sh.rd d.toNat).toNat % 65536))]
  | .sel d a b cond => out [laterW sh rankC 1 0 d.toNat (if condHolds cond.toNat sh.flg then sh.rd a.toNat else sh.rd b.toNat)]
  | .shp fn d x => out [laterW sh rankC 4 0 d.toNat (shape fn (sh.rd x.toNat))]
  | .movx dst src dcls scls =>
    let v := sh.getReg s now scls.toNat src.toNat
    if dcls.toNat = 4 then { cur with
      flights := cur.flights ++ [laterW sh rankC 1 4 dst.toNat v], folds := cur.folds ++ [(sh.bundle + 2, dst.toNat, v)] }
    else out [laterW sh rankC 1 dcls.toNat dst.toNat v]
  | .setbl k len imm =>
    let v : Word := imm.setWidth 32
    if len then { cur with
      flights := cur.flights ++ [laterW sh rankC 1 4 k.toNat v], folds := cur.folds ++ [(sh.bundle + 2, k.toNat, v)] }
    else out [laterW sh rankC 1 3 k.toNat v]
  | .call d _ => out [laterW sh rankC 1 0 d.toNat (BitVec.ofNat 32 (sh.pc + 3))]
  | .nop | .br .. | .brd _ | .rep _ | .repd _ | .loop .. | .loopd .. | .waitl _ | .done _ | .draw | .rte => cur

/-! ### Legality (R254) -/

/-- The LE of an active level. -/
def Shuttle.isLoopEnd (sh : Shuttle) (pc : Nat) : Bool := (List.range sh.levels).any fun k => FMap.get (fun _ => 0) sh.le k == pc

/-- Whether the bundle about to issue is legal. -/
def bundleLegal (state : Nat) (sh : Shuttle) (c : COp) : Bool :=
  sh.m0.ok && sh.m1.ok && sh.x.ok && c.ok && decide (64 ≤ sh.pc) &&
  !(c.looping && decide (2 ≤ sh.levels)) &&
  !(c.control && decide (0 < sh.slotsLeft)) &&
  !(c.branching && sh.isLoopEnd sh.pc) &&
  !(c.unrepeatable && sh.rep.isSome) &&
  (match c with
   | .brd a => decide (64 ≤ (sh.rd a.toNat).toNat % 8192)
   | .draw | .rte => state == 2 || state == 3
   | .done _ => state != 3
   | _ => true)

/-! ### What issues next (R224, R250–R252) -/

/-- The end test of the active levels at `pc`, innermost first: back to LSk, or on. -/
def Shuttle.loopEnd : Nat → Shuttle → Shuttle
  | 0, sh => { sh with pc := (sh.pc + 1) % 8192 }
  | fuel + 1, sh =>
    let k := sh.levels - 1
    if sh.levels = 0 ∨ FMap.get (fun _ => 0) sh.le k ≠ sh.pc then { sh with pc := (sh.pc + 1) % 8192 }
    else
      let n := FMap.get (fun _ => 0) sh.lc k
      if 1 < n then { sh with lc := FMap.set (fun _ => 0) sh.lc k (n - 1), pc := FMap.get (fun _ => 0) sh.ls k }
      else Shuttle.loopEnd fuel { sh with levels := k }

/-- A branch to `t` frees every level whose body it leaves. -/
def Shuttle.jump (sh : Shuttle) (t : Nat) : Shuttle :=
  let inside (k : Nat) : Bool := FMap.get (fun _ => 0) sh.ls k ≤ t && t ≤ FMap.get (fun _ => 0) sh.le k
  let keep := if sh.levels = 0 then 0 else if !inside 0 then 0 else if sh.levels = 1 then 1 else if inside 1 then 2 else 1
  { sh with pc := t, levels := keep, branch := none }

/-- Onward from a bundle that neither branches nor opens a loop: through its repetitions, its delay slots and its loop ends. -/
def Shuttle.onward (sh : Shuttle) : Shuttle :=
  match sh.rep with
  | some n => if 1 < n then { sh with rep := some (n - 1) } else Shuttle.loopEnd 2 { sh with rep := none }
  | none =>
    if sh.slotsLeft = 1 then
      let sh1 := { sh with slotsLeft := 0 }
      match sh.branch with
      | some t => sh1.jump t
      | none => Shuttle.loopEnd 2 sh1
    else if sh.slotsLeft = 0 then Shuttle.loopEnd 2 sh
    else
      let sh1 := { sh with slotsLeft := sh.slotsLeft - 1 }
      -- a taken branch's first delay slot is followed by its second
      if sh.branch.isSome then { sh1 with pc := (sh1.pc + 1) % 8192 } else Shuttle.loopEnd 2 sh1

/-- Two delay slots follow, then the target of a branch that is taken. -/
def Shuttle.branchTo (sh : Shuttle) (t : Option Nat) : Shuttle := { sh with branch := t, slotsLeft := 2, pc := (sh.pc + 1) % 8192 }

/-- REP: the next bundle repeats `n` times; 0 skips it. -/
def Shuttle.repeatNext (sh : Shuttle) (n : Nat) : Shuttle :=
  if n = 0 then { sh with pc := (sh.pc + 2) % 8192 } else { sh with rep := some n, pc := (sh.pc + 1) % 8192 }

/-- LOOP: the next free level opens; a count of 0 skips the body. -/
def Shuttle.openLoop (sh : Shuttle) (n off : Nat) : Shuttle :=
  let k := sh.levels
  if n = 0 then { sh with pc := (sh.pc + off + 2) % 8192 }
  else { sh with
    levels := k + 1, lc := FMap.set (fun _ => 0) sh.lc k n, ls := FMap.set (fun _ => 0) sh.ls k ((sh.pc + 1) % 8192)
    le := FMap.set (fun _ => 0) sh.le k ((sh.pc + 1 + off) % 8192), pc := (sh.pc + 1) % 8192 }

/-- Where the shuttle goes on after a legal bundle; `sh` is its registers at issue. -/
def sequence (sh : Shuttle) (c : COp) (cur : Shuttle) : Shuttle :=
  match c with
  | .br cond t => cur.branchTo (if condHolds cond.toNat sh.flg then some t.toNat else none)
  | .call _ t => cur.branchTo (some t.toNat)
  | .brd a => cur.branchTo (some ((sh.rd a.toNat).toNat % 8192))
  | .rep n => cur.repeatNext n.toNat
  | .repd a => cur.repeatNext (min 1024 (sh.rd a.toNat).toNat)
  | .loop n off => cur.openLoop n.toNat off.toNat
  | .loopd a off => cur.openLoop ((sh.rd a.toNat).toNat % 65536) off.toNat
  | _ => cur.onward

/-- The end of a handler (R227, R228, R253): DRAW, DONE and RTE in a fault handler enter DRAW; in a tap handler RTE resumes at EPC and
DRAW abandons the card. -/
def endHandler (s : Nat) (c : COp) (b : Block) : Block :=
  if shtState b s = 2 then
    (match c with | .done _ | .draw | .rte => enterDraw s b.now b | _ => b)
  else if shtState b s = 3 then
    (match c with
     | .rte => (b.setShuttle s { b.shuttle s with
         pc := (b.shuttle s).epc.toNat % 8192, flg := (b.shuttle s).eflg }).put (SHT_SSTAT_state s) 1
     | .draw =>
       (match cardOf b s with
        | some x =>
          let y := failCard s x .fault b.now (b.setShuttle s { b.shuttle s with ecause := 0 })
          enterDraw s b.now (if x.cancelled b.now then y else (noteFault s y).put (SHT_SSTAT_cause s) 0)
        | none => enterDraw s b.now b)
     | _ => b)
  else match c with
    | .done e =>
      -- program 0x03 has used the bank of the mix blocks, which must be loom 0's (R217, R370)
      if (cardOf b s).any (·.type == 5) && !loomOwned b 0 0x1FF000 then pendFault s 2 0x1FF000 b
      else b.setShuttle s { b.shuttle s with done := some e }
    | _ => b

/-- WAITL n (R217). -/
def waitl (s : Nat) (c : COp) (b : Block) : Block :=
  match c with
  | .waitl n => completeTo s n.toNat 8 b
  | _ => b

/-! ### Issue -/

/-- The next bundle has issued: its index shows, its slots are taken, and the distance of every result grows by one. -/
def countBundle (s : Nat) (pc : Nat) (b : Block) : Block :=
  let sh := b.shuttle s
  (b.setShuttle s { sh with bundle := sh.bundle + 1, m0 := .nop, m1 := .nop, x := .nop }).put (SHT_SPC_bundle s) pc

/-- An illegal bundle issues as the empty bundle, and its fault is pending (R254). -/
def issueIllegal (s : Nat) (b : Block) : Block :=
  let sh := (b.shuttle s).startBundle (b.shuttle s).bundle
  let pc := sh.pc
  countBundle s pc (pendFault s 5 (BitVec.ofNat 32 pc) (b.setShuttle s sh.onward))

/-- A legal bundle issues: slot M0, M1, X and C on the registers at its start, then the stores, then what follows. -/
def issueLegal (s : Nat) (c : COp) (b : Block) : Block :=
  let sh := (b.shuttle s).startBundle (b.shuttle s).bundle
  let b0 := b.setShuttle s sh
  let b1 := execLoad s 1 sh sh.m1 b0 (execLoad s 0 sh sh.m0 b0 b0)
  let b2 := addFlights s (execX sh sh.x) b1
  let b3 := b2.setShuttle s (execC s b.now sh c (b2.shuttle s))
  let b4 := execStore s 1 sh sh.m1 b0 (execStore s 0 sh sh.m0 b0 b3)
  let b5 := waitl s c b4
  let b6 := b5.setShuttle s (sequence sh c (b5.shuttle s))
  endHandler s c (countBundle s sh.pc b6)

/-- Whether an event is due at the boundary before the next bundle, which then does not issue (R225–R228): a fault, or while a card runs a
fence or a tap. -/
def eventDue (s : Nat) (b : Block) : Bool :=
  let sh := b.shuttle s
  permitted b s && (sh.fault.isSome || (shtState b s == 1 && (sh.fencePending || (sh.tapReq && debugOpen b))))

/-- The command of slot C issues the bundle of a shuttle that runs. -/
def slotC (s : Nat) (c : COp) (b : Block) : Block :=
  if !issuing b s || eventDue s b then b
  else if bundleLegal (shtState b s) ((b.shuttle s).startBundle (b.shuttle s).bundle) c then issueLegal s c b
  else issueIllegal s b

/-- A bundle with a reserved encoding or a nonzero zero bit (R254). -/
def illegalBundle (s : Nat) (b : Block) : Block := if issuing b s && !eventDue s b then issueIllegal s b else b

/-- A command of slot M0 or M1. -/
def slotM (s : Nat) (m1 : Bool) (op : MOp) (b : Block) : Block :=
  if !issuing b s then b
  else b.setShuttle s (if m1 then { b.shuttle s with m1 := op } else { b.shuttle s with m0 := op })

/-- A command of slot X. -/
def slotX (s : Nat) (op : XOp) (b : Block) : Block :=
  if !issuing b s then b else b.setShuttle s { b.shuttle s with x := op }

/-- NOP in any slot. -/
def slotNop (s slot : Nat) (b : Block) : Block :=
  match slot with
  | 0 => slotM s false .nop b
  | 1 => slotM s true .nop b
  | 2 => slotX s .nop b
  | _ => slotC s .nop b

/-- LDL_STL_COMPLETE (R217): the oldest outstanding transfer completes. -/
def transferComplete (s : Nat) (b : Block) : Block := completeXfer s b

end Sys2Proof.Machine
end

