-- ==== Sys2Proof/Machine/Mix.lean ====
section
/-! DEFINITION. The chip mix stage (R264, R265), bus parameters (R261), the decimation chain (R266–R270), and the input lanes (R271). -/

namespace Sys2Proof.Machine

/-! ### Bus parameters (R261) -/

/-- Write a halfword of the parameter area of a bus's entry on loom `l`. -/
def busParamWrite (l bus o v : Nat) (b : Block) : Block :=
  match entryFor b l bus with
  | some e => { b with mem := Memory.setNum b.mem (loomBase l + parBase b l e.ix + o) 2 v }
  | none => b

/-- Whether a bus card of the flow is IN_SERVICE on loom `l`. -/
def busInService (b : Block) (l bus : Nat) : Bool :=
  b.dlr.cards.any fun c => c.deck == 32 + l && c.flow == 8192 + bus && (match c.st with | .inService _ => true | _ => false)

/-- A released BUS_PARAM (R55, R261): [9:0] offset, [31:16] halfword; a loom whose bus card is IN_SERVICE takes it at that card's
completion. -/
def busParam (x : Timed) (b : Block) : Block :=
  let bus := x.ev.index
  let o := x.ev.bits 9 0
  let v := x.ev.bits 31 16
  (List.range 4).foldl (fun acc l =>
    if (entryFor acc l bus).isNone then acc
    else if busInService acc l bus then { acc with mix := { acc.mix with deferred := acc.mix.deferred ++ [(l, bus, o, v)] } }
    else busParamWrite l bus o v acc) b

/-- BUS_PARAM_DEFERRED_WRITE (R261): the writes that waited for the completion of a bus card on loom `l` are made. -/
def busParamDeferred (l bus : Nat) (b : Block) : Block :=
  if busInService b l bus then b
  else
    let mine := b.mix.deferred.filter fun x => x.1 == l && x.2.1 == bus
    mine.foldl (fun acc x => busParamWrite l bus x.2.2.1 x.2.2.2 acc)
      { b with mix := { b.mix with deferred := b.mix.deferred.filter fun x => !(x.1 == l && x.2.1 == bus) } }

/-! ### The chip stage (R264, R265) -/

/-- Clear `n` bytes: they read as unlisted ones do. -/
def Memory.clear (m : List Host.Cell) (a n : Nat) : List Host.Cell := m.filter fun kv => decide (kv.1 < a) || decide (a + n ≤ kv.1)

/-- What a loom contributes to the sum of a pick: all, nothing, or a fade. -/
inductive Factor where
  | full
  | none
  | fadeOut
  | fadeIn
deriving DecidableEq, Repr

/-- f_L(i) as a numerator over N. -/
def Factor.at (f : Factor) (n i : Nat) : Nat :=
  match f with
  | .full => n
  | .none => 0
  | .fadeOut => n - (i + 1)
  | .fadeIn => i + 1

/-- MIX_CTL.live as it counts at a pick boundary: a write in the boundary's own cycle acts from the next (R265). -/
def liveNow (b : Block) : Nat := if b.mix.liveT = some b.now then b.mix.liveWas else b.get MIX_CTL_live

/-- The factor of loom `l` for the pick to be summed (R265): it follows MIX_CTL.live and quarantine by one pick's fade; a late loom
contributes nothing and keeps its factor. -/
def factorOf (b : Block) (late : List Nat) (l : Nat) : Factor :=
  if late.contains l then .none
  else
    let want := (liveNow b).testBit l && !b.bit DLR_STAT_quar l
    if b.mix.off.contains l then (if want then .fadeIn else .none) else (if want then .full else .fadeOut)

/-- The four factors. -/
def factors (b : Block) (late : List Nat) : List (Nat × Factor) := (List.range 4).map fun l => (l, factorOf b late l)

/-- A loom's word as a signed number. -/
def loomWord (b : Block) (l o : Nat) : Int := (BitVec.ofNat 32 (Memory.num b.mem (loomBase l + o) 4)).toInt

/-- Whether the bus card of an entry on a loom completed OK in pick `n` (R260). -/
def returnOk (b : Block) (l : Nat) (e : Entry) (n : Nat) : Bool :=
  b.dlr.records.contains { flow := 8192 + e.bus, type := 2, pick := n, deck := 32 + l, status := .ok }

/-- Whether a bus's accumulator passes: no entry with that input runs on the loom, or it has dry (R264). -/
def passes (b : Block) (l c : Nat) : Bool :=
  match (planOn b l).find? fun e => e.bus == c || (e.stereo && e.bus + 1 == c) with
  | none => true
  | some e => b.on (MIX_RGAIN_dry e.bus)

/-- The exact sum of chip bus `c` at sample `i` of pick `n`, times N × 2^14 (R264). -/
def chipSum (b : Block) (fs : List (Nat × Factor)) (n c i : Nat) : Int :=
  let N := b.nInt
  let x := n % 2
  fs.foldl (fun acc lf =>
    let l := lf.1
    let f : Int := (lf.2.at N i : Nat)
    let dry : Int := if passes b l c then f * loomWord b l (x * 1024 * N + 4 * N * c + 4 * i) * 16384 else 0
    let ret (e : Entry) (r bus : Nat) : Int :=
      -- the bus entries of a loom in quarantine return zero (R430)
      if bus = c ∧ returnOk b l e n ∧ !b.bit DLR_STAT_quar l then
        f * (b.get (MIX_RGAIN_gain e.bus) : Nat) * loomWord b l (retBase b l e.ix + (2 * x + r) * 4 * N + 4 * i)
      else 0
    (planOn b l).foldl (fun s e => s + ret e 0 e.ret0 + (if e.ret1 = 255 then 0 else ret e 1 e.ret1)) (acc + dry)) 0

/-- chip[c][i] (R264): saturated once to Q5.27. -/
def chipExact (b : Block) (fs : List (Nat × Factor)) (n c i : Nat) : Int := quotient (chipSum b fs n c i) (b.nInt * 16384)

/-- The words of chip bus `c` of pick `n`. -/
def chipBus (b : Block) (fs : List (Nat × Factor)) (n c : Nat) : List Word := (List.range b.nInt).map fun i => sat32 (chipExact b fs n c i)

/-- Whether any chip bus of pick `n` saturates. -/
def chipSaturates (b : Block) (fs : List (Nat × Factor)) (n : Nat) : Bool :=
  (List.range 256).any fun c => (List.range b.nInt).any fun i => satHits 32 (chipExact b fs n c i)

/-- Eight bits of MIX_LATE for loom `l`. -/
def MIX_LATE_L (l : Nat) : Fld := ⟨MIX_LATE, 8 * l + 7, 8 * l⟩

/-- The dropped returns of pick `n` (R260): one count for each bus card that did not end OK. -/
def countDropped (n : Nat) (b : Block) : Block :=
  let lost := sumNat ((List.range 4).map fun l => ((planOn b l).filter fun e => !returnOk b l e n).length)
  if lost = 0 then b else impair ((b.bump MIX_RET_dropped lost).flag MIX_IRQ_STAT_ret_drop)

/-- The end of a loom's fade (R265). -/
def loomFadeDone (l : Nat) (b : Block) : Block :=
  if b.bit MIX_STAT_fading l then
    let b1 := b.clrBit MIX_STAT_fading l
    if b.mix.off.contains l then (b1.clrBit MIX_STAT_contrib l).flag MIX_IRQ_STAT_fade_done else b1
  else b

/-- The factors after the pick has been summed; a fade shows in MIX_STAT while it runs. -/
def moveFactor (lf : Nat × Factor) (b : Block) : Block :=
  let l := lf.1
  match lf.2 with
  | .fadeOut => ({ b with mix := { b.mix with off := addNew l b.mix.off } }).setBit MIX_STAT_fading l
  | .fadeIn => (({ b with mix := { b.mix with off := b.mix.off.filter (· != l) } }).setBit MIX_STAT_fading l).setBit MIX_STAT_contrib l
  | _ => b

/-- The chip stage has read pick `n` (R256, R264, R265): buffers cleared, saturation and late looms counted, factors moved. -/
def chipDone (n : Nat) (late : List Nat) (b : Block) : Block :=
  let fs := factors b late
  let sat := chipSaturates b fs n
  let b1 := (List.range 4).foldl (fun acc l =>
    { acc with mem := Memory.clear acc.mem (loomBase l + n % 2 * 1024 * acc.nInt) (1024 * acc.nInt) }) b
  let b2 := if sat then (b1.bump MIX_SAT_chip).flag MIX_IRQ_STAT_sat else b1
  let b3 := late.foldl (fun acc l => (acc.bump (MIX_LATE_L l)).flag MIX_IRQ_STAT_late) b2
  let b4 := (List.range 4).foldl (fun acc l => loomFadeDone l acc) b3
  fs.foldl (fun acc lf => moveFactor lf acc) b4

/-- A write of MIX_CTL.live (R265). -/
def liveWrite (v : Word) (b : Block) : Block :=
  let was := if b.mix.liveT = some b.now then b.mix.liveWas else b.get MIX_CTL_live
  { b.put MIX_CTL_live (v.toNat % 16) with mix := { b.mix with liveT := some b.now, liveWas := was } }

/-! ### Response sets (R267, R268) -/

/-- Taps of a set's part: 0 stage 1, 1 stage 2, 2 stage 3 at OSR 1, 3 stage 3 at OSR 2 and 4. -/
def setTaps (set part : Nat) : Nat :=
  (match set with
   | 0 => [23, 74, 1, 1]
   | 1 => [23, 38, 1, 1]
   | 2 => [15, 40, 1, 1]
   | 3 => [23, 62, 9, 1]
   | 5 => [23, 34, 15, 1]
   | 6 => [11, 14, 1, 1]
   | _ => [0, 0, 0, 0]).getD part 0

/-- Group delay of a set in hundredths of an output sample, at OSR code 0, 1, 2. -/
def setDelay (set osr : Nat) : Nat :=
  (match set with
   | 0 => [0, 1825, 2100]
   | 1 => [0, 925, 1200]
   | 2 => [0, 250, 350]
   | 3 => [400, 1525, 1800]
   | 5 => [700, 825, 1100]
   | 6 => [0, 325, 450]
   | _ => [0, 0, 0]).getD osr 0

/-- The coefficient that DCH_CROM_DATA reads (R267): zero beyond a stage's length; every set but MINPHASE is of linear phase, so that its
taps are symmetric. -/
def coefAt (set part j : Nat) : Word :=
  let n := setTaps set part
  if n ≤ j then 0 else Config.coef set part (if set = 2 then j else min j (n - 1 - j))

/-- ceil(g) (R24, R268): over the enabled sets at the OSR in force. -/
def gCeil (b : Block) : Nat :=
  (List.range 8).foldl (fun acc s => if b.bit DCH_CFG_mask s then max acc (ceilDiv (setDelay s b.tbu.osr) 100) else acc) 0

/-- pad_a of a set (R268), from the ceil(g) of the L_out in force, which a change of the response sets does not move (R24). -/
def padA (b : Block) (set : Nat) : Nat := b.get DCH_LOUT_gceil - ceilDiv (setDelay set b.tbu.osr) 100

/-- A word after a stage's shift (R266), from an exact sum whose unit is 2^-k. -/
def stageWord (sum : Int) (k : Nat) : Word × Bool := let x := roundShr (satInt 72 sum) k; (sat32 x, satHits 32 x)

/-- One output of a stage from its newest samples, with a gain of 2^(31 − u): a one-tap stage is unity (R267). -/
def stageOut (u set part s : Nat) (h : List Word) : Word × Bool :=
  let n := setTaps set part
  if n = 1 then stageWord ((h.getD 0 0).toInt) s
  else stageWord ((List.range n).foldl (fun (acc : Int) j => acc + (coefAt set part j).toInt * (h.getD j 0).toInt) 0) (u + s)

/-- A stage over samples, oldest first; `step` 2 gives an output for every second one, beginning with the first. Answers its newest
samples, its outputs and whether one saturated. -/
def runStage (u set part s step : Nat) (h : List Word) (xs : List Word) : List Word × List Word × Bool :=
  let (_, h1, ys, sat) := xs.foldl (fun (acc : Nat × List Word × List Word × Bool) x =>
    let (i, h, ys, sat) := acc
    let h1 := (x :: h).take 128
    if i % step = 0 then (let (y, f) := stageOut u set part s h1; (i + 1, h1, ys ++ [y], sat || f))
    else (i + 1, h1, ys, sat)) (0, h, [], false)
  (h1, ys, sat)

/-- A shift alone, for DROP (R266). -/
def shiftStage (s : Nat) (xs : List Word) : List Word × Bool :=
  (xs.map fun x => (stageWord x.toInt s).1, xs.any fun x => (stageWord x.toInt s).2)

/-- A delay line of `k` samples, oldest first. -/
def delayLine (k : Nat) (q xs : List Word) : List Word × List Word :=
  let q1 := List.replicate (k - q.length) 0 ++ q
  let q2 := q1.drop (q1.length - k) ++ xs
  (q2.take xs.length, q2.drop xs.length)

/-- A response set over the internal samples of a pick (R266, R267): output samples after its pad, and which stages saturated, as a
mask. -/
def runSet (set osr pad sh1 sh2 sh3 : Nat) (c : Chain) (xs : List Word) : Chain × List Word × Nat :=
  let bit (f : Bool) (k : Nat) : Nat := if f then k else 0
  if set = 7 then
    let ys := List.replicate (xs.length / 2 ^ osr) 0
    let (o, q) := delayLine pad c.pad ys
    ({ pad := q }, o, 0)
  else if set = 4 then
    let ys := (List.range (xs.length / 2 ^ osr)).map fun j => xs.getD (2 ^ osr * j) 0
    let (y1, f1) := if osr = 2 then shiftStage sh1 ys else (ys, false)
    let (y2, f2) := if osr ≥ 1 then shiftStage sh2 y1 else (y1, false)
    let (y3, f3) := shiftStage sh3 y2
    let (o, q) := delayLine pad c.pad y3
    ({ pad := q }, o, bit f1 1 + bit f2 2 + bit f3 4)
  else
    let (h1, y1, f1) := if osr = 2 then runStage 31 set 0 sh1 2 c.h1 xs else (c.h1, xs, false)
    let (h2, y2, f2) := if osr ≥ 1 then runStage 31 set 1 sh2 2 c.h2 y1 else (c.h2, y1, false)
    let (h3, y3, f3) := runStage 31 set (if osr = 0 then 2 else 3) sh3 1 c.h3 y2
    let (o, q) := delayLine pad c.pad y3
    ({ h1 := h1, h2 := h2, h3 := h3, pad := q }, o, bit f1 1 + bit f2 2 + bit f3 4)

/-- (1 − w) × old + w × new with w = (j + 1) / 2^k (R269). -/
def blend (k j : Nat) (old new : Word) : Word :=
  if 2 ^ k ≤ j then new
  else sat32 (quotient (((2 ^ k : Nat) - (j + 1 : Nat) : Int) * old.toInt + ((j + 1 : Nat) : Int) * new.toInt) (2 ^ k))

/-- Blend two blocks from sample `j` of a crossfade on. -/
def blendAll (k j : Nat) (old new : List Word) : List Word :=
  (List.range new.length).map fun i => blend k (j + i) (old.getD i 0) (new.getD i 0)

/-! ### Set changes (R269, R270) -/

/-- The fields of a lane's status register: base DCH_LSTATl or DCH_ISTATi. -/
def stCur (a : Nat) : Fld := ⟨a, 2, 0⟩
def stInc (a : Nat) : Fld := ⟨a, 5, 3⟩
def stXfade (a : Nat) : Fld := ⟨a, 6, 6⟩
def stQueued (a : Nat) : Fld := ⟨a, 9, 7⟩
def stQvalid (a : Nat) : Fld := ⟨a, 10, 10⟩
def stRej (a : Nat) : Fld := ⟨a, 20, 20⟩

/-- The requested set of a lane. -/
def requested (b : Block) (a : Nat) : Nat :=
  if b.on (stQvalid a) then b.get (stQueued a) else if b.on (stXfade a) then b.get (stInc a) else b.get (stCur a)

/-- k of a request: 0–3 act as 4, 11–15 as 10. -/
def fadeK (k : Nat) : Nat := min 10 (max 4 k)

/-- Decimation lane `l` and input lane `i`. -/
def laneOf (b : Block) (l : Nat) : Lane := FMap.get (fun _ => {}) b.mix.lanes l
def setLane (l : Nat) (x : Lane) (b : Block) : Block := { b with mix := { b.mix with lanes := FMap.set (fun _ => {}) b.mix.lanes l x } }
def inputOf (b : Block) (l : Nat) : Lane := FMap.get (fun _ => {}) b.mix.inputs l
def setInput (l : Nat) (x : Lane) (b : Block) : Block := { b with mix := { b.mix with inputs := FMap.set (fun _ => {}) b.mix.inputs l x } }

/-- Ask for a set (R269): refused when it is not enabled, queued when it differs from the requested one. Answers the set field that
the setup register then shows, the queued k when a request was made, and the block. -/
def askSet (a set k : Nat) (b : Block) : Nat × Option Nat × Block :=
  if set ≠ 7 ∧ !b.bit DCH_CFG_mask set then (requested b a, none, (b.put (stRej a) 1).flag DCH_IRQ_STAT_rej)
  else if set = requested b a then (set, none, b)
  else (set, some (fadeK k), (b.put (stQueued a) set).put (stQvalid a) 1)

/-- The queued request of a lane: its set and k. -/
def queuedOf (a : Nat) (x : Lane) (b : Block) : Option (Nat × Nat) := if b.on (stQvalid a) then some (b.get (stQueued a), x.qk) else none

/-- A request of cycle `t` with crossfade `k` is made; `old`: what was queued before it. -/
def Lane.ask (x : Lane) (old : Option (Nat × Nat)) (t k : Nat) : Lane :=
  { x with qk := k, askT := some t, held := if x.askT = some t then x.held else old }

/-- LANE_SET_REQUEST: a write of DCH_LCFGl (R269, R270). -/
def laneWrite (l : Nat) (v : Word) (b : Block) : Block :=
  let (set, k, b1) := askSet (DCH_LSTAT l) (bitsOf v.toNat 2 0) (bitsOf v.toNat 6 3) b
  let b2 := b1.setNum (DCH_LCFG l) ((v.toNat &&& 0x77778) + set)
  match k with
  | some k => setLane l ((laneOf b2 l).ask (queuedOf (DCH_LSTAT l) (laneOf b l) b) b.now k) b2
  | none => b2

/-- A write of DCH_ICFGi. -/
def inputWrite (i : Nat) (v : Word) (b : Block) : Block :=
  let (set, k, b1) := askSet (DCH_ISTAT i) (bitsOf v.toNat 2 0) (bitsOf v.toNat 6 3) b
  let b2 := b1.setNum (DCH_ICFG i) ((v.toNat &&& 0x78) + set)
  match k with
  | some k => setInput i ((inputOf b2 i).ask (queuedOf (DCH_ISTAT i) (inputOf b i) b) b.now k) b2
  | none => b2

/-- A crossfade whose last sample has been made ends (R269): the old set is dropped. -/
def fadeEnd (a : Nat) (x : Lane) (b : Block) : Option (Lane × Block) :=
  if b.on (stXfade a) ∧ 2 ^ x.xk ≤ x.xf then
    some ({ x with cur := x.inc, inc := {}, xf := 0 },
      (((b.put (stCur a) (b.get (stInc a))).put (stInc a) 0).put (stXfade a) 0).flag DCH_IRQ_STAT_xfade_done)
  else none

/-- CROSSFADE_DONE on a decimation lane, or on an input lane. -/
def crossfadeDone (l : Nat) (b : Block) : Block :=
  match fadeEnd (DCH_LSTAT l) (laneOf b l) b with | some (x, b1) => setLane l x b1 | none => b
def inputFadeDone (i : Nat) (b : Block) : Block :=
  match fadeEnd (DCH_ISTAT i) (inputOf b i) b with | some (x, b1) => setInput i x b1 | none => b

/-- At a pick boundary a queued request starts, or is discarded when it names the set in force (R269). One made in the boundary's own
cycle stays queued. `warm`: the state that the new set has on the samples that entered the lane before. -/
def fadeStart (a : Nat) (warm : Nat → Chain) (x : Lane) (b : Block) : Lane × Block :=
  let stays := decide (x.askT = some b.now)
  let x1 := { x with held := none }
  match if b.on (stXfade a) then none else if stays then x.held else queuedOf a x b with
  | none => (x, b)
  | some (q, k) =>
    let b1 := if stays then b else (b.put (stQvalid a) 0).put (stQueued a) 0
    if q = b.get (stCur a) then (x1, b1)
    else ({ x1 with inc := warm q, xf := 0, xk := k }, (b1.put (stInc a) q).put (stXfade a) 1)

/-! ### The lanes over a pick -/

/-- Lane `l` over the chip bus words `xs` of a pick (R266–R270). -/
def runLane (l : Nat) (xs : List Word) (b : Block) : Block :=
  let a := DCH_LSTAT l
  let b0 := crossfadeDone l b
  let x0 := laneOf b0 l
  let x1 := { x0 with sh1 := b0.get (DCH_LCFG_sh1 l), sh2 := b0.get (DCH_LCFG_sh2 l), sh3 := b0.get (DCH_LCFG_sh3 l) }
  let osr := b0.tbu.osr
  let run (set : Nat) (c : Chain) (ys : List Word) := runSet set osr (padA b0 set) x1.sh1 x1.sh2 x1.sh3 c ys
  let (x2, b1) := fadeStart a (fun q => (run q {} x1.past.reverse).1) x1 b0
  let (c, y, m) := run (b1.get (stCur a)) x2.cur xs
  let (out, x3, mask) :=
    if b1.on (stXfade a) then
      let (c', y', m') := run (b1.get (stInc a)) x2.inc xs
      (blendAll x2.xk x2.xf y y', { x2 with cur := c, inc := c', xf := x2.xf + y.length }, m ||| m')
    else (y, { x2 with cur := c }, m)
  let x4 := { x3 with out := out, older := (x0.out :: x0.older).take 18, past := (xs.reverse ++ x3.past).take 256 }
  let b2 := setLane l x4 b1
  if mask = 0 then b2 else (b2.put (DCH_LSTAT_sat l) (b2.get (DCH_LSTAT_sat l) ||| mask)).flag DCH_IRQ_STAT_sat

/-- The chip stage and the chain at the start of pick n + 1 (R264, R266): every lane takes its chip bus of pick `n`. -/
def mixPick (n : Nat) (late : List Nat) (b : Block) : Block :=
  let fs := factors b late
  let lanes := (List.range 256).foldl (fun acc c => runLane c (chipBus b fs n c) acc) b
  chipDone n late lanes

/-! ### Input lanes (R271) -/

/-- Zero-stuffing by two with a gain of two, and a stage. -/
def stuffStage (set part : Nat) (h xs : List Word) : List Word × List Word × Bool :=
  runStage 30 set part 0 1 h (xs.flatMap fun x => [x, 0])

/-- The mirror of a set over the frames of a pick (R271): internal samples, padded. -/
def runMirror (set osr pad : Nat) (c : Chain) (xs : List Word) : Chain × List Word × Bool :=
  if set = 7 then
    let (o, q) := delayLine pad c.pad (List.replicate (xs.length * 2 ^ osr) 0)
    ({ pad := q }, o, false)
  else if set = 4 then
    let (o, q) := delayLine pad c.pad (xs.flatMap fun x => List.replicate (2 ^ osr) x)
    ({ pad := q }, o, false)
  else
    let (h3, y3, f3) := runStage 31 set (if osr = 0 then 2 else 3) 0 1 c.h3 xs
    let (h2, y2, f2) := if osr ≥ 1 then stuffStage set 1 c.h2 y3 else (c.h2, y3, false)
    let (h1, y1, f1) := if osr = 2 then stuffStage set 0 c.h1 y2 else (c.h1, y2, false)
    let (o, q) := delayLine pad c.pad y1
    ({ h1 := h1, h2 := h2, h3 := h3, pad := q }, o, f1 || f2 || f3)

/-- Input lane `i` over the frames `xs`, written to every loom's block of pick `n` (R257, R271). -/
def runInput (i n : Nat) (xs : List Word) (b : Block) : Block :=
  let a := DCH_ISTAT i
  let b0 := inputFadeDone i b
  let osr := b0.tbu.osr
  let run (set : Nat) (c : Chain) (ys : List Word) := runMirror set osr (padA b0 set * 2 ^ osr) c ys
  let x1 := inputOf b0 i
  let (x2, b1) := fadeStart a (fun q => (run q {} x1.past.reverse).1) x1 b0
  let (c, y, m) := run (b1.get (stCur a)) x2.cur xs
  let (out, x3, sat) :=
    if b1.on (stXfade a) then
      let (c', y', m') := run (b1.get (stInc a)) x2.inc xs
      -- the crossfade counts output samples: 2^osr internal ones each
      let blended := (List.range y.length).map fun j => blend x2.xk (x2.xf + j / 2 ^ osr) (y.getD j 0) (y'.getD j 0)
      (blended, { x2 with cur := c, inc := c', xf := x2.xf + xs.length }, m || m')
    else (y, { x2 with cur := c }, m)
  let b2 := setInput i { x3 with past := (xs.reverse ++ x3.past).take 256 } b1
  let bytes := out.flatMap fun w => leBytes 4 w.toNat
  let N := b2.nInt
  let b3 := (List.range 4).foldl (fun acc l =>
    { acc with mem := Memory.setBytes acc.mem (loomBase l + 2048 * N + 512 * N * (n % 2) + 4 * N * i) bytes }) b2
  if sat then (b3.put (DCH_ISTAT_sat i) 1).flag DCH_IRQ_STAT_in_sat else b3

/-- The frames (n − 2) × P to (n − 1) × P − 1 received on a channel, oldest first, when frame n × P has just been received. -/
def inputFrames (b : Block) (i : Nat) : List Word :=
  let l := FMap.get (fun _ => []) b.mix.recv i
  (List.range b.pick).map fun j => l.getD (2 * b.pick - j) 0

/-- The input blocks of pick `n` (R271). -/
def inputPick (n : Nat) (b : Block) : Block :=
  if b.on DCH_CFG_inputs then (List.range 128).foldl (fun acc i => runInput i n (inputFrames acc i) acc) b else b

/-- A frame's word of input channel `i` arrives at the reference port. -/
def receiveWord (i : Nat) (w : Word) (b : Block) : Block :=
  if b.on DCH_CFG_inputs then
    { b with mix := { b.mix with recv := FMap.set (fun _ => []) b.mix.recv i ((w :: FMap.get (fun _ => []) b.mix.recv i).take 192) } }
  else b

/-- A lane sample in Q1.31: a saturating left shift of 4 (R266). -/
def toQ31 (x : Word) : Word := sat32 (x.toInt * 16)

/-! ### The coefficient ROM (R267) -/

/-- The coefficient at the index of DCH_CROM_ADDR, which advances (R267). -/
def cromRead (b : Block) : Word × Block :=
  let k := b.get DCH_CROM_ADDR_index
  (coefAt (k / 1024) (k / 256 % 4) (k % 256), b.put DCH_CROM_ADDR_index (k + 1))

/-- Apply the lane setups of a CHAIN section (R270, R274): each lane's set is in force at once, without a crossfade. -/
def applyChain (s : List Byte) (b : Block) : Block :=
  let b1 := b.setNum DCH_CFG ((numAt s 0 4 &&& 0x1FF) ||| 0x80)
  let b2 := (List.range 256).foldl (fun acc l =>
    let v := numAt s (0x10 + 4 * l) 4 &&& 0x7777F
    let a1 := (acc.setNum (DCH_LCFG l) v).put (DCH_LSTAT_cur l) (v % 8)
    setLane l { sh1 := bitsOf v 10 8, sh2 := bitsOf v 14 12, sh3 := bitsOf v 18 16 } a1) b1
  let b3 := (List.range 128).foldl (fun acc i =>
    let v := numAt s (0x410 + 4 * i) 4 &&& 0x7F
    (acc.setNum (DCH_ICFG i) v).put (DCH_ISTAT_cur i) (v % 8)) b2
  (List.range 128).foldl (fun acc c => acc.setNum (DCH_OUT c) (numAt s (0x610 + 4 * c) 4 &&& 0x1FF3)) b3

/-- The tails of every parameter area, at start-up and after a change of N (R259). -/
def writeTails (b : Block) : Block :=
  b.plan.foldl (fun acc e => ((List.range 4).filter fun l => e.on l).foldl (fun a l =>
    { a with mem := Memory.setBytes a.mem (loomBase l + parBase a l e.ix + 0x3F0) (parTail a l e) }) acc) b

/-- L_out and ceil(g) (R24), computed when the configuration is applied and after every rate change. -/
def computeLout (b : Block) : Block :=
  let g := gCeil b
  (b.put DCH_LOUT_gceil g).put DCH_LOUT_lout ((2 + b.get DCH_LOUT_d) * b.pick + g + 2)

end Sys2Proof.Machine
end

