-- ==== Sys2Proof/Machine/Cvo.lean ====
section
/-! DEFINITION. The control-voltage outputs (chapter 12). -/

namespace Sys2Proof.Machine

/-- A channel. -/
def cvChan (b : Block) (n : Nat) : CvChan := FMap.get (fun _ => {}) b.cvo.chans n
/-- Set a channel. -/
def setCvChan (n : Nat) (c : CvChan) (b : Block) : Block :=
  { b with cvo := { b.cvo with chans := FMap.set (fun _ => {}) b.cvo.chans n c } }

/-- The reversal of 6 bits (R294). -/
def bitrev6 (k : Nat) : Nat :=
  k % 2 * 32 + k / 2 % 2 * 16 + k / 4 % 2 * 8 + k / 8 % 2 * 4 + k / 16 % 2 * 2 + k / 32 % 2

/-- h_k (R294): the clocks for which the pin is high in period `k` at the duty value `u`. -/
def cvHigh (u k : Nat) : Nat := u / 64 + (if bitrev6 k < u % 64 then 1 else 0)

/-- A code as a duty value, and a duty value as a code, in a span (R295). -/
def cvDuty (bip : Bool) (c : Nat) : Nat := if bip then (c % 65536) ^^^ 0x8000 else c % 65536

/-- The code of an entry in a span (R296). -/
def CvEntry.code (e : CvEntry) (bip : Bool) : Nat :=
  if e.src = 0 then e.value.toNat % 65536
  else if bip then (BitVec.ofInt 16 (asr e.value.toInt 16)).toNat
  else (asr (max 0 e.value.toInt) 15).toNat

/-- The source that acts: the reserved code 3 acts as 0 (R296). -/
def cvSrc (b : Block) (n : Nat) : Nat := b.get (CVO_CH_CFG_src n) % 3

/-- Whether the clear codes are driven (R303, R304). -/
def cvClear (b : Block) : Bool := b.on CVO_STAT_clr_pin || b.on CVO_STAT_safe

/-- A value ignored for its source (R296). -/
def cvIgnored (b : Block) : Block := (b.bump CVO_CNT_ignored).flag CVO_IRQ_STAT_ignored

/-- A channel is enabled (R305): target and limiter output take the clear code, and updates are counted from here. -/
def cvEnable (n : Nat) (b : Block) : Block :=
  let bip := b.on (CVO_CH_CFG_span n)
  let d := cvDuty bip (b.get (CVO_CH_CLR_code n))
  setCvChan n { bip := bip, src := cvSrc b n, target := d, y := d, entries := (cvChan b n).entries.filter fun e => !e.good } b

/-- CVO_CHn_CFG is written: setting en starts the channel (R305). -/
def cvCfgWrite (n : Nat) (v : Word) (b : Block) : Block :=
  let was := b.on (CVO_CH_CFG_en n)
  let b1 := b.setNum (CVO_CH_CFG n) (v.toNat &&& 0xFF37)
  if !was && b1.on (CVO_CH_CFG_en n) then cvEnable n b1 else b1

/-- CVO_CHn_VAL is written (R299): the target changes at the next boundary; ignored for another source (R296). -/
def cvValWrite (n : Nat) (v : Word) (b : Block) : Block :=
  if cvSrc b n = 0 then
    setCvChan n { cvChan b n with val := some (v.toNat % 65536, v.getLsbD 16) } (b.put (CVO_CH_VAL_code n) (v.toNat % 65536))
  else cvIgnored b

/-- The span in force follows the register (R302). -/
def CvChan.reSpan (c : CvChan) (bip keep : Bool) : CvChan :=
  if c.bip = bip then c else { c with bip := bip, target := if keep then c.target else c.target ^^^ 0x8000 }

/-- A code becomes the target, with the bypass of R301. -/
def CvChan.aim (c : CvChan) (code : Nat) (bypass : Bool) : CvChan :=
  let d := cvDuty c.bip code
  { c with target := d, y := if bypass then d else c.y }

/-- An entry whose frame has been presented takes effect (R297, R298) if it came from the channel's source. -/
def CvChan.take (c : CvChan) (e : CvEntry) : CvChan := if e.good && e.src == c.src then c.aim (e.code c.bip) e.bypass else c

/-- Entries in the order in which they stand: by frame; on one frame a CV_SET comes after the voice offers (R297). -/
def CvEntry.before (x y : CvEntry) : Bool :=
  decide (x.frame < y.frame) || (x.frame == y.frame && (x.src != 0 || y.src == 0))

/-- The limiter's update (R301). -/
def CvChan.update (c : CvChan) (step : Nat) : CvChan :=
  let dist := max c.target c.y - min c.target c.y
  { c with due := false, y := if step = 0 ∨ dist ≤ step then c.target else if c.y < c.target then c.y + step else c.y - step }

/-- The clear code is driven (R303). -/
def CvChan.clear (c : CvChan) (code : Nat) : CvChan := { c with y := cvDuty c.bip code, due := false }

/-- The pin and CVO_CHn_OUT follow the channel. -/
def cvDrive (n : Nat) (c : CvChan) (b : Block) : Block :=
  let b1 := setCvChan n { c with high := if c.driven then cvHigh c.y b.cvo.k else 0 } b
  (b1.put (CVO_CH_OUT_out n) (cvDuty c.bip c.y)).put (CVO_CH_OUT_target n) (cvDuty c.bip c.target)

/-- A period of channel `n` begins (R294): span, source, entries, the register write, the count of updates, the clear code. The
common dither cycle moves with channel 0, the first of each period. -/
def cvPeriod (n : Nat) (b0 : Block) : Block :=
  let b := if n = 0 then { b0 with cvo := { b0.cvo with k := (b0.cvo.k + 1) % 64 } } else b0
  let c0 := cvChan b n
  let (due, rest) := c0.entries.partition fun e => decide (e.frame ≤ b.sample) && b.tbu.started
  let b1 := (due.filter fun e => !e.good).foldl (fun acc _ => cvIgnored acc) b
  if b.on CVO_STAT_applied && b.on (CVO_CH_CFG_en n) then
    let c1 := { c0 with entries := rest }.reSpan (b.on (CVO_CH_CFG_span n)) (b.on (CVO_CH_CFG_span_keep n))
    let c2 := { c1 with src := cvSrc b n, driven := true }
    let c3 := (sortBy CvEntry.before due).foldl CvChan.take c2
    let c4 := match c3.val with
      | some (code, bypass) => if c3.src = 0 then { c3.aim code bypass with val := none } else { c3 with val := none }
      | none => c3
    let last := b.get (CVO_CH_SLEW_interval n) ≤ c4.count
    let c5 := { c4 with count := if last then 0 else c4.count + 1, due := last }
    cvDrive n (if cvClear b then c5.clear (b.get (CVO_CH_CLR_code n)) else c5) b1
  else setCvChan n { c0 with entries := rest, driven := false, high := 0, due := false, val := none } b1

/-- The update of channel `n` that its period has made due (R301). -/
def cvSlew (n : Nat) (b : Block) : Block :=
  let c := cvChan b n
  if c.due then cvDrive n (c.update (b.get (CVO_CH_SLEW_step n))) b else b

/-- CV_CLR_N counts as asserted, or as released (R303). -/
def cvClearPin (low : Bool) (b : Block) : Block :=
  if low == b.on CVO_STAT_clr_pin then b
  else (b.put CVO_STAT_clr_pin (if low then 1 else 0)).flag (if low then CVO_IRQ_STAT_clr else CVO_IRQ_STAT_clr_rel)

/-- An engine safe state begins or ends (R304). -/
def cvSafe (on : Bool) (b : Block) : Block := b.put CVO_STAT_safe (if on then 1 else 0)

/-- An entry joins the block of channel `n`; a later entry of the same source on the same frame replaces an earlier one. -/
def cvPush (n : Nat) (e : CvEntry) (b : Block) : Block :=
  let c := cvChan b n
  setCvChan n { c with entries := (c.entries.filter fun x => !(x.frame == e.frame && x.src == e.src)) ++ [e] } b

/-- The effect of a released CV_SET (R297): entry o of the block of the pick in progress, or one that is discarded at its presentation for the
channel's source (R296). -/
def cvSet (x : Timed) (b : Block) : Block :=
  let n := x.ev.index % 32
  if b.on (CVO_CH_CFG_en n) || cvSrc b n != 0 then
    cvPush n { frame := b.pickNo * b.pick + b.lOut + x.offset, src := 0, value := BitVec.ofNat 32 (x.ev.bits 15 0), bypass := x.ev.oflags % 2 == 1
               good := cvSrc b n == 0 } b
  else b

/-- The voice offers of pick `n` (R297), made into blocks when the pick has ended: on one entry the offer of the voice with the latest
start frame stands, of equals the highest voice (R202). -/
def cvOffers (n : Nat) (b : Block) : Block :=
  let key (o : CvOffer) : List Nat := [o.sub, o.startFrame, o.voice]
  let mine := sortBy (fun x y => lexLe (key x) (key y)) (b.dlr.offers.filter fun o => o.pick == n)
  let b1 := mine.foldl (fun acc o =>
    if acc.on (CVO_CH_CFG_en o.chan) && cvSrc acc o.chan == 1 then
      cvPush o.chan { frame := n * acc.pick + acc.lOut + 8 * o.sub / acc.osr, src := 1, value := o.value, bypass := false, good := true } acc
    else acc) b
  { b1 with dlr := { b1.dlr with offers := b1.dlr.offers.filter fun o => o.pick != n } }

/-- The lane samples of the pick boundary of frame `m × P` (R298): the block's frames begin at (m + 1 + D) × P + 2, pad_w (R268)
delaying them by D × P. -/
def cvLanes (m : Nat) (b : Block) : Block :=
  let base := (m + 1 + b.get DCH_LOUT_d) * b.pick + 2
  (List.range 32).foldl (fun acc n =>
    if acc.on (CVO_CH_CFG_en n) && cvSrc acc n == 2 then
      let xs := (laneOf acc (acc.get (CVO_CH_CFG_lane n))).out
      (List.range xs.length).foldl (fun a i =>
        cvPush n { frame := base + i, src := 2, value := toQ31 (xs.getD i 0), bypass := false, good := true } a) acc
    else acc) b

/-- Apply a CVO section (R305, R306). -/
def applyCvo (s : List Byte) (b : Block) : Block :=
  let b1 := (b.setNum CVO_IRQ_EN (numAt s 0 4 % 8)).flag CVO_STAT_applied
  (List.range 32).foldl (fun acc n =>
    let o := 0x10 + 16 * n
    let a1 := ((acc.setNum (CVO_CH_CFG n) (numAt s o 4 &&& 0xFF37)).setNum (CVO_CH_SLEW n) (numAt s (o + 4) 4 % 2 ^ 24)).setNum
      (CVO_CH_CLR n) (numAt s (o + 8) 2)
    if a1.on (CVO_CH_CFG_en n) then cvEnable n a1 else setCvChan n {} a1) b1

/-- The checks of a CVO section (R306), given the CHAIN section. -/
def cvoOk (s chain : List Byte) : Bool :=
  s.length == 528 && decide (numAt s 0 4 < 8) && zeros s 4 12 &&
  (List.range 32).all fun n =>
    let o := 0x10 + 16 * n
    let cfg := numAt s o 4
    cfg &&& 0xFF37 == cfg && bitsOf cfg 5 4 != 3 && decide (numAt s (o + 4) 4 < 2 ^ 24) && decide (numAt s (o + 8) 4 < 65536) && zeros s (o + 12) 4 &&
    (bitsOf cfg 5 4 != 2 || numAt chain (0x10 + 4 * bitsOf cfg 15 8) 4 % 8 != 7)

end Sys2Proof.Machine
end

