-- ==== Sys2Proof/Machine/Ledger.lean ====
section
/-! DEFINITION. The ledgers at a pick boundary: the power governor (R413), the derate factors (R100), the capacities (R21, R99, R102) and
shedding (R98, R103, R134, R430). -/

namespace Sys2Proof.Machine

/-- The energy class of a program (R233, R234). -/
def progClass (b : Block) (prog : Nat) : Nat :=
  if prog < 64 then romClass prog
  else match b.vcodeRec prog with
    | none => 0
    | some o => byteAt (b.sect 9) (o + 2)

/-- The programs that the image's layers, MIX plan and LEGACY section name (R413). -/
def namedPrograms (b : Block) : List Nat :=
  ((List.range 4096).flatMap fun p => ((b.layers p).getD []).map (·.prog)) ++ (b.plan.map (·.prog)) ++
    (if b.get LEG_CTL_en = 0 then [] else [3])

/-- c_max (R413). -/
def cMax (b : Block) : Nat := (namedPrograms b).foldl (fun m p => max m (progClass b p)) 0

/-- The values of PWR_ILIM and PWR_GOV as they act (R413): amperes × 10, and the efficiency in 1/1,024. -/
def ilimOf (v : Nat) : Nat := min 40 (max 5 v)
def etaOf (v : Nat) : Nat := max 512 v

/-- floor(1024 × clamp(g, 0, 1)) (R413) at `v` mV: 1024 × g is (eta × V × ilim − 512,000 × base) / (10 × n_load × e_max) with PWR_ILIM's
and PWR_GOV's units. With no load shuttle left the quotient is open. -/
def govTarget (b : Block) (v cmax : Nat) : Nat :=
  let num : Int := (etaOf (b.pwr.gov % 1024) * v * ilimOf (b.pwr.ilim % 64) : Nat) - (512000 * (b.pwr.gov / 65536 % 256) : Nat)
  let den : Int := 10 * ((128 : Int) - b.get REL_STAT_retired) * (28 + 6 * cmax)
  let g : Int := if 0 < den then num / den else Config.governorIdle num
  (min 1024 (max 0 g)).toNat

/-- PWR_ILIM and PWR_GOV as a boundary now takes them: what this cycle has written waits for the next (R414). -/
def govSettings (b : Block) : Nat × Nat :=
  if b.pwr.setT = some b.now then (b.pwr.ilimWas, b.pwr.govWas) else (b.num PWR_ILIM, b.num PWR_GOV)

/-- A write of PWR_ILIM or PWR_GOV is at hand. -/
def noteGovWrite (b : Block) : Block :=
  let v := govSettings b
  { b with pwr := { b.pwr with setT := some b.now, ilimWas := v.1, govWas := v.2 } }

/-- The governor at a pick boundary (R413, R414): it may fall at once and rises by at most 16/1024; before any VIN is measured it
stands. The values of PWR_ILIM and PWR_GOV written before the boundary come into force. -/
def governor (b : Block) : Block :=
  let v := govSettings b
  let b1 := { b with pwr := { b.pwr with ilim := v.1, gov := v.2 } }
  let c := cMax b1
  let b2 := b1.put PWR_GOVSTAT_c_max c
  match b1.pwr.vinPick with
  | none => b2
  | some v => b2.put PWR_GOVSTAT_d_gov (min (govTarget b1 v c) (b.get PWR_GOVSTAT_d_gov + 16))

/-- Core phases that work (R416). -/
def phasesOk (b : Block) : Nat := ((List.range 4).filter fun i => b.bit PWR_STAT_phase_ok i).length
/-- d_power × 1024 (R413, R416, R420). -/
def dPower (b : Block) : Nat := min (b.get PWR_GOVSTAT_d_gov) (min (256 * phasesOk b) (if b.pwr.hot then 512 else 1024))
/-- d_thermal × 1024 of a sensor (R418): its level in force since the last boundary. -/
def dThermal (b : Block) (s : Nat) : Nat :=
  match FMap.get (fun _ => 0) b.pwr.levels s with
  | 0 => 1024
  | 1 => 768
  | _ => 512
/-- Retired shuttles of a harness. -/
def retiredIn (b : Block) (h : Nat) : Nat := ((List.range 5).filter fun k => retired b (5 * h + k)).length
/-- A temperature sensor. -/
def sensorOf (b : Block) (s : Nat) : Sensor := FMap.get (fun _ => {}) b.pwr.sensors s
/-- d × 1024 of a harness (R21, R100). -/
def derate (b : Block) (h : Nat) : Nat :=
  min (min (dThermal b (h / 8)) (dThermal b 4)) (min (dPower b) (min (256 * (4 - retiredIn b h)) (b.get TBU_REF_STAT_d_rate)))
/-- d_bw × 1024 (R102). -/
def derateBw (b : Block) : Nat := min (dPower b) (min (b.get TBU_REF_STAT_d_rate) (dThermal b 4))

/-- A of harness `h` (R21): K − H_steal − R_event − B_h. -/
def capacity (b : Block) (h : Nat) : Int :=
  (capK b h : Int) - hSteal b - (eMax b * 180 : Nat) - (ceilDiv (busLoad b (h / 8)) 8 : Nat)

/-- DLR_BW_CFG.frac as it acts: 0 acts as 768. -/
def bwFrac (b : Block) : Nat := let v := b.get DLR_BW_CFG_frac; if v = 0 then 768 else v
/-- W_c (R102) in bytes per channel and pick. -/
def bandwidth (b : Block) : Int :=
  ((derateBw b * bwFrac b * 4 * b.num DRC_TEFF * 1000000 * b.pick / (1024 * 1024 * b.fs) : Nat) : Int) -
    (1024 * b.get DLR_BW_CFG_rsv : Nat)

/-- The capacities at a pick boundary (R99): the factors show in DLR_HINFO and DLR_DERATE, A in DLR_HCAP. -/
def recompute (b : Block) : Block :=
  let lv := (List.range 5).map fun s => (s, (sensorOf b s).level)
  let b1 := governor { b with pwr := { b.pwr with levels := FMap.setAll (fun _ => 0) [] lv } }
  let b2 := (b1.put DLR_DERATE_d_power (dPower b1)).put DLR_DERATE_d_bw (derateBw b1)
  let b3 := (List.range 32).foldl (fun acc h =>
    let a1 := (acc.put (DLR_HINFO_d h) (derate acc h)).put (DLR_HINFO_retired h) (retiredIn acc h)
    a1.put (DLR_HCAP_A h) (BitVec.ofInt 32 (capacity a1 h)).toNat) b2
  { b3 with alc := { b3.alc with wc := bandwidth b3, fixedBytes := dvBytes b3 } }

/-- After a rate change every voice's cost and bytes are those at the N in force (R33, R98). -/
def recost (b : Block) : Block :=
  { b with alc := { b.alc with voices := b.alc.voices.map fun kv =>
      (kv.1, { kv.2 with cost := b.voiceCost kv.2.prog b.nInt, bytes := b.tmplBytes kv.2.prog kv.2.template })
                               bMax := b.maxTmplBytes } }

/-! ### Shedding -/

/-- A victim of shedding (R103, R134): a booked voice is dropped, another fades; it is counted. -/
def shedVoice (v : Nat) (b : Block) : Block :=
  let b1 := endVictim v b
  (b1.bump VAL_CNT2_shed).flag DLR_IRQ_STAT_shed

/-- Victims in order (R123, R134) among the voices in the admitted sums that `f` allows: unprotected parts first. -/
def shedOrder (b : Block) (f : Nat → Bool) : List Nat :=
  let vs := ((voicesOf b).filter fun kv => kv.2.charged && f kv.1).map (·.1)
  let sorted := sortBy (fun x y => lexLe (rankKey b x) (rankKey b y)) vs
  (sorted.filter fun v => !(b.part (b.voice v).part).prot) ++ sorted.filter fun v => (b.part (b.voice v).part).prot

/-- Take victims in order while a test holds. -/
def shedWhile (exceeds : Block → Bool) (l : List Nat) (b : Block) : Block :=
  l.foldl (fun acc v => if exceeds acc then shedVoice v acc else acc) b

/-- Whether a harness is over its capacity. -/
def harnessOver (h : Nat) (b : Block) : Bool :=
  decide (0 < admittedVoices b h ∧ capA b h < (admitted b h : Int))
/-- Whether a channel is over its capacity: voices in the sums charge more than W_c leaves beside the legacy windows. -/
def channelOver (b : Block) : Bool := decide (0 < chBytes b ∧ b.alc.wc < ((chBytes b + b.alc.fixedBytes : Nat) : Int))

/-- Shedding at a pick boundary (R98, R103): voices whose program is unsupported, then each harness over A, then the channels, whose victims are voices that charge bytes. -/
def shed (b : Block) : Block :=
  let b1 := (shedOrder b fun v => (admitCost b (b.voice v).prog).isNone).foldl (fun acc v => shedVoice v acc) b
  let b2 := (List.range 32).foldl (fun acc h => shedWhile (harnessOver h) (shedOrder acc fun v => v / 256 == h) acc) b1
  shedWhile channelOver (shedOrder b2 fun v => decide (0 < (b2.voice v).bytes)) b2

end Sys2Proof.Machine
end

