-- ==== Sys2Proof/Machine/Mailbox.lean ====
section
/-! DEFINITION. The mailbox hardware (R399–R402): issue, claim, completion, cancel. -/

namespace Sys2Proof.Machine

/-- Where the command block and result slot `s` lie (R399). -/
def mbCommandBase : Nat := 0x103C0000
def mbResultBase (s : Nat) : Nat := 0x103E0000 + 0x10000 * s

/-- Set the mailbox command in progress. -/
def setMb (m : Option MbCmd) (b : Block) : Block := { b with sys := { b.sys with mb := m } }

/-- The completion point of the command in progress (R399, R400): the result goes into the slot that does not hold the current
one, then seq, slot and ready change together. -/
def mbFinish (status : Nat) (result : List Byte) (b : Block) : Block :=
  match b.sys.mb with
  | none => b
  | some m =>
    let s := 1 - b.get XCH_MB_STAT_slot
    let block := leBytes 2 m.seq ++ leBytes 2 m.op ++ leBytes 2 status ++ leBytes 2 0 ++ leBytes 4 result.length ++
      List.replicate 52 0 ++ result
    let b1 := setMb none { b with mem := Memory.setBytes b.mem (mbResultBase s) block }
    ((((b1.put XCH_MB_STAT_seq m.seq).put XCH_MB_STAT_slot s).put XCH_MB_STAT_busy 0).put XCH_MB_STAT_ready 1).flag XCH_IRQ_STAT_ready

/-- XCH_MB_CTL.go (R400, R401): the header is latched; during an MP reset the hardware completes the command with BUSY at once. -/
def mbGo (b : Block) : Block :=
  if b.on XCH_MB_STAT_busy then b.put XCH_MB_STAT_ovr 1
  else
    let c := mbCommandBase
    let m : MbCmd := { seq := Memory.num b.mem c 2, op := Memory.num b.mem (c + 2) 2, len := Memory.num b.mem (c + 4) 4 }
    let b1 := setMb (some m) (((b.put XCH_MB_STAT_ready 0).put XCH_MB_STAT_busy 1).put XCH_MB_STAT_abort_late 0)
    if b1.sys.mpDown then mbFinish 1 [] b1 else b1

/-- XCH_MB_CTL.cancel (R402): it waits for the firmware's next safe point; at or after the completion point it is late. -/
def mbCancel (b : Block) : Block :=
  match b.sys.mb with
  | none => b.put XCH_MB_STAT_abort_late 1
  | some m => setMb (some { m with cancel := true }) b

/-- A write of XCH_MB_CTL. -/
def mbCtl (v : Word) (b : Block) : Block :=
  let b1 := if v.toNat % 2 = 1 then mbGo b else b
  if v.toNat / 2 % 2 = 1 then mbCancel b1 else b1

/-- COMMAND_CLAIM (R401): the firmware takes the command while it is busy and not completed. -/
def mbClaim (b : Block) : Block :=
  match b.sys.mb with
  | none => b
  | some m => if b.sys.mpDown then b else setMb (some { m with claimed := true }) b

/-- The command has not been taken within XCH_MB_CFG.tmo (R401). -/
def mbTimeout (b : Block) : Block :=
  match b.sys.mb with
  | none => b
  | some m => if m.claimed then b else mbFinish 1 [] b

/-- Payload bytes of the command. -/
def mbPayload (b : Block) (off n : Nat) : List Byte := memBytes b (mbCommandBase + 0x40 + off) n
/-- A payload number. -/
def mbArg (b : Block) (off n : Nat) : Nat := leNat (mbPayload b off n)

/-- The result of a cancelled command (R402): the work done, which flash and load commands count. -/
def mbCancelled (m : MbCmd) (work : Nat) (b : Block) : Block :=
  mbFinish 2 (if m.op = 0x51 ∨ m.op = 0x10 then leBytes 4 work else []) b

/-- The claimed command, when its opcode lies between `lo` and `hi` and the firmware runs. -/
def mbTaken (b : Block) (lo hi : Nat) : Option MbCmd :=
  b.sys.mb.filter fun m => m.claimed && decide (lo ≤ m.op ∧ m.op ≤ hi) && !b.sys.mpDown

/-- Execute a claimed command with an opcode between `lo` and `hi` (R402): in recovery all but the repair commands answer RECOVERY
(R387). `f` answers the status, the result and the block. A cancel that waits at the start ends it before any work. -/
def mbExec (lo hi : Nat) (repair : Bool) (f : Block → Nat × List Byte × Block) (b : Block) : Block :=
  match mbTaken b lo hi with
  | none => b
  | some m =>
    if b.on SYS_STAT_recovery && !repair then mbFinish 8 [] b
    else if m.cancel then mbCancelled m 0 b
    else if 131008 < m.len then mbFinish 4 [] b
    else let (st, r, b1) := f b; mbFinish st r b1

end Sys2Proof.Machine
end

