-- ==== Sys2Proof/Machine/Pool.lean ====
section
/-! DEFINITION. Passing notes through a pool (R136–R139). -/

namespace Sys2Proof.Machine

/-- Set the list of pooled notes. -/
def setPooled (l : List Pooled) (b : Block) : Block := { b with alc := { b.alc with pooled := l } }

/-- Booking lead of a pool in picks: ceil(H_pass / P) (R137). -/
def bookingLead (b : Block) (p : Nat) : Nat := ceilDiv (FMap.get (fun _ => 0) b.alc.horizon p) b.pick

/-- Whether a delayed event is a NOTE_ON of a pool part whose booking pick is `n`; its target pick (R137). -/
def booksAt (b : Block) (n : Nat) (x : Timed) : Option Nat :=
  let p := poolOf b x.ev.part
  if x.ev.op = 1 ∧ x.ev.kind = 0 ∧ p ≠ 0 ∧ !x.held then
    match x.frame.bind (targetPick b) with
    | some nt => if nt = n + bookingLead b p ∧ n < nt then some nt else none
    | none => none
  else none

/-- The notes whose booking pick is `n` are offered to the allocator (R137); those that match no layer are left to their own pick. -/
def markBookings (n : Nat) (b : Block) : Block :=
  b.efe.delayed.foldl (fun acc x =>
    match booksAt b n x with
    | some nt =>
      let ls := matching b x.ev.part x.ev.key (x.ev.bits 15 0)
      if ls.isEmpty then acc
      else setPooled (acc.alc.pooled ++ [{ ev := x, nt := nt, nb := n, left := ls.map (·.1), booked := [], booking := true }]) acc
    | none => acc) b

/-- The layers of a note with these indices. -/
def layersIn (ls : List (Nat × Layer)) (keep : List Nat) : List (Nat × Layer) := ls.filter fun il => keep.contains il.1

/-- Whether the note of a MONO or LEGATO part sounds or is booked, so that a NOTE_ON starts no voice (R132). -/
def monoBusy (b : Block) (p : Nat) : Bool :=
  (b.part p).mode != 0 && ((soundingNote b p).isSome || (partNotes b p).any fun kn => kn.2.booked)

/-- What a booking came to: the layers placed, and the number of the note that holds them. -/
structure Booked where
  placed : List Nat
  note : Option Nat
  blk : Block

/-- Book the layers `keep` of a note without stealing (R137, R138): the note, its target pick and offset. -/
def bookNote (nt : Note) (ext : EvExt) (pick offset : Nat) (keep : List Nat) (b : Block) : Booked :=
  if !admissionOpen b || monoBusy b nt.part then { placed := [], note := none, blk := b }
  else
    let (k, b1) := newNote { nt with booked := true } b
    let (placed, b2) := planNote k nt ext pick offset true (layersIn (matching b1 nt.part nt.key nt.vel) keep) b1
    if placed.isEmpty then { placed := [], note := none, blk := b2.setNote k none } else { placed := placed, note := some k, blk := b2 }

/-- A mask of layers, and back. -/
def maskOf (l : List Nat) : Nat := sumNat (l.map fun i => 2 ^ i)
def unmask (m : Nat) : List Nat := (List.range 8).filter fun i => m.testBit i

/-- The fields of a PASS frame for a pooled note of this node. -/
def passMsg (b : Block) (q : Pooled) (left : List Nat) : PassMsg :=
  { tag := BitVec.ofNat 16 q.ev.stamp, origin := Fin.ofNat 1024 (nodeId b), part := BitVec.ofNat 8 q.ev.ev.part
    key := BitVec.ofNat 8 q.ev.ev.key, noteId := BitVec.ofNat 8 (q.ev.ev.bits 23 16), layers := BitVec.ofNat 8 (maskOf left)
    vel := BitVec.ofNat 16 (q.ev.ev.bits 15 0), pool := BitVec.ofNat 8 (poolOf b q.ev.ev.part), t := BitVec.ofNat 64 (q.ev.frame.getD 0) }

/-- The start offset of presentation frame `f` in pick `nt`. -/
def offsetIn (b : Block) (f nt : Nat) : Nat := f - b.lOut - nt * b.pick

/-- A pooled note without its entry: its NOTE_ON is decided, or is to be decided, at its own pick. -/
def unpool (stamp : Nat) (b : Block) : Block := setPooled (b.alc.pooled.filter fun r => r.ev.stamp != stamp) b

/-- BOOKING (R137, R138): the first note awaiting it is decided without stealing; what is not placed is passed to the next member. A
NOTE_ON for a MONO or LEGATO part whose note sounds starts no voice (R132) and is left to its own pick. -/
def booking (b : Block) : Block :=
  match b.alc.pooled.find? (·.booking) with
  | none => b
  | some q =>
    if monoBusy b q.ev.ev.part then unpool q.ev.stamp b
    else
      let f := q.ev.frame.getD 0
      let r := bookNote (noteOf q.ev) q.ev.ev.ext q.nt (offsetIn b f q.nt) q.left b
      let left := q.left.filter fun i => !r.placed.contains i
      let q' := { q with booking := false, left := left, booked := r.placed, note := r.note, passed := !left.isEmpty }
      let b2 := setPooled (r.blk.alc.pooled.map fun r => if r.ev.stamp = q.ev.stamp then q' else r) r.blk
      if left.isEmpty then b2
      else wsend (.pass (nextMember b2 (poolOf b2 q.ev.ev.part) (nodeId b2)) 0 (passMsg b2 q left)) (b2.bump VAL_CNT3_pass_out)

/-- One voice of a booked note starts in its target pick (R137): in its own context, or in the one that it takes over (R126). -/
def startVoice (nt : Note) (k k' v : Nat) (b : Block) : Block :=
  let x := b.voice v
  match x.next with
  | some s =>
    if s.note = k then
      let y := x.takes { s with note := k' } b
      dropEmptyNote x.note (queueStart v y nt true false (b.setVoice v y))
    else b
  | none =>
    if x.st = .booked ∧ x.note = k then
      let y := { x with st := .sounding, note := k', pKey := tablePitch b x.part x.key }
      queueStart v y nt false true (b.setVoice v y)
    else b

/-- The voices of booked note `k` start, and the note sounds from now on as the youngest. -/
def startVoices (k : Nat) (nt : Note) (b : Block) : Nat × Block :=
  let vs := noteVoices b k
  let (k', b1) := newNote { nt with booked := false } b
  (k', (vs.foldl (fun acc kv => startVoice nt k k' kv.1 acc) b1).setNote k none)

/-- The booking of note `k` is given up: its NOTE_ON starts no voice. -/
def unbook (k : Nat) (b : Block) : Block :=
  ((noteVoices b k).foldl (fun acc kv =>
    match kv.2.next with
    | some _ => acc.setVoice kv.1 { kv.2 with next := none }
    | none => freeVoice kv.1 acc) b).setNote k none

/-- The target pick of a booked note has come (R128, R132, R133, R137): in a MONO or LEGATO part whose note sounds by now it only pushes
its key; else it starts. -/
def bookedOn (k : Nat) (ext : EvExt) (o : Nat) (b : Block) : Option Nat × Block :=
  match b.note k with
  | none => (none, b)
  | some nt =>
    let busy := if (b.part nt.part).mode = 0 then none else soundingNote b nt.part
    match busy with
    | some (j, _) => (none, monoOn nt.part j nt.key nt.vel o ext (unbook k b))
    | none =>
      let template := ((noteVoices b k).head?.map fun kv => (kv.2.next.map (·.template)).getD kv.2.template).getD 0
      let (k', b1) := startVoices k nt (endSameId nt.part nt.noteId o b)
      (some k', holdKey nt.part nt.key nt.vel (setLastPitch nt.part nt.key template (attrOf ext) b1))

/-- At the release of n_t the origin acts on the answer (R139): what it has booked starts, and the layers that no member has placed are
decided as those of an ordinary NOTE_ON, in the same note. -/
def pooledOn (q : Pooled) (x : Timed) (b : Block) : Block :=
  let (k, b1) := match q.note with | some k => bookedOn k x.ev.ext x.offset b | none => (none, b)
  if q.left.isEmpty || q.answer == some true then b1
  else
    let b2 := b1.flag VAL_IRQ_STAT_exhausted
    let ls := layersIn (matching b2 x.ev.part x.ev.key (x.ev.bits 15 0)) q.left
    match k with
    | some k => if admissionOpen b2 then startLayers k (noteOf x) x ls b2 else b2
    | none =>
      -- booked voices that ended in the meantime leave an ordinary NOTE_ON, but for one that has only pushed its key
      if (q.note.bind b.note).isSome then b2
      else match (if (b2.part x.ev.part).mode = 0 then none else soundingNote b2 x.ev.part) with
        | some (j, _) => monoOn x.ev.part j x.ev.key (x.ev.bits 15 0) x.offset x.ev.ext b2
        | none => holdKey x.ev.part x.ev.key (x.ev.bits 15 0) (startNote x ls (endSameId x.ev.part (x.ev.bits 23 16) x.offset b2))

/-- NOTE_ON (R117, R139): a note that was booked acts on its answer; any other is decided now. -/
def noteOn (x : Timed) (b : Block) : Block :=
  match b.alc.pooled.find? fun q => q.ev.stamp == x.stamp && !q.booking with
  | some q => pooledOn q x (unpool x.stamp b)
  | none => noteOnAt x (unpool x.stamp b)

/-- The notes booked here for another node start with their pick (R137, R138); those of this node start at their NOTE_ON's release. -/
def startBooked (n : Nat) (b : Block) : Block :=
  b.alc.notes.foldl (fun acc kn =>
    match kn.2 with
    | none => acc
    | some nt =>
      let vs := noteVoices acc kn.1
      let due := vs.any fun kv => decide ((kv.2.next.map (·.startPick)).getD kv.2.startPick ≤ n)
      if nt.booked && due && !acc.alc.pooled.any (fun q => q.note == some kn.1) then
        (bookedOn kn.1 .none (offsetIn acc nt.startFrame n) acc).2
      else acc) b

/-- An answer to the origin: 1 PLACED, 2 EXHAUSTED. -/
def answerPass (m : PassMsg) (kind : Nat) (b : Block) : Block := wsend (.pass m.origin.val kind m) b

/-- A PASS frame reaches this node (R138, R350): a member decides it at its next pick boundary; any other answers EXHAUSTED. -/
def passArrives (m : PassMsg) (b : Block) : Block :=
  if poolHas b m.pool.toNat (nodeId b) then
    { b with alc := { b.alc with passIn := b.alc.passIn ++ [
      { origin := m.origin.val, pool := m.pool.toNat, tag := m.tag.toNat, part := m.part.toNat % 64, key := m.key.toNat % 128, vel := m.vel.toNat
        noteId := m.noteId.toNat, frame := m.t.toNat, layers := m.layers.toNat }] } }
  else answerPass m 2 b

/-- The PASS frame of a passed note, with the layers still unplaced. -/
def PassIn.msg (q : PassIn) (layers : Nat) : PassMsg :=
  { tag := BitVec.ofNat 16 q.tag, origin := Fin.ofNat 1024 q.origin, part := BitVec.ofNat 8 q.part, key := BitVec.ofNat 8 q.key
    noteId := BitVec.ofNat 8 q.noteId, layers := BitVec.ofNat 8 layers, vel := BitVec.ofNat 16 q.vel, pool := BitVec.ofNat 8 q.pool
    t := BitVec.ofNat 64 q.frame }

/-- A member decides one passed note at the boundary of pick `n` (R138). -/
def decideOne (n : Nat) (q : PassIn) (b : Block) : Block :=
  match targetPick b q.frame with
  | none => answerPass (q.msg q.layers) 2 b
  | some nt =>
    if nt ≤ n then answerPass (q.msg q.layers) 2 b
    else
      let note : Note := { part := q.part, key := q.key, noteId := q.noteId, vel := q.vel, src := 7, startFrame := q.frame }
      let r := bookNote note .none nt (offsetIn b q.frame nt) (unmask q.layers) b
      let left := maskOf ((unmask q.layers).filter fun i => !r.placed.contains i)
      let b2 := if r.placed.isEmpty then r.blk else r.blk.bump VAL_CNT3_pass_in
      if left = 0 then answerPass (q.msg 0) 1 b2
      else
        let next := nextMember b2 q.pool (nodeId b2)
        if next = q.origin then answerPass (q.msg left) 2 b2 else wsend (.pass next 0 (q.msg left)) b2

/-- The passed notes that wait are decided at the boundary of pick `n` (R138). -/
def decidePassed (n : Nat) (b : Block) : Block :=
  b.alc.passIn.foldl (fun acc q => decideOne n q acc) { b with alc := { b.alc with passIn := [] } }

/-- An answer reaches the origin (R139): it is kept for the release of n_t, with the layers still unplaced; later ones are discarded. -/
def passAnswered (tag : Nat) (placed : Bool) (layers : Nat) (b : Block) : Block :=
  setPooled (b.alc.pooled.map fun q =>
    if q.ev.stamp % 65536 = tag ∧ q.passed ∧ q.answer = none then
      { q with answer := some placed, left := if placed then [] else q.left.filter fun i => layers.testBit i }
    else q) b

end Sys2Proof.Machine
end

