-- ==== Sys2Proof/Machine/Weft.lean ====
section
/-! DEFINITION. The weft link (chapter 14): ports, enumeration, markers, frames, weft buses, the host tunnel, wrap and unwrap. The accesses
that a tunnel performs stand in RegBus.lean; boot frames in Startup.lean. -/

namespace Sys2Proof.Machine

/-- Set the weft unit. -/
def setWeft (f : Weft → Weft) (b : Block) : Block := { b with wft := f b.wft }

/-! ### Ports (R336, R351) -/

/-- The hop delay to the next node is measured (R339): a PROBE leaves on the primary. -/
def probe (b : Block) : Block :=
  wsend (.marker 3 (b.wft.probes % 2 ^ 52)) (setWeft (fun w => { w with probes := w.probes + 1 }) b)

/-- The root starts an enumeration (R338): an ENUM frame with count 0. -/
def enumStart (b : Block) : Block :=
  if isRoot b then wsend (.enumerate (b.num SEC_SERIAL) 0 [] false) (probe (setWeft (fun w => { w with enumerating := true }) b)) else b

/-- A port is UP (R336): 0 WA, 1 WB. The root enumerates the ring once its WB is UP (R338). -/
def portUp (p : Nat) (swap : Bool) (inv : Nat) (b : Block) : Block :=
  let was := b.get (WFT_PORT_STAT_state p)
  let b1 := ((b.put (WFT_PORT_STAT_state p) 2).put (WFT_PORT_STAT_swap p) (if swap then 1 else 0)).put (WFT_PORT_STAT_inv p) inv
  let b2 := if was = 2 then b1 else b1.flag WFT_IRQ_STAT_port
  if p = 1 ∧ was ≠ 2 ∧ !inRing b2 ∧ !b2.wft.enumerating then enumStart b2 else b2

/-- wrap_ok (R352). -/
def weftWrapOk (b : Block) : Block :=
  b.put WFT_STAT_wrap_ok (if inRing b ∧ ringPicks b (2 * nodeCount b - 1) ≤ b.wft.d then 1 else 0)

/-- The node wraps at a port, unless it does so already (R351); the hops are measured again. -/
def wrapAt (p : Nat) (b : Block) : Block :=
  if b.on (WFT_PORT_STAT_wrap p) then b
  else
    let b1 := ((b.put (WFT_PORT_STAT_wrap p) 1).put WFT_STAT_wrapped 1).put WFT_STAT_ring_wrapped 1
    weftWrapOk (probe ((b1.bump WFT_CNT_wraps).flag WFT_IRQ_STAT_wrap))

/-- A port goes DOWN and retrains, and FAULT markers leave on it (R336); the node wraps at it (R351). A port that never was UP shows no
change of state. -/
def portDown (p : Nat) (b : Block) : Block :=
  let b1 :=
    if b.get (WFT_PORT_STAT_state p) = 2 then
      setWeft (fun w => if p = 0 then { w with crcA := 0 } else { w with crcB := 0 })
        (wsend (.marker 5 0) ((b.put (WFT_PORT_STAT_state p) 1).flag WFT_IRQ_STAT_port))
    else b
  wrapAt p b1

/-- The wrapped ports that are UP return to ring operation (R353). -/
def unwrapNow (b : Block) : Block :=
  let up := fun p => b.on (WFT_PORT_STAT_wrap p) && b.get (WFT_PORT_STAT_state p) == 2
  let b1 := setWeft (fun w => { w with unwrapAt := none }) b
  if up 0 || up 1 then
    let b2 := (List.range 2).foldl (fun acc p => if up p then acc.put (WFT_PORT_STAT_wrap p) 0 else acc) b1
    let still := b2.on (WFT_PORT_STAT_wrap 0) || b2.on (WFT_PORT_STAT_wrap 1)
    probe ((if still then b2 else (b2.put WFT_STAT_wrapped 0).put WFT_STAT_ring_wrapped 0).flag WFT_IRQ_STAT_wrap)
  else if b1.on WFT_STAT_wrapped then b1 else b1.put WFT_STAT_ring_wrapped 0

/-- The root sends an UNWRAP command, naming the pick two ahead (R353). -/
def unwrapSend (b : Block) : Block :=
  if isRoot b then
    let n := b.pickNo + 2
    wsend (.unwrap n) (setWeft (fun w => { w with unwrapAt := some n }) (b.put WFT_CTL_unwrap 0))
  else b

/-- AUTO_UNWRAP (R353): with auto_unwrap set, once a wrapped port has been UP for 1 s. -/
def autoUnwrap (b : Block) : Block := if b.on WFT_CFG_auto_unwrap then unwrapSend b else b

/-- An UNWRAP command names pick `n` (R353). -/
def unwrapCommand (n : Nat) (b : Block) : Block := setWeft (fun w => { w with unwrapAt := some n }) b

/-- At the start of pick `n` an UNWRAP command takes effect (R353), and the CRC failures are counted anew (R336). -/
def weftPick (n : Nat) (b : Block) : Block :=
  let b1 := setWeft (fun w => { w with crcA := 0, crcB := 0, satPicks := w.satPicks.filter fun m => decide (n < m + 32) }) b
  match b1.wft.unwrapAt with
  | some m => if m ≤ n then unwrapNow b1 else b1
  | none => b1

/-! ### The way of a frame (R340, R351) -/

/-- Whether a frame comes on the secondary leg of a wrapped ring, where it is not processed: a node whose WA is wrapped sends what arrives
at its WB on its own primary (R351). -/
def onSecondary (h : WHdr) (b : Block) : Bool := h.leg && !b.on (WFT_PORT_STAT_wrap 0)

/-- A frame fails its CRC (R340); the fourth at a port within a pick takes the port down (R336). -/
def crcFail (h : WHdr) (b : Block) : Block :=
  let b1 := setWeft (fun w => if h.leg then { w with crcB := w.crcB + 1 } else { w with crcA := w.crcA + 1 }) (b.bump WFT_CNT_crc)
  if h.leg ∧ 4 ≤ b1.wft.crcB then portDown 1 b1
  else if !h.leg ∧ 4 ≤ b1.wft.crcA then portDown 0 b1
  else b1

/-- Something goes on with one hop less; with none left it is removed and counted (R340). -/
def hopOn (h : WHdr) (x : WSend) (b : Block) : Block := if h.ttl.toNat ≤ 1 then b.bump WFT_CNT_ttl else wsend x b

/-- A frame of class `cls` goes on as it came, but for its hops, its wrapped flag and, after an error, its CRC. -/
def frameOn (cls : Nat) (h : WHdr) (ok : Bool) (b : Block) : Block :=
  hopOn h (.passOn cls h.src.val h.dst.val (h.ttl.toNat - 1) h.bcast (h.wrapped || onSecondary h b) ok) b

/-- Whether a frame ends at this node (R340): at its destination, or, broadcast, at its source. -/
def endsHere (h : WHdr) (b : Block) : Bool :=
  inRing b && !onSecondary h b && (if h.bcast then h.src.val == nodeId b else h.dst.val == nodeId b)

/-- A frame whose CRC is wrong (R340): it is counted and not processed, and goes on with an inverted CRC unless it ends here. -/
def badCrc (cls : Nat) (h : WHdr) (b : Block) : Block :=
  if endsHere h b then crcFail h b else frameOn cls h false (crcFail h b)

/-- A frame of class `cls` comes (R340): `take` is what the node does with one that is for it. -/
def onFrame (cls : Nat) (h : WHdr) (take : Block → Block) (b : Block) : Block :=
  if !h.crcOk then badCrc cls h b
  else if onSecondary h b || !inRing b then frameOn cls h true b
  else if h.bcast then (if endsHere h b then b else frameOn cls h true (take b))
  else if endsHere h b then take b
  else frameOn cls h true b

/-- A frame with a reserved class or a nonzero reserved field (R340). -/
def badFrame (h : WHdr) (b : Block) : Block := if h.crcOk then b.bump WFT_CNT_bad else badCrc 3 h b

/-- WFT_CTL is written: re-enumeration and unwrap, which only the root performs. -/
def weftCtl (v : Word) (b : Block) : Block :=
  if isRoot b then
    let b1 := if v.getLsbD 0 then enumStart (b.flag WFT_CTL_reenum) else b
    if v.getLsbD 1 then unwrapSend (b1.flag WFT_CTL_unwrap) else b1
  else b

/-! ### D (R346) -/

/-- The D in force shows in WFT_NODE and DCH_LOUT, L_out follows, and a D that the delay store cannot hold is an error. -/
def setD (d : Nat) (b : Block) : Block :=
  let b1 := computeLout (((setWeft (fun w => { w with d := d, dNext := none }) b).put WFT_NODE_d (min 7 d)).put DCH_LOUT_d d)
  weftWrapOk (b1.put WFT_STAT_d_err (if 256 < b1.get DCH_LOUT_gceil + d * b1.pick then 1 else 0))

/-- D is computed at ENUM_DONE and after a rate change (R346): a change while picks run waits until the outputs have faded. -/
def updateD (b : Block) : Block :=
  let d := weftD b
  if d = b.wft.d ∨ b.tbu.running = false then setD d b else askStop (setWeft (fun w => { w with dNext := some d }) b)

/-! ### Enumeration (R338) -/

/-- The node table is written (R338): entry i holds SERIAL, the hop into node i, and droot; later entries read 0. -/
def writeTable (table : List (Nat × Nat)) (b : Block) : Block :=
  (List.range 1024).foldl (fun acc i =>
    let e := table.getD i (0, 0)
    let here := decide (i < table.length)
    let dr := drootOf (fun k => (table.getD k (0, 0)).2) i
    ((acc.setNum (WFT_NT_SER i) (if here then e.1 else 0)).setNum (WFT_NT_HOP i) (if here then e.2 else 0)).setNum (WFT_NT_DROOT i)
      (if here then dr % 2 ^ 24 else 0)) b

/-- The L_out that goes with the D of the table (R24, R346), which the node may have to stop its picks to take on. -/
def tableLout (b : Block) : Nat := (computeLout (b.put DCH_LOUT_d (weftD b))).lOut

/-- ENUM_DONE takes effect (R338, R346, R350, R355): the table, droot, D, the pools; `lout` is the root's. -/
def enumApply (table : List (Nat × Nat)) (lout : Nat) (wrapped : Bool) (b : Block) : Block :=
  let b1 := writeTable table b
  let b2 := (b1.put WFT_NODE_n table.length).flag WFT_STAT_enum
  let b3 := (b2.put WFT_NODE_droot (min 255 (b2.get (WFT_NT_DROOT_droot (nodeId b2)) / 64))).put WFT_STAT_ring_wrapped (if wrapped then 1 else 0)
  let b4 := checkPools (derivePools (updateD b3))
  (b4.put WFT_STAT_lout_mis (if tableLout b4 ≠ lout then 1 else 0)).flag WFT_IRQ_STAT_enum

/-- The image's blocks of 4,096 bytes are broadcast when the root's section asks for it (R354); `len` is the image's length. -/
def bootBroadcast (len : Nat) (b : Block) : Block :=
  if byteAt (b.sect 0x11) 0xC = 1 then wsend (.boot (List.range (ceilDiv len 4096))) b else b

/-- The root's ENUM frame has returned (R338): it broadcasts ENUM_DONE, applies it, and boots the ring if asked. -/
def enumReturned (table : List (Nat × Nat)) (tooMany wrapped : Bool) (b : Block) : Block :=
  let full := (b.num SEC_SERIAL, b.get (WFT_PORT_STAT_hop 0)) :: table
  let b1 := ((setWeft (fun w => { w with enumerating := false }) b).put WFT_NODE_id 0).put WFT_CTL_reenum 0
  let b2 := if tooMany then b1.flag WFT_STAT_too_many else b1
  let lout := tableLout ((writeTable full b2).put WFT_NODE_n full.length)
  bootBroadcast b2.sys.imgLen (wsend (.enumDone full.length full lout wrapped) (enumApply full lout wrapped b2))

/-- The node takes the next ID, measures its next hop, and appends itself (R338); beyond 1,023 it takes none and only forwards. -/
def enumTake (h : WHdr) (root : Nat) (table : List (Nat × Nat)) (tooMany : Bool) (b : Block) : Block :=
  let id := table.length + 1
  if 1023 < id then hopOn h (.enumerate root table.length table true) (((b.flag WFT_STAT_too_many).put WFT_NODE_id 0).put WFT_STAT_enum 0)
  else hopOn h (.enumerate root id (table ++ [(b.num SEC_SERIAL, b.get (WFT_PORT_STAT_hop 0))]) tooMany) (probe (b.put WFT_NODE_id id))

/-- An ENUM frame (R338): `root` is the serial of the root that sent it. On the secondary leg it is only forwarded. -/
def enumFrame (h : WHdr) (root : Nat) (table : List (Nat × Nat)) (tooMany : Bool) (b : Block) : Block :=
  if !h.crcOk then (if isRoot b ∧ root = b.num SEC_SERIAL then crcFail h b else frameOn 3 h false (crcFail h b))
  else if onSecondary h b then hopOn h (.enumerate root table.length table tooMany) b
  else if isRoot b then
    if root = b.num SEC_SERIAL then (if b.wft.enumerating then enumReturned table tooMany h.wrapped b else b)
    else if root < b.num SEC_SERIAL then
      enumTake h root table tooMany ((setWeft (fun w => { w with enumerating := false }) b).flag WFT_STAT_dup_root)
    else b
  else enumTake h root table tooMany b

/-- An ENUM_DONE frame at a node (R338): the root's own broadcast is removed; a node without an ID only forwards. -/
def enumDoneFrame (h : WHdr) (table : List (Nat × Nat)) (lout : Nat) (wrapped : Bool) (b : Block) : Block :=
  if !h.crcOk then (if isRoot b then crcFail h b else frameOn 3 h false (crcFail h b))
  else if onSecondary h b then hopOn h (.enumDone table.length table lout wrapped) b
  else if isRoot b then b
  else
    let b1 := if nodeId b ≠ 0 ∧ nodeId b < table.length then enumApply table lout wrapped b else b
    hopOn h (.enumDone table.length table lout wrapped) b1

/-- The ENUM frame has not returned (R338): the root sends it again. -/
def enumTimeout (b : Block) : Block := if b.wft.enumerating then enumStart b else b

/-! ### Markers (R339, R341–R343) -/

/-- PROBE: its number returns as an ECHO (R339). -/
def probeMarker (n : Nat) (b : Block) : Block := wsend (.marker 4 n) b

/-- ECHO: the hop delay of port `p` from the round trip in ns, rounded up (R339). -/
def echoMarker (p trip : Nat) (b : Block) : Block := b.put (WFT_PORT_STAT_hop p) (min 65535 (ceilDiv (trip - 40) 2))

/-- A TIME marker numbers the root's frame edge (R342): a node whose TBU leaves NONE starts at the edge whose number is a multiple
of P. The edge itself, at the marker's arrival less droot, is the node's reference frame edge. The root does not send its own marker
round again. -/
def timeMarker (v : Nat) (b : Block) : Block :=
  let b1 := wsend (.marker 1 v) b
  if isRoot b then b
  else { b1 with tbu := { b1.tbu with loadAt := if v % b.pick = 0 then some v else none } }

/-- The beat, congruent to a BEAT marker's 28.24 value modulo 2^28 beats, that lies nearest to BEAT_POS (R343). -/
def unwrapBeat (pos v : Nat) : Nat :=
  let m := 2 ^ 52
  let d := (v + m - pos % m) % m
  if d < m / 2 then pos + d else pos + d - m

/-- A BEAT marker at `t`: an edge of tempo source 3 at its arrival less droot, with its own beat value (R343). -/
def beatMarker (v t next : Nat) (b : Block) : Block :=
  let b1 := wsend (.marker 2 v) b
  if isRoot b then b
  else tempoEdge 3 (t - droot b1) next (some (unwrapBeat (b1.num TBU_BEAT) v)) (2 ^ 64 / ppqnOf (b1.get WFT_CFG_bppqn)) b1

/-- A marker of a reserved kind (R341). -/
def reservedMarker (kind : Nat) (b : Block) : Block := wsend (.marker kind 0) (b.bump WFT_CNT_bad)

/-- The root's markers at a reference frame edge (R342, R343): TIME, and BEAT when BEAT_POS has moved from `old` to `new` across a
multiple of 1/bppqn. -/
def rootMarkers (old new : Nat) (b : Block) : Block :=
  if isRoot b then
    let b1 := wsend (.marker 1 (b.sample % 2 ^ 52)) b
    let q := ppqnOf (b.get WFT_CFG_bppqn)
    let k := new * q / 2 ^ 24
    if b.on WFT_CFG_beat_tx ∧ old * q / 2 ^ 24 < k then wsend (.marker 2 (k * 2 ^ 24 / q % 2 ^ 52)) b1 else b1
  else b

/-! ### Events (R348) -/

/-- An EVENT frame's events enter source 7 in frame order (R348). -/
def takeEvents (l : List (BitVec 128)) (b : Block) : Block := l.foldl (fun acc x => submitNative 7 (Ev.ofNat x) acc) b

/-! ### Weft buses (R344–R347) -/

/-- What the node adds to weft bus `w` for pick `n` (R344): P samples of the named lane, when they are available and the node may add. -/
def contribution (b : Block) (n w : Nat) : Option (List Word) :=
  if b.on WFT_STAT_d_err || !b.tbu.running || !b.tbu.holds.isEmpty || !b.on (WFT_BUS_add w) || decide (16 * nseg b ≤ w ∨ n < b.tbu.firstPick) then
    none
  else if n + 1 = b.pickNo then some (laneOf b (b.get (WFT_BUS_lane w))).out
  else if n + 1 < b.pickNo then (laneOf b (b.get (WFT_BUS_lane w))).older[b.pickNo - 2 - n]?
  else none

/-- The words of a segment, bus-major, with the node's contribution to each (R345): the sums in Q5.27, and whether one saturated. -/
def addSegment (b : Block) (n seg : Nat) (ws : List Word) : List Word × Bool :=
  (List.range 16).foldl (fun (acc : List Word × Bool) k =>
    let part := (ws.drop (k * b.pick)).take b.pick
    match contribution b n (16 * seg + k) with
    | none => (acc.1 ++ part, acc.2)
    | some c =>
      let sums := (List.range b.pick).map fun i => (part.getD i 0).toInt + (c.getD i 0).toInt
      (acc.1 ++ sums.map sat32, acc.2 || sums.any (satHits 32))) ([], false)

/-- A saturated add or conversion of pick `n` counts that pick once. -/
def noteWeftSat (n : Nat) (b : Block) : Block :=
  if b.wft.satPicks.contains n then b else setWeft (fun w => { w with satPicks := n :: w.satPicks }) (b.bump WFT_ACNT_sat)

/-- The root begins lap 1 of pick n, two µs into pick n + 2 (R345). -/
def lapStart (b : Block) : Block :=
  if isRoot b && inRing b && decide (b.tbu.firstPick + 2 ≤ b.pickNo) then
    let n := b.pickNo - 2
    (List.range (nseg b)).foldl (fun acc s =>
      let (ws, sat) := addSegment acc n s (List.replicate (16 * acc.pick) 0)
      wsend (.audio false false (n % 65536) s ws) (if sat then noteWeftSat n acc else acc)) b
  else b

/-- The whole pick number of a frame's low 16 bits: the nearest one at or below the pick in progress. -/
def wholePick (b : Block) (p : Nat) : Nat := b.pickNo - (b.pickNo + 65536 - p) % 65536

/-- The sums of a segment are taken (R345). -/
def takeSums (n seg : Nat) (ws : List Word) (b : Block) : Block :=
  setWeft (fun w => { w with sums := FMap.set (fun _ => []) w.sums (n * 32 + seg) ws }) b

/-- An AUDIO frame (R345): lap 1 gathers contributions, and turns into lap 2 at the root; lap 2 brings the sums, and ends at the
root. -/
def audioFrame (h : WHdr) (lap2 : Bool) (pick seg : Nat) (ws : List Word) (b : Block) : Block :=
  let n := wholePick b pick
  let item (l : Bool) (x : List Word) : WSend := .audio l (h.wrapped || onSecondary h b) pick seg x
  if !h.crcOk then (if isRoot b && !onSecondary h b then crcFail h b else frameOn 0 h false (crcFail h b))
  else if onSecondary h b || !inRing b then hopOn h (item lap2 ws) b
  else if isRoot b then (if lap2 then b else wsend (item true ws) (takeSums n seg ws b))
  else if lap2 then hopOn h (item true ws) (takeSums n seg ws b)
  else
    let (sums, sat) := addSegment b n seg ws
    hopOn h (item false sums) (if sat then noteWeftSat n b else b)

/-- Whether an output channel takes a bus of segment `s`. -/
def takesSegment (b : Block) (s : Nat) : Bool :=
  (List.range 128).any fun c => b.get (DCH_OUT_kind c) == 2 && b.get (DCH_OUT_index c) / 16 == s

/-- The segments of pick `n` at their deadline, the start of pick n + 2 + D (R347): a missing one is counted, and impairs the pick
where its buses are taken. -/
def segmentDeadline (n : Nat) (b : Block) : Block :=
  if inRing b && !b.on WFT_STAT_d_err && decide (0 < b.wft.d) then
    (List.range (nseg b)).foldl (fun acc s =>
      if (FMap.get (fun _ => []) acc.wft.sums (n * 32 + s)).isEmpty then
        let a1 := (acc.bump WFT_ACNT_miss).flag WFT_IRQ_STAT_miss
        if takesSegment acc s then { a1 with rel := { a1.rel with impaired := true, outside := true } } else a1
      else acc) b
  else b

/-- Sample `i` of weft bus `w` for pick `n`, in Q5.27; zero where the segment is missing. -/
def weftWord (b : Block) (n w i : Nat) : Word :=
  if b.on WFT_STAT_d_err || decide (16 * nseg b ≤ w) then 0
  else (FMap.get (fun _ => []) b.wft.sums (n * 32 + w / 16)).getD (w % 16 * b.pick + i) 0

/-- The sums of picks up to `n` are dropped. -/
def dropSums (n : Nat) (b : Block) : Block :=
  setWeft (fun w => { w with sums := w.sums.filter fun kv => decide (n < kv.1 / 32) }) b

/-! ### The host tunnel (R349) -/

/-- The access in progress completes: result and, for a read, data (R349). -/
def tunFinish (result : Nat) (data : Option Nat) (b : Block) : Block :=
  let b1 := (b.put WFT_TUN_STAT_result result).flag WFT_IRQ_STAT_tun
  match data with
  | some d => if b.wft.tunWrite then b1 else b1.setNum WFT_TUN_DATA d
  | none => b1

/-- Whether a tunnelled access is in progress. -/
def tunBusy (b : Block) : Bool := b.get WFT_TUN_STAT_result == 1

/-- WFT_TUN_CTL is written (R349): fields, start and abort. -/
def tunCtl (v : Word) (b : Block) : Block :=
  let start := v.getLsbD 11
  let abort := v.getLsbD 12
  let b1 := (b.put WFT_TUN_CTL_node (bitsOf v.toNat 9 0)).put WFT_TUN_CTL_write (bitsOf v.toNat 10 10)
  let b2 :=
    if !start then b1
    else if tunBusy b1 then b1.put WFT_TUN_STAT_ovr 1
    else
      let b' := (setWeft (fun w => { w with tunTag := (w.tunTag + 1) % 65536, tunWrite := b1.on WFT_TUN_CTL_write }) b1).setNum WFT_TUN_STAT (1 + (b1.num WFT_TUN_STAT / 16 % 2) * 16)
      if b'.get WFT_TUN_CTL_node = nodeId b' then b'
      else wsend (.tunRequest (b'.get WFT_TUN_CTL_node) b'.wft.tunTag (b'.on WFT_TUN_CTL_write) (b'.num WFT_TUN_ADDR) (b'.num WFT_TUN_DATA)) b'
  if !abort then b2 else if tunBusy b2 then tunFinish 5 none b2 else b2.put WFT_TUN_STAT_abort_late 1

/-- The response of a tunnelled access (R349): one that no access awaits is discarded. -/
def tunResponse (tag : Nat) (err : Bool) (data : Nat) (b : Block) : Block :=
  if tunBusy b ∧ tag = b.wft.tunTag then tunFinish (if err then 3 else 2) (if err then none else some data) b else b

/-- No response within 1 ms (R349). -/
def tunTimeout (b : Block) : Block := if tunBusy b then tunFinish 4 none b else b

end Sys2Proof.Machine
end

