-- ==== Sys2Proof/Machine/Outputs.lean ====
section
/-! DEFINITION. The output delay store and the output channels (R268, R272, R347): blocks are formed at each pick boundary and presented
frame by frame. -/

namespace Sys2Proof.Machine

/-- The queue of output channel `c`. -/
def outQueue (b : Block) (c : Nat) : List Word := FMap.get (fun _ => []) b.mix.queue c
/-- Set the queue of channel `c`. -/
def setOutQueue (c : Nat) (l : List Word) (b : Block) : Block :=
  { b with mix := { b.mix with queue := FMap.set (fun _ => []) b.mix.queue c l } }

/-- The block of a lane that pad_w releases at the boundary of pick `m` (R268): the one of pick m − 2 − D. -/
def laneBlock (b : Block) (l : Nat) : List Word := ((laneOf b l).older.getD b.wft.d [])

/-- Whether a conversion of a word to Q1.31 saturates (R347). -/
def clips (x : Word) : Bool := satHits 32 (x.toInt * 16)

/-- The block of output channel `c` for the pick `n` that leaves the delay store (R272). -/
def channelBlock (b : Block) (n : Option Nat) (c : Nat) : List Word × Bool :=
  let ix := b.get (DCH_OUT_index c)
  match b.get (DCH_OUT_kind c), n with
  | 1, _ => ((List.range b.pick).map (fun i => toQ31 ((laneBlock b (ix % 256)).getD i 0)), false)
  | 2, some k =>
    if ix < 16 * nseg b then
      let ws := (List.range b.pick).map fun i => weftWord b k ix i
      (ws.map toQ31, ws.any clips)
    else (List.replicate b.pick 0, false)
  | _, _ => (List.replicate b.pick 0, false)

/-- The queues begin at frame `f`: earlier words are dropped; queues that begin later are empty. -/
def alignQueues (f : Nat) (b : Block) : Block :=
  let h := b.mix.head
  let q : FMap (List Word) := if h ≤ f then (b.mix.queue.map fun kv => (kv.1, kv.2.drop (f - h))).filter fun kv => !kv.2.isEmpty else []
  { b with mix := { b.mix with queue := q, head := f } }

/-- A word at place `i` of the block of pick `n`, faded where the pick fades in, out, or both (R30). -/
def fadeAt (b : Block) (n : Option Nat) (i : Nat) (w : Word) : Word :=
  let x := if n.isSome ∧ n = b.tbu.fadeIn then Config.fadeWord w i 1 else w
  if n.isSome ∧ n = b.tbu.fadeOut then Config.fadeWord x i 0 else x

/-- The output blocks of the boundary of pick `m`, whose frames begin at m × P + 2 (R24, R347): those of pick m − 2 − D, when it ran
since picks last resumed. -/
def outputPick (m : Nat) (b : Block) : Block :=
  let n := if b.tbu.firstPick + b.wft.d + 2 ≤ m then some (m - 2 - b.wft.d) else none
  let b1 := match n with
    | some k => segmentDeadline k b
    | none => b
  let b2 := alignQueues (m * b.pick) b1
  let b3 := (List.range 128).foldl (fun acc c =>
    let (ws, sat) := channelBlock acc n c
    let old := (outQueue acc c).take 2
    let new := (List.range ws.length).map fun i => fadeAt acc n i (ws.getD i 0)
    let a1 := setOutQueue c (old ++ List.replicate (2 - old.length) 0 ++ new) acc
    match n with
    | some k => if sat then noteWeftSat k a1 else a1
    | none => a1) b2
  match n with
  | some k => dropSums k b3
  | none => b3

/-- Frame `f` is presented: every output channel takes its word. -/
def presentFrame (f : Nat) (b : Block) : Block :=
  let b1 := alignQueues f b
  let shown := (List.range 128).foldl (fun m c => FMap.set (fun _ => 0) m c ((outQueue b1 c).headD 0)) b1.mix.shown
  { b1 with mix := { b1.mix with shown := shown } }

/-- The outputs have faded, or stop without a fade (R30, R285, R432): every output channel is silent. -/
def muteOutputs (b : Block) : Block :=
  { b with mix := { b.mix with shown := [], queue := [] }, tbu := { b.tbu with drain := none } }

/-- A boundary after the last pick (R285): every lane's block moves on, and silence follows. -/
def drainLanes (b : Block) : Block :=
  let step (x : Lane) : Lane := { x with out := [], older := (x.out :: x.older).take 18 }
  { b with mix := { b.mix with lanes := (b.mix.lanes.map fun kv => (kv.1, step kv.2)).filter fun kv => kv.2 != {} } }

/-- Picks resume (R30): nothing that earlier picks left is presented again. -/
def clearBlocks (b : Block) : Block :=
  let step (x : Lane) : Lane := { x with out := [], older := [] }
  let b0 := muteOutputs b
  let quiet (c : CvChan) : CvChan := { c with entries := c.entries.filter fun e => !e.good }
  let b1 : Block := { b0 with cvo := { b0.cvo with chans := (b0.cvo.chans.map fun kv => (kv.1, quiet kv.2)).filter fun kv => kv.2 != {} } }
  { b1 with mix := { b1.mix with lanes := (b1.mix.lanes.map fun kv => (kv.1, step kv.2)).filter fun kv => kv.2 != {} } }

end Sys2Proof.Machine
end

