-- ==== Sys2Proof/Machine/Sap.lean ====
section
/-! DEFINITION. The serial audio ports (chapter 11), frame by frame. -/

namespace Sys2Proof.Machine

/-- A port. -/
def sapPort (b : Block) (n : Nat) : SapPort := FMap.get (fun _ => {}) b.sap n
/-- Set a port. -/
def setSapPort (n : Nat) (p : SapPort) (b : Block) : Block := { b with sap := FMap.set (fun _ => {}) b.sap n p }

/-- Slots of a frame, S (R275). -/
def sapSlots (cfg : Nat) : Nat := if cfg % 4 = 2 then 2 * 2 ^ bitsOf cfg 3 2 else 2
/-- A width code as bits: 16, 24, 32, and 3 as 2. -/
def sapBits (code : Nat) : Nat := if code = 0 then 16 else if code = 1 then 24 else 32
/-- Slot width, W. -/
def sapWidth (cfg : Nat) : Nat := sapBits (bitsOf cfg 5 4)
/-- Word length: a code above swidth acts as swidth. -/
def sapWlen (cfg : Nat) : Nat := min (sapBits (bitsOf cfg 7 6)) (sapWidth cfg)
/-- Bits of a frame, F (R275). -/
def sapFrame (cfg : Nat) : Nat := sapSlots cfg * sapWidth cfg

/-- The setup of port `n`. -/
def sapCfg (b : Block) (n : Nat) : Nat := b.num (SAP_CFG n)

/-- The bit of a frame at which slot `s` begins (R275). -/
def sapMsb (cfg s : Nat) : Nat :=
  (match cfg % 4 with | 1 => 0 | 2 => bitsOf cfg 8 8 | _ => 1) + s * sapWidth cfg

/-- An output sample as the word of a slot (R276). -/
def sapSend (wlen : Nat) (x : Word) : Word := BitVec.ofInt 32 (satInt wlen (roundShr x.toInt (32 - wlen))) &&& BitVec.ofNat 32 (2 ^ wlen - 1)
/-- An input word in Q1.31 (R276). -/
def sapTake (wlen : Nat) (v : Word) : Word := v <<< (32 - wlen)

/-- Whether port `n` is the reference port (R280). -/
def sapIsRef (b : Block) (n : Nat) : Bool := b.tbu.sel.src == 1 && b.tbu.sel.sap == n

/-- Centre, repeat and drop fills (R281). -/
def sapFills (cfg : Nat) : Nat × Nat × Nat := if bitsOf cfg 11 11 = 1 then (3, 1, 5) else (8, 2, 14)

/-- Whether picks run, so that ports carry words (R285, R292): frames are presented and nothing has stopped them. -/
def picksRun (b : Block) : Bool := b.tbu.running || b.tbu.drain.isSome

/-- The buffers re-centred (R281, R285, R288): filled to the centre with silence. -/
def SapPort.centre (p : SapPort) (cfg : Nat) : SapPort :=
  let c := (sapFills cfg).1
  { p with oel := List.replicate c [], iel := List.replicate c [] }

/-- The fills of the elastic buffers show in SAP_STAT; the reference port has none. -/
def sapShow (n : Nat) (b : Block) : Block :=
  let p := sapPort b n
  let isRef := sapIsRef b n
  ((b.put (SAP_STAT_ref n) (if isRef then 1 else 0)).put (SAP_STAT_ofill n) (if isRef then 0 else p.oel.length)).put
    (SAP_STAT_ifill n) (if isRef then 0 else p.iel.length)

/-- Picks resume (R285): every buffer is re-centred, which counts as no slip. -/
def sapResume (b : Block) : Block :=
  (List.range 8).foldl (fun acc n =>
    if acc.on (SAP_STAT_running n) then sapShow n (setSapPort n ((sapPort acc n).centre (sapCfg acc n)) acc) else acc) b

/-- A slip (R282, R283): `f` is its counter. -/
def sapSlip (n : Nat) (f : Fld) (b : Block) : Block := (b.bump f).flag (SAP_IRQ_STAT_slip n)

/-- The choice of a slip at a fill (R282): repeat, drop, or neither. -/
def sapChoice (cfg fill : Nat) : Bool × Bool :=
  let (_, rep, drop) := sapFills cfg
  (decide (fill ≤ rep), decide (drop ≤ fill))

/-- The frame of channels that port `n` sends now: what the reference port presents, or the elastic buffer's next frame (R280–R282). -/
def sapNextOut (n : Nat) (b : Block) : FMap Word × Block :=
  if sapIsRef b n then (b.mix.shown, b)
  else
    let p := sapPort b n
    let (rep, drop) := sapChoice (sapCfg b n) p.oel.length
    if rep then (p.olast, sapSlip n (SAP_OSLIP_repeats n) b)
    else
      let l := if drop then p.oel.drop 1 else p.oel
      let f := l.headD []
      (f, setSapPort n { p with oel := l.drop 1, olast := f } (if drop then sapSlip n (SAP_OSLIP_drops n) b else b))

/-- The words of a frame's slots (R278): the channels of the active map, zero for masked slots and channels above 127. -/
def sapWords (b : Block) (n : Nat) (f : FMap Word) : List Word :=
  (List.range (sapSlots (sapCfg b n))).map fun s =>
    let c := b.get (SAP_CHMAP_ACT_obase n) + s
    if (b.get (SAP_MASK_ACT_omask n)).testBit s ∧ c < 128 then sapSend (sapWlen (sapCfg b n)) (FMap.get (fun _ => 0) f c) else 0

/-- The pending copies are sampled at bit F − 2 of the frame that ends now (R290): the last write before that edge takes effect. -/
def sapSample (n t bits : Nat) (b : Block) : Block :=
  let p := sapPort b n
  let f := sapFrame (sapCfg b n)
  if bits + 1 < f ∨ bits = 0 then b
  else
    -- the edge, times `bits`, counted from the frame start
    let early := p.writes.filter fun w => decide ((w.1 - p.t0) * bits < (t - p.t0) * (f - 2))
    let b1 := setSapPort n { p with writes := p.writes.filter fun w => !decide ((w.1 - p.t0) * bits < (t - p.t0) * (f - 2)) } b
    match early.getLast? with
    | none => b1
    | some (_, mask, map) => (b1.setNum (SAP_MASK_ACT n) mask.toNat).setNum (SAP_CHMAP_ACT n) map.toNat

/-- SAP_MASK or SAP_CHMAP is written: the pending copy (R290). -/
def sapPending (n : Nat) (b : Block) : Block :=
  let p := sapPort b n
  setSapPort n { p with writes := p.writes ++ [(b.now, (b.rd (SAP_MASK n)).lo, (b.rd (SAP_CHMAP n)).lo)] } b

/-- The words received in the frame that ends now enter the input word FIFO, but those of the slots `full` that found it full; a
whole frame leaves it (R286). A short frame brings its completed slots only (R277); a quiet frame and stopped picks bring none. -/
def sapReceive (n bits : Nat) (di : List Word) (full : List Nat) (b : Block) : Block :=
  let p := sapPort b n
  let cfg := sapCfg b n
  let s := sapSlots cfg
  if p.quiet || !picksRun b then b
  else
    let ws := (List.range s).filterMap fun i =>
      if (i + 1) * sapWidth cfg ≤ bits ∧ ¬full.contains i then some (sapTake (sapWlen cfg) (di.getD i 0)) else none
    let fifo := p.ififo ++ ws
    -- a short frame still makes a frame: its missing slots read nothing
    let padded := if bits < sapFrame cfg then fifo ++ List.replicate (s - fifo.length) 0 else fifo
    if padded.length < s then setSapPort n { p with ififo := padded } b
    else setSapPort n { p with ififo := padded.drop s, iel := if sapIsRef b n then [padded.take s] else (p.iel ++ [padded.take s]).take 16 } b

/-- The word FIFO faults of the frame that ends now (R286): each rotates the channels. -/
def sapFaults (n : Nat) (under full : List Nat) (b : Block) : Block :=
  let p := sapPort b n
  let b1 := (b.bump (SAP_ERR_under n) under.length).bump (SAP_ERR_over n) full.length
  -- each slot without a word left one word in the FIFO
  let b2 := setSapPort n { p with ofifo := p.ofifo.drop (sapSlots (sapCfg b n) - under.length) } b1
  if under.isEmpty && full.isEmpty then b2
  else (b2.flag (SAP_STAT_align_lost n)).flag (SAP_IRQ_STAT_align n)

/-- A realignment (R287); with `full` the elastic buffers are re-centred too (R288). -/
def sapRealign (n : Nat) (full : Bool) (b : Block) : Block :=
  let p := { sapPort b n with ofifo := [], ififo := [], quiet := true }
  (setSapPort n (if full then p.centre (sapCfg b n) else p) b).put (SAP_STAT_align_lost n) 0

/-- The frame rate over 256 frames (SAP_FRATE). -/
def sapRate (n t : Nat) (b : Block) : Block :=
  let p := sapPort b n
  if p.rateN = 0 then setSapPort n { p with rateT := t, rateN := 1 } b
  else if p.rateN < 256 then setSapPort n { p with rateN := p.rateN + 1 } b
  else setSapPort n { p with rateT := t, rateN := 1 } (b.setNum (SAP_FRATE n) (if t ≤ p.rateT then 0 else 256 * 1000000000000 / (t - p.rateT)))

/-- DO takes the words of a frame: in a masked slot it is high-impedance where hiz says so (R279). -/
def sapShowOut (n : Nat) (ws : List Word) (b : Block) : Block :=
  let cfg := sapCfg b n
  let slot (s : Nat) : Option Word :=
    if bitsOf cfg 13 13 = 1 ∧ !(b.get (SAP_MASK_ACT_omask n)).testBit s then none else some (ws.getD s 0)
  let p := sapPort b n
  setSapPort n { p with was := p.out, out := some ((List.range (sapSlots cfg)).map slot) } b

/-- The level of DO at bit `k` of the frame in progress (R275, R276, R279), none where it is high-impedance: a slot's word from its MSB on, then
zeros; the bits before slot 0 end the last slot of the frame before. -/
def sapDo (b : Block) (n k : Nat) : Option Bool :=
  let p := sapPort b n
  let cfg := sapCfg b n
  let bit (l : Option (List (Option Word))) (s j : Nat) : Option Bool :=
    ((l.getD []).getD s none).map fun w => decide (j < sapWlen cfg) && w.getLsbD (sapWlen cfg - 1 - j)
  let first := sapMsb cfg 0
  if k < first then bit (if p.was.isSome then p.was else p.out.map fun l => l.map fun x => x.map fun _ => 0) (sapSlots cfg - 1) (sapWidth cfg - first + k)
  else if sapFrame cfg ≤ k then p.out.map fun _ => false
  else bit p.out ((k - first) / sapWidth cfg) ((k - first) % sapWidth cfg)

/-- The port sends a new frame: its words, or silence in its unmasked slots (R285, R287, R292). A quiet frame takes its frame from the elastic
buffer all the same. -/
def sapSendFrame (n : Nat) (b : Block) : Block :=
  if !picksRun b then sapShowOut n [] b
  else
    let (f, b1) := sapNextOut n b
    let p := sapPort b1 n
    if p.quiet then sapShowOut n [] b1
    else
      let fifo := p.ofifo ++ sapWords b1 n f
      sapShowOut n (fifo.take (sapSlots (sapCfg b n))) (setSapPort n { p with ofifo := fifo } b1)

/-- Whether a restart written before cycle `t` waits (R288). -/
def sapRestartDue (n t : Nat) (b : Block) : Bool := b.on (SAP_CTL_restart n) && decide ((sapPort b n).restartT ≠ some t)

/-- SAP_CTL.en as an edge of cycle `t` sees it (R291). -/
def sapEnabled (n t : Nat) (b : Block) : Bool := if (sapPort b n).enT = some t then !b.on (SAP_CTL_en n) else b.on (SAP_CTL_en n)

/-- The port starts at a frame-start edge after its enable (R291): slots are aligned, and a restart that waits is made too. -/
def sapStart (n t : Nat) (b : Block) : Block :=
  let again := sapRestartDue n t b
  let p := { (sapPort b n).centre (sapCfg b n) with ofifo := [], ififo := [], quiet := again, lost := false, t0 := t, rateT := t, rateN := 1 }
  let b1 := ((setSapPort n p b).flag (SAP_STAT_running n)).flag (SAP_STAT_clk n)
  let b2 := (if again then b1.put (SAP_CTL_restart n) 0 else b1).put (SAP_STAT_align_lost n) 0
  sapSendFrame n (sapShow n b2)

/-- A frame-start edge of a running port at `t`, `bits` BCLK periods after the last one; `di` are the words received since, `under`
and `full` the slots that met an empty output FIFO and a full input FIFO (R277, R282, R284, R286–R288, R290). -/
def sapFrameRun (n t bits : Nat) (di : List Word) (under full : List Nat) (b : Block) : Block :=
  let p := sapPort b n
  let b1 := if bits = sapFrame (sapCfg b n) then b else (b.bump (SAP_ERR_flen n)).flag (SAP_IRQ_STAT_flen n)
  let b2 := sapFaults n under full (sapReceive n bits di full b1)
  let b3 := setSapPort n { sapPort b2 n with quiet := false } (sapSample n t bits b2)
  let restart := sapRestartDue n t b3
  let whole := restart || p.lost
  let b4 := if whole || (b3.on (SAP_CFG_auto_realign n) && b3.on (SAP_STAT_align_lost n)) then sapRealign n whole b3 else b3
  let b5 := (if restart then b4.put (SAP_CTL_restart n) 0 else b4).flag (SAP_STAT_clk n)
  let b6 := if p.lost then b5.flag (SAP_IRQ_STAT_clk_back n) else b5
  let b7 := setSapPort n { sapPort b6 n with lost := false, t0 := t } b6
  sapShow n (sapRate n t (sapSendFrame n b7))

/-- The port stops at a frame-start edge after its disable (R279, R291): DO is high-impedance. -/
def sapStop (n : Nat) (b : Block) : Block :=
  let b1 := ((b.put (SAP_STAT_running n) 0).put (SAP_STAT_clk n) 0).setNum (SAP_FRATE n) 0
  let p := sapPort b n
  sapShow n (setSapPort n { writes := p.writes, enT := p.enT, restartT := p.restartT } b1)

/-- A frame-start edge of port `n` (R277, R291): it runs a running port, starts an enabled one and stops a disabled one. -/
def sapFrameStart (n t bits : Nat) (di : List Word) (under full : List Nat) (b : Block) : Block :=
  if sapEnabled n t b then
    if b.on (SAP_STAT_running n) then sapFrameRun n t bits di under full b else sapStart n t b
  else sapStop n b

/-- Port `n` has lost BCLK or FS (R284). -/
def sapClockLost (n : Nat) (b : Block) : Block :=
  if b.on (SAP_CTL_en n) && b.on (SAP_STAT_clk n) then
    let b1 := ((b.put (SAP_STAT_clk n) 0).bump (SAP_ERR_clk_lost n)).flag (SAP_IRQ_STAT_clk_lost n)
    setSapPort n { sapPort b n with lost := true, rateN := 0 } (b1.setNum (SAP_FRATE n) 0)
  else b

/-- SAP_CFG is written (R291): while the port is enabled only auto_realign changes. -/
def sapCfgWrite (n : Nat) (v : Word) (b : Block) : Block :=
  if b.on (SAP_CTL_en n) then (b.put (SAP_CFG_auto_realign n) (bitsOf v.toNat 12 12)).put (SAP_STAT_cfg_ign n) 1
  else b.setNum (SAP_CFG n) (v.toNat % 2 ^ 14)

/-- SAP_CTL is written (R288, R291). -/
def sapCtlWrite (n : Nat) (v : Word) (b : Block) : Block :=
  let p := sapPort b n
  let changes := decide (b.get (SAP_CTL_en n) ≠ v.toNat % 2)
  let asks := v.getLsbD 1 && !b.on (SAP_CTL_restart n)
  -- a change undone in its own cycle is none
  let p1 := { p with
    enT := if changes then (if p.enT = some b.now then none else some b.now) else p.enT, restartT := if asks then some b.now else p.restartT }
  let b1 := setSapPort n p1 (b.put (SAP_CTL_en n) (v.toNat % 2))
  if v.getLsbD 1 then b1.flag (SAP_CTL_restart n) else b1

/-! ### At the reference frame edge -/

/-- The input frame that port `n` gives at a reference frame edge (R282): from the word FIFO at the reference port, else from the
elastic buffer; nothing of a port without a clock. -/
def sapNextIn (n : Nat) (b : Block) : List Word × Block :=
  let p := sapPort b n
  if !b.on (SAP_STAT_clk n) || p.quiet then ([], b)
  else if sapIsRef b n then (p.iel.headD [], b)
  else
    let (rep, drop) := sapChoice (sapCfg b n) p.iel.length
    if rep then (p.ilast, sapSlip n (SAP_ISLIP_repeats n) b)
    else
      let l := if drop then p.iel.drop 1 else p.iel
      let f := l.headD []
      (f, setSapPort n { p with iel := l.drop 1, ilast := f } (if drop then sapSlip n (SAP_ISLIP_drops n) b else b))

/-- The input channels that port `n` feeds (R278), with their slots. -/
def sapFeeds (b : Block) (n : Nat) : List (Nat × Nat) :=
  if b.on (SAP_STAT_running n) then
    (List.range (sapSlots (sapCfg b n))).filterMap fun s =>
      let c := b.get (SAP_CHMAP_ACT_ibase n) + s
      if (b.get (SAP_MASK_ACT_imask n)).testBit s ∧ c < 128 then some (c, s) else none
  else []

/-- The words of port `n` join the input channels `m` that lower ports have fed (R278): a channel taken already is a clash. -/
def sapJoin (n : Nat) (acc : FMap Word × List Nat × Block) : FMap Word × List Nat × Block :=
  let (m, taken, b) := acc
  let (ws, b1) := sapNextIn n b
  let feeds := sapFeeds b1 n
  let mine := feeds.filter fun cs => !taken.contains cs.1
  let m1 := mine.foldl (fun a cs => FMap.set (fun _ => 0) a cs.1 (ws.getD cs.2 0)) m
  (m1, taken ++ mine.map (·.1), b1.put (SAP_STAT_in_clash n) (if mine.length < feeds.length then 1 else 0))

/-- The serial audio input channels at a reference frame edge: channel to word; a channel that no port feeds reads zero. -/
def sapInputs (b : Block) : FMap Word × Block :=
  let (m, _, b1) := (List.range 8).foldl (fun acc n => if b.on (SAP_STAT_running n) then sapJoin n acc else
    (acc.1, acc.2.1, acc.2.2.put (SAP_STAT_in_clash n) 0)) ([], [], b)
  (m, b1)

/-- The frame presented joins the elastic buffer of every running port but the reference port (R281). -/
def sapOutputs (b : Block) : Block :=
  (List.range 8).foldl (fun acc n =>
    if acc.on (SAP_STAT_running n) && !sapIsRef acc n then
      let p := sapPort acc n
      sapShow n (setSapPort n { p with oel := (p.oel ++ [acc.mix.shown]).take 16 } acc)
    else sapShow n acc) b

/-- A reference frame edge at the ports, while picks run: frames go out, input channels come in. -/
def sapEdge (b : Block) : Block :=
  let (m, b1) := sapInputs (sapOutputs b)
  (List.range 128).foldl (fun acc i => receiveWord i (FMap.get (fun _ => 0) m i) acc) b1

/-! ### The SAP section (R293) -/

/-- Whether record `n` of a SAP section is sound, at the frame rate `fs`. -/
def sapRecordOk (s : List Byte) (fs n : Nat) : Bool :=
  let o := 32 * n
  let cfg := numAt s o 4
  decide (cfg < 2 ^ 14) && decide (sapFrame cfg * fs ≤ 24576000) && decide (sapBits (bitsOf cfg 7 6) ≤ sapWidth cfg) && bitsOf (numAt s (o + 8) 4) 7 7 == 0 &&
  decide (numAt s (o + 8) 4 < 2 ^ 15) && decide (numAt s (o + 12) 4 < 32) && decide (numAt s (o + 16) 4 < 2) && zeros s (o + 20) 12

/-- The input channels that an enabled port of a SAP section feeds. -/
def sapRecordFeeds (s : List Byte) (n : Nat) : List Nat :=
  let o := 32 * n
  if numAt s (o + 16) 4 = 1 then
    (List.range (sapSlots (numAt s o 4))).filterMap fun k =>
      let c := bitsOf (numAt s (o + 8) 4) 14 8 + k
      if (numAt s (o + 6) 2).testBit k ∧ c < 128 then some c else none
  else []

/-- Whether a list repeats nothing. -/
def noRepeat : List Nat → Bool
  | [] => true
  | x :: l => !l.contains x && noRepeat l

/-- The checks of a SAP section (R293), given the rate and TBU_REF_CFG of the TIME section. -/
def sapOk (s : List Byte) (fs refCfg : Nat) : Bool :=
  s.length == 256 && (List.range 8).all (sapRecordOk s fs) && noRepeat ((List.range 8).flatMap (sapRecordFeeds s)) &&
  (refCfg % 4 != 1 || numAt s (32 * bitsOf refCfg 4 2 + 16) 4 == 1)

/-- Apply a SAP section (R293): pending and active copies together, the enable last. -/
def applySap (s : List Byte) (b : Block) : Block :=
  (List.range 8).foldl (fun acc n =>
    let o := 32 * n
    let mask := numAt s (o + 4) 4
    let map := numAt s (o + 8) 4
    let a1 := (((acc.setNum (SAP_CFG n) (numAt s o 4)).setNum (SAP_MASK n) mask).setNum (SAP_MASK_ACT n) mask).setNum (SAP_CHMAP n) map
    let a2 := (a1.setNum (SAP_CHMAP_ACT n) map).setNum (SAP_IRQ_EN n) (numAt s (o + 12) 4)
    setSapPort n {} (a2.put (SAP_CTL_en n) (numAt s (o + 16) 4))) b

end Sys2Proof.Machine
end

