-- ==== Sys2Proof/Machine/Crypto.lean ====
section
/-! DEFINITION. The algorithms that the spec names by their standards: SHA-256 (FIPS 180-4), HMAC (FIPS 198-1), ECDSA P-256 (FIPS 186),
AES-128 (FIPS 197), its key wrap (RFC 3394) and XTS (IEEE 1619). -/

namespace Sys2Proof.Machine

/-! ### SHA-256 -/

/-- The integer square root and cube root by bisection on `n` bits, from which SHA-256's constants come. -/
def rootBits (pow : Nat) (x : Nat) : Nat → Nat → Nat
  | 0, r => r
  | n + 1, r => rootBits pow x n (if (r + 2 ^ n) ^ pow ≤ x then r + 2 ^ n else r)

/-- The first 64 primes. -/
def primes64 : List Nat :=
  ((List.range 312).filter fun n => 2 ≤ n && (List.range 18).all fun d => d < 2 || n ≤ d || n % d != 0)

/-- The round constants: the first 32 fraction bits of the cube roots of the primes. -/
def shaK : List Word := primes64.map fun p => BitVec.ofNat 32 (rootBits 3 (p * 2 ^ 96) 35 0)
/-- The initial hash value: the first 32 fraction bits of the square roots of the first eight primes. -/
def shaH0 : List Word := (primes64.take 8).map fun p => BitVec.ofNat 32 (rootBits 2 (p * 2 ^ 64) 37 0)

/-- A big-endian word of four bytes. -/
def beWord (l : List Byte) : Word := BitVec.ofNat 32 (beNat (l.take 4))
/-- The big-endian bytes of a number. -/
def beBytes (n x : Nat) : List Byte := (leBytes n x).reverse

/-- The padded message: a 1 bit, zeros, and the bit length in 64 bits. -/
def shaPad (m : List Byte) : List Byte :=
  m ++ [0x80] ++ List.replicate ((119 - m.length % 64) % 64) 0 ++ beBytes 8 (8 * m.length)

/-- One word of the message schedule, from the words so far, newest first. -/
def shaNext (w : List Word) : Word :=
  let x := w.getD 1 0
  let y := w.getD 14 0
  (x.rotateRight 17 ^^^ x.rotateRight 19 ^^^ (x >>> 10)) + w.getD 6 0 + (y.rotateRight 7 ^^^ y.rotateRight 18 ^^^ (y >>> 3)) + w.getD 15 0

/-- The message schedule of a block of 64 bytes. -/
def shaSchedule (blk : List Byte) : List Word :=
  let w0 := ((List.range 16).map fun i => beWord (blk.drop (4 * i))).reverse
  ((List.range 48).foldl (fun w _ => shaNext w :: w) w0).reverse

/-- One round, over a, b, …, h. -/
def shaRound (s : List Word) (kw : Word × Word) : List Word :=
  match s with
  | [a, b, c, d, e, f, g, h] =>
    let t1 := h + (e.rotateRight 6 ^^^ e.rotateRight 11 ^^^ e.rotateRight 25) + ((e &&& f) ^^^ (~~~e &&& g)) + kw.1 + kw.2
    let t2 := (a.rotateRight 2 ^^^ a.rotateRight 13 ^^^ a.rotateRight 22) + ((a &&& b) ^^^ (a &&& c) ^^^ (b &&& c))
    [t1 + t2, a, b, c, d + t1, e, f, g]
  | _ => s

/-- The compression of one block. -/
def shaBlock (h : List Word) (blk : List Byte) : List Word :=
  List.zipWith (· + ·) h ((shaK.zip (shaSchedule blk)).foldl shaRound h)

/-- SHA-256 of a byte string, 32 bytes. -/
def sha256 (m : List Byte) : List Byte :=
  let p := shaPad m
  let h := (List.range (p.length / 64)).foldl (fun h i => shaBlock h ((p.drop (64 * i)).take 64)) shaH0
  h.flatMap fun w => beBytes 4 w.toNat

/-- HMAC-SHA-256. -/
def hmacSha256 (key m : List Byte) : List Byte :=
  let k0 := if 64 < key.length then sha256 key else key
  let k := k0 ++ List.replicate (64 - k0.length) 0
  sha256 (k.map (· ^^^ 0x5C) ++ sha256 (k.map (· ^^^ 0x36) ++ m))

/-! ### ECDSA P-256 -/

def p256P : Nat := 2 ^ 256 - 2 ^ 224 + 2 ^ 192 + 2 ^ 96 - 1
def p256N : Nat := 0xFFFFFFFF00000000FFFFFFFFFFFFFFFFBCE6FAADA7179E84F3B9CAC2FC632551
def p256B : Nat := 0x5AC635D8AA3A93E7B3EBBD55769886BC651D06B0CC53B0F63BCE3C3E27D2604B
def p256G : Nat × Nat :=
  (0x6B17D1F2E12C4247F8BCE6E563A440F277037D812DEB33A0F4A13945D898C296, 0x4FE342E2FE1A7F9B8EE7EB4A7C0F9E162BCE33576B315ECECBB6406837BF51F5)

/-- x^e modulo m, over the low `n` bits of e. -/
def powMod (m : Nat) : Nat → Nat → Nat → Nat
  | 0, _, _ => 1 % m
  | n + 1, x, e => let r := powMod m n (x * x % m) (e / 2); if e % 2 = 1 then r * x % m else r
/-- The inverse modulo a prime. -/
def invMod (m x : Nat) : Nat := powMod m 256 (x % m) (m - 2)
/-- x − y modulo m. -/
def subMod (m x y : Nat) : Nat := (x + m - y % m) % m

/-- A point of the curve; none is the point at infinity. -/
abbrev EcPoint := Option (Nat × Nat)

/-- The sum of two points. -/
def ecAdd (a b : EcPoint) : EcPoint :=
  match a, b with
  | none, q => q
  | p, none => p
  | some (x1, y1), some (x2, y2) =>
    if x1 = x2 ∧ (y1 + y2) % p256P = 0 then none
    else
      let l := if x1 = x2 then (3 * (x1 * x1) + (p256P - 3)) * invMod p256P (2 * y1) % p256P
               else subMod p256P y2 y1 * invMod p256P (subMod p256P x2 x1) % p256P
      let x3 := subMod p256P (subMod p256P (l * l) x1) x2
      some (x3, subMod p256P (l * subMod p256P x1 x3) y1)

/-- k × P over the low `n` bits of k. -/
def ecMul : Nat → Nat → EcPoint → EcPoint
  | 0, _, _ => none
  | n + 1, k, p => let r := ecMul n (k / 2) (ecAdd p p); if k % 2 = 1 then ecAdd r p else r

/-- Whether (r, s) is a signature of a hash under the key Q (FIPS 186). -/
def ecdsaVerify (hash : Nat) (r s qx qy : Nat) : Bool :=
  decide (0 < r ∧ r < p256N ∧ 0 < s ∧ s < p256N ∧ qx < p256P ∧ qy < p256P) &&
  (qy * qy % p256P == (qx * qx * qx + (p256P - 3) * qx + p256B) % p256P) &&
  (let w := invMod p256N s
   match ecAdd (ecMul 256 (hash * w % p256N) (some p256G)) (ecMul 256 (r * w % p256N) (some (qx, qy))) with
   | none => false
   | some (x, _) => x % p256N == r)

/-! ### AES-128 -/

/-- Multiplication by x in GF(2^8), and the product. -/
def xtime (a : Byte) : Byte := (a <<< 1) ^^^ (if a.msb then 0x1B else 0)
def gmul (a b : Byte) : Byte := ((List.range 8).foldl (fun (acc : Byte × Byte) i =>
  (if b.getLsbD i then acc.1 ^^^ acc.2 else acc.1, xtime acc.2)) (0, a)).1
/-- The inverse in GF(2^8), a^254; 0 for 0. -/
def ginv (a : Byte) : Byte :=
  let a2 := gmul a a
  let a4 := gmul a2 a2
  let a8 := gmul a4 a4
  let a16 := gmul a8 a8
  let a32 := gmul a16 a16
  let a64 := gmul a32 a32
  gmul (gmul (gmul a2 a4) (gmul a8 a16)) (gmul (gmul a32 a64) (gmul a64 a64))
/-- The S-box and its inverse. -/
def sboxOf (a : Byte) : Byte :=
  let i := ginv a
  i ^^^ i.rotateLeft 1 ^^^ i.rotateLeft 2 ^^^ i.rotateLeft 3 ^^^ i.rotateLeft 4 ^^^ 0x63
def invSboxOf (a : Byte) : Byte := ginv (a.rotateLeft 1 ^^^ a.rotateLeft 3 ^^^ a.rotateLeft 6 ^^^ 0x05)

/-- Byte-wise exclusive or. -/
def xorBytes (a b : List Byte) : List Byte := List.zipWith (· ^^^ ·) a b

/-- The key schedule: 11 round keys of 16 bytes. -/
def aesKeys (key : List Byte) : List (List Byte) :=
  let step (k : List Byte) (rc : Byte) : List Byte :=
    let t := [k.getD 13 0, k.getD 14 0, k.getD 15 0, k.getD 12 0].map sboxOf
    let w0 := xorBytes (k.take 4) (xorBytes t [rc, 0, 0, 0])
    let w1 := xorBytes ((k.drop 4).take 4) w0
    let w2 := xorBytes ((k.drop 8).take 4) w1
    w0 ++ w1 ++ w2 ++ xorBytes ((k.drop 12).take 4) w2
  (([0x01, 0x02, 0x04, 0x08, 0x10, 0x20, 0x40, 0x80, 0x1B, 0x36] : List Byte).foldl
    (fun (acc : List (List Byte) × List Byte) rc => let k := step acc.2 rc; (acc.1 ++ [k], k)) ([key], key)).1

/-- ShiftRows and its inverse: byte `i` of the state comes from column (i / 4 ± i % 4). -/
def shiftRows (s : List Byte) : List Byte := (List.range 16).map fun i => s.getD (4 * ((i / 4 + i % 4) % 4) + i % 4) 0
def invShiftRows (s : List Byte) : List Byte := (List.range 16).map fun i => s.getD (4 * ((i / 4 + 4 - i % 4) % 4) + i % 4) 0
/-- MixColumns by the first row of its matrix. -/
def mixColumns (c : List Byte) (s : List Byte) : List Byte :=
  (List.range 16).map fun i =>
    (List.range 4).foldl (fun acc j => acc ^^^ gmul (c.getD ((j + 4 - i % 4) % 4) 0) (s.getD (4 * (i / 4) + j) 0)) 0

/-- AES-128 of one block of 16 bytes. -/
def aesEncrypt (key blk : List Byte) : List Byte :=
  let ks := aesKeys key
  let s0 := xorBytes blk (ks.getD 0 [])
  let s9 := (List.range 9).foldl (fun s r => xorBytes (mixColumns [2, 3, 1, 1] (shiftRows (s.map sboxOf))) (ks.getD (r + 1) [])) s0
  xorBytes (shiftRows (s9.map sboxOf)) (ks.getD 10 [])
/-- Its inverse. -/
def aesDecrypt (key blk : List Byte) : List Byte :=
  let ks := aesKeys key
  let s0 := (invShiftRows (xorBytes blk (ks.getD 10 []))).map invSboxOf
  let s9 := (List.range 9).foldl (fun s r =>
    (invShiftRows (mixColumns [14, 11, 13, 9] (xorBytes s (ks.getD (9 - r) [])))).map invSboxOf) s0
  xorBytes s9 (ks.getD 0 [])

/-! ### RFC 3394 -/

/-- One step of the unwrap: A and the registers, at the counter `t`. -/
def unwrapStep (kek : List Byte) (n : Nat) (acc : List Byte × List (List Byte)) (t : Nat) : List Byte × List (List Byte) :=
  let i := (t - 1) % n
  let d := aesDecrypt kek (xorBytes acc.1 (beBytes 8 t) ++ acc.2.getD i [])
  (d.take 8, setAt acc.2 i (d.drop 8))

/-- The key that a wrapped key of (n + 1) × 8 bytes carries; none when its integrity check fails. -/
def keyUnwrap (kek wrapped : List Byte) : Option (List Byte) :=
  let n := wrapped.length / 8 - 1
  let r := (List.range n).map fun i => (wrapped.drop (8 * (i + 1))).take 8
  let (a, out) := ((List.range (6 * n)).map fun j => 6 * n - j).foldl (unwrapStep kek n) (wrapped.take 8, r)
  if a = List.replicate 8 0xA6 then some out.flatten else none

/-! ### XTS-AES-128 -/

/-- The next tweak: multiplication by x in GF(2^128), little-endian. -/
def xtsNext (t : List Byte) : List Byte :=
  let x := leNat t
  leBytes 16 ((x * 2 % 2 ^ 128) ^^^ (if 2 ^ 127 ≤ x then 0x87 else 0))

/-- One block under a tweak. -/
def xtsBlock (k1 t blk : List Byte) : List Byte := xorBytes (aesDecrypt k1 (xorBytes blk t)) t

/-- The whole blocks of a data unit, in order, with the tweak that follows. -/
def xtsBlocks (k1 : List Byte) : Nat → List Byte → List Byte → List Byte × List Byte
  | 0, t, _ => ([], t)
  | n + 1, t, l => let (o, t') := xtsBlocks k1 n (xtsNext t) (l.drop 16); (xtsBlock k1 t (l.take 16) ++ o, t')

/-- Decryption of one data unit of at least 16 bytes, with ciphertext stealing (R444). -/
def xtsUnit (k1 k2 : List Byte) (ix : Nat) (c : List Byte) : List Byte :=
  let t0 := aesEncrypt k2 (leBytes 16 ix)
  let r := c.length % 16
  if r = 0 then (xtsBlocks k1 (c.length / 16) t0 c).1
  else
    let m := c.length / 16
    let (head, t) := xtsBlocks k1 (m - 1) t0 c
    let pp := xtsBlock k1 (xtsNext t) ((c.drop (16 * (m - 1))).take 16)
    let tail := c.drop (16 * m)
    head ++ xtsBlock k1 t (tail ++ pp.drop r) ++ pp.take r

/-- Decryption of a section in data units of 4,096 bytes (R444). -/
def xtsSection (key : List Byte) (c : List Byte) : List Byte :=
  (List.range (ceilDiv c.length 4096)).flatMap fun i => xtsUnit (key.take 16) (key.drop 16) i ((c.drop (4096 * i)).take 4096)

end Sys2Proof.Machine
end

