-- ==== Sys2Proof/Machine/Sec.lean ====
section
/-! DEFINITION. Identity, the TRNG and unlocking (R437–R443). -/

namespace Sys2Proof.Machine

/-- Set the security unit. -/
def setSec (f : Sec → Sec) (b : Block) : Block := { b with sec := f b.sec }

/-- The next word of the TRNG (R438), whose values are free. -/
def trngDraw (b : Block) : Word × Block := (Config.trngWord b.sec.drawn, setSec (fun s => { s with drawn := s.drawn + 1 }) b)

/-- A read of SEC_TRNG: a random word is consumed, or 0 while none is ready. -/
def trngRead (b : Block) : Word × Block := if b.on SEC_TRNG_STAT_ready then trngDraw b else (0, b)

/-- A health test fails (R438): output stops. -/
def trngFail (b : Block) : Block :=
  (((b.put SEC_STAT_trng_fail 1).put SEC_TRNG_STAT_ready 0).bump SEC_TRNG_STAT_health_fails).flag SEC_IRQ_STAT_trng
/-- 1,024 samples have passed: output goes on. -/
def trngRecover (b : Block) : Block :=
  if b.on SEC_STAT_trng_fail then (b.put SEC_STAT_trng_fail 0).put SEC_TRNG_STAT_ready 1 else b

/-- The nonce is no longer valid: SEC_NONCE0–3 read 0 (R442). -/
def dropNonce (b : Block) : Block :=
  (List.range 4).foldl (fun acc n => acc.setNum (SEC_NONCE n) 0) (setSec (fun s => { s with nonce := false }) b)

/-- SEC_UNLK.chal (R441, R442): a 128-bit nonce is drawn; it replaces an earlier one. A stopped TRNG gives none. -/
def challenge (b : Block) : Block :=
  if b.on SEC_STAT_trng_fail then b
  else (List.range 4).foldl (fun acc n => let (w, a) := trngDraw acc; a.setNum (SEC_NONCE n) w.toNat)
    (setSec (fun s => { s with nonce := true }) b)

/-- The response that the host has written: 32 bytes. -/
def responseBytes (b : Block) : List Byte := (List.range 8).flatMap fun n => leBytes 4 (b.num (SEC_RESP n))
/-- The nonce's 16 bytes. -/
def nonceBytes (b : Block) : List Byte := (List.range 4).flatMap fun n => leBytes 4 (b.num (SEC_NONCE n))

/-- Whether the response matches for the scope in SEC_UNLK.scope (R441). -/
def responseMatches (b : Block) : Bool :=
  if b.get SEC_STAT_method = 1 then
    responseBytes b == hmacSha256 b.sec.fuses.unlockKey
      (nonceBytes b ++ leBytes 8 b.sec.serial ++ leBytes 1 (b.get SEC_UNLK_scope))
  else responseBytes b == (b.sec.fuses.password ++ List.replicate 16 0).take 16 ++ List.replicate 16 0

/-- The result of a submit, and its flag: 1 opened, 2 refused, 3 lockout. -/
def unlockResult (r : Nat) (b : Block) : Block :=
  (b.put SEC_UNLK_result r).flag (if r = 1 then SEC_IRQ_STAT_unlock else SEC_IRQ_STAT_refused)

/-- The scopes open (R441, R443): bypass arms the bypass while IMG_AUTH is set. -/
def openScopes (b : Block) : Block :=
  let sc := b.get SEC_UNLK_scope
  let b1 := b.put SEC_STAT_opn (b.get SEC_STAT_opn ||| sc)
  unlockResult 1 (if sc / 4 % 2 = 1 ∧ b.on SEC_STAT_img_auth then b1.put SEC_STAT_bypass_armed 1 else b1)

/-- A refused response (R442): it counts, and the 1 s lockout begins. -/
def refuseResponse (b : Block) : Block :=
  let n := min 16 (b.sec.fails + 1)
  unlockResult 2 ((setSec (fun s => { s with fails := n, lockout := true }) b).put SEC_STAT_fails n)

/-- SEC_UNLK.submit (R441, R442). With method 0 no response is judged. -/
def submitUnlock (b : Block) : Block :=
  if b.sec.fails ≥ 16 ∨ b.sec.lockout then unlockResult 3 b
  else if b.get SEC_STAT_method = 0 ∨ b.get SEC_STAT_method = 3 then unlockResult 2 b
  else if b.get SEC_STAT_method = 1 then
    if !b.sec.nonce then unlockResult 2 b
    else if responseMatches b then dropNonce (openScopes b) else dropNonce (refuseResponse b)
  else if responseMatches b then openScopes b else refuseResponse b

/-- A write of SEC_UNLK: the scope, then a submit against the old nonce, then a challenge (R442). -/
def unlockWrite (v : Word) (b : Block) : Block :=
  let b1 := b.put SEC_UNLK_scope (v.toNat % 8)
  let b2 := if v.toNat / 512 % 2 = 1 then submitUnlock b1 else b1
  if v.toNat / 256 % 2 = 1 then challenge b2 else b2

/-- The fuses as loaded at a start-up show in SEC_STAT and SEC_SERIAL (R437, R439, R440): with DBG_LOCK clear the debug and test
scopes are open. -/
def loadFuses (b : Block) : Block :=
  let f := b.sec.burned
  let bit (x : Bool) (n : Nat) : Nat := if x then 2 ^ n else 0
  let b1 := setSec (fun s => { s with fuses := f }) b
  let b2 := ((b1.put SEC_STAT_dbg_lock (bit f.dbgLock 0)).put SEC_STAT_img_auth (bit f.imgAuth 0)).put SEC_STAT_method f.method
  let b3 := b2.put SEC_STAT_prog (bit (f.keyHash != []) 0 + bit (f.unlockKey != []) 1 + bit (f.password != []) 2 + bit (f.lkek != []) 3)
  ((b3.put SEC_STAT_opn (if f.dbgLock then 0 else 3)).put SEC_STAT_fails b.sec.fails).setNum SEC_SERIAL b.sec.serial

end Sys2Proof.Machine
end

