-- ==== Sys2Proof/Machine/RegBus.lean ====
section
/-! DEFINITION. One read or write of one register by a bus master (R3–R7): the access codes, the 64-bit pairs with their shadows, the
read-only values that follow from other state, and the effect of writing each register that has one. -/

namespace Sys2Proof.Machine

/-! ### Read-only values that follow from other state -/

/-- The query and count values of a harness and of the voices. -/
def countVoices (b : Block) (f : Voice → Bool) : Nat := ((voicesOf b).filter fun kv => f kv.2).length

/-- KiB that the SysEx queue holds, rounded up (R405). -/
def syxFill (b : Block) : Nat := ceilDiv (sumNat (b.sys.syx.map fun m => m.2.length)) 1024

/-- Doorbell slots partly written (R396). -/
def partialSlots (b : Block) : Nat :=
  ((List.range 256).filter fun s => b.sys.doorbell.any fun kv => kv.1 / 16 == s && kv.2.isSome).length

/-- The entry of the repair map that MEM_REPAIR_IDX names (R319): column, used. -/
def repairEntry (b : Block) : Nat :=
  let x := FMap.get (fun _ => 0) b.mm.repair (8 * b.get MEM_REPAIR_IDX_array + b.get MEM_REPAIR_IDX_spare)
  if x = 0 then 0 else x - 1 + 2 ^ 15

/-- A value of a field in place. -/
def inField (f : Fld) (v : Nat) (x : Long) : Long := f.put x v

/-- The value that the register at `k` shows, where it follows from other state; `v` is what the register file holds. -/
def shownValue (b : Block) (k : Nat) (v : Long) : Long :=
  let ix (base stride : Nat) : Nat := (k - base) / stride
  if k = SYS_IRQ_STAT then BitVec.ofNat 64 (raised b)
  else if k = SYS_MPLOAD then
    let load := Config.mpLoad b.now % 101
    inField SYS_MPLOAD_syx_fill (min 64 (syxFill b)) (inField SYS_MPLOAD_peak (max load (Config.mpPeak b.now % 101)) (inField SYS_MPLOAD_load load v))
  else if k = HIF_DB_STAT then inField HIF_DB_STAT_partial (partialSlots b) v
  else if k = TBU_BEAT_RATE then BitVec.ofNat 64 (beatRate b)
  else if k = EFE_MARK_STAT then inField EFE_MARK_STAT_count b.efe.marks.length v
  else if k = EFE_PEND then inField EFE_PEND_pending (b.efe.delayed.length) v
  else if k = VAL_STAT then
    inField VAL_STAT_fading (countVoices b fun x => x.st == .fading) (inField VAL_STAT_voices (countVoices b fun _ => true) v)
  else if k = MIX_STAT then inField MIX_STAT_quar (b.get DLR_STAT_quar) v
  else if k = REL_STAT then inField REL_STAT_quar (b.get DLR_STAT_quar) v
  else if k = LEG_STAT then
    inField LEG_STAT_active (if b.on DLR_STAT_running ∧ ¬ dvOverload b then b.get LEG_CTL_en else 0)
      (inField LEG_STAT_pins (if b.get LEG_CTL_en = 0 then 0 else 1) (inField LEG_STAT_delay (dvDelay b) v))
  else if k = MEM_REPAIR then BitVec.ofNat 64 (repairEntry b)
  else if decide (TBU_TPAIR 0 ≤ k ∧ k ≤ TBU_TPAIR 3) then
    let i := ix (TBU_TPAIR 0) 8
    BitVec.ofNat 64 (b.num (TBU_TMR_VAL (2 * i)) + 2 ^ 32 * b.num (TBU_TMR_VAL (2 * i + 1)))
  else if decide (EFE_SRC_SEQ 0 ≤ k ∧ k ≤ EFE_SRC_SEQ 15) && (k - EFE_SRC_SEQ 0) % 0x20 == 0 then
    inField (EFE_SRC_SEQ_fill (ix (EFE_SRC_SEQ 0) 0x20)) (statusFifo b (ix (EFE_SRC_SEQ 0) 0x20)).length v
  else if decide (DLR_HUSE 0 ≤ k ∧ k ≤ DLR_HUSE 31) && (k - DLR_HUSE 0) % 0x10 == 0 then
    BitVec.ofNat 64 (admitted b (ix (DLR_HUSE 0) 0x10))
  else if decide (DLR_HINFO 0 ≤ k ∧ k ≤ DLR_HINFO 31) && (k - DLR_HINFO 0) % 0x10 == 0 then
    let h := ix (DLR_HINFO 0) 0x10
    inField (DLR_HINFO_voices h) (admittedVoices b h) v
  else if decide (SHT_SSTAT 0 ≤ k ∧ k ≤ SHT_SSTAT 159) && (k - SHT_SSTAT 0) % 0x10 == 0 then
    inField (SHT_SSTAT_role (ix (SHT_SSTAT 0) 0x10)) (roleOf b (ix (SHT_SSTAT 0) 0x10)) v
  else if decide (MIX_RGAIN 0 ≤ k ∧ k ≤ MIX_RGAIN 255) then
    if (headOf b (ix (MIX_RGAIN 0) 4)).isSome then v else 0
  else if decide (MIX_BUS 0 ≤ k ∧ k ≤ MIX_BUS 255) then
    match headOf b (ix (MIX_BUS 0) 4) with
    | none => 0
    | some e => BitVec.ofNat 64 (e.prog + 2 ^ 8 * e.looms + (if e.stereo then 2 ^ 12 else 0) + 2 ^ 16 * e.ret0 + 2 ^ 24 * e.ret1)
  else if decide (0x40e01000 ≤ k ∧ k < 0x40e01400) then
    BitVec.ofNat 64 (dvRead b ((k - 0x40e01000) / 0x100) ((k - 0x40e01000) % 0x100 / 4))
  else v

/-! ### Shadows (R7) -/

/-- A master's read shadow and write shadow. -/
def rdShadow (b : Block) (m : Nat) : Word := FMap.get (fun _ => 0) b.bus.rdShadow m
def wrShadow (b : Block) (m : Nat) : Word := FMap.get (fun _ => 0) b.bus.wrShadow m
/-- Set them. -/
def setRdShadow (m : Nat) (v : Word) (b : Block) : Block := { b with bus := { b.bus with rdShadow := FMap.set (fun _ => 0) b.bus.rdShadow m v } }
def setWrShadow (m : Nat) (v : Word) (b : Block) : Block := { b with bus := { b.bus with wrShadow := FMap.set (fun _ => 0) b.bus.wrShadow m v } }

/-! ### Reading -/

/-- The RC bits of a register are cleared by a read, and those that hardware sets in the same cycle stay set (R5, R6). -/
def clearRc (h : RegHit) (hw : Nat) (b : Block) : Block :=
  let x := b.rd h.key
  b.wr h.key ((x &&& ~~~ BitVec.ofNat 64 h.desc.rc) ||| BitVec.ofNat 64 (hw &&& h.desc.rc))

/-- LEG_TBL_DATA: the entry at the index, which advances (R358). -/
def tblRead (b : Block) : Word × Block :=
  (BitVec.ofNat 32 (dvTable (b.get LEG_TBL_ADDR_index)), b.put LEG_TBL_ADDR_index (b.get LEG_TBL_ADDR_index + 1))

/-- A read of the register at `h` by master `m`; `hw`: RC bits that hardware sets in the same cycle. -/
def readHit (m : Nat) (h : RegHit) (hw : Word) (b : Block) : Word × Block :=
  let k := h.key
  if h.desc.wide then
    if h.high then (rdShadow b m, b)
    else
      let x := shownValue b k (b.rd k)
      let b1 := setRdShadow m x.hi b
      (x.lo, if decide (TBU_CAP_VAL 0 ≤ k ∧ k ≤ TBU_CAP_VAL 7) && (k - TBU_CAP_VAL 0) % 0x10 == 0
        then captureTake ((k - TBU_CAP_VAL 0) / 0x10) b1 else b1)
  else if decide (EFE_SRC_STAT 0 ≤ k ∧ k ≤ EFE_SRC_STAT 15) && (k - EFE_SRC_STAT 0) % 0x20 == 0 then
    statusRead ((k - EFE_SRC_STAT 0) / 0x20) b
  else if k = EFE_MARK then markRead b
  else if k = DCH_CROM_DATA then cromRead b
  else if k = LEG_TBL_DATA then tblRead b
  else if k = SEC_TRNG then trngRead b
  else
    let d := h.desc
    let seen := BitVec.ofNat 64 (d.rw ||| d.rwl ||| d.w1c ||| d.w1s ||| d.rc ||| d.ro)
    ((shownValue b k (b.rd k) &&& seen).lo, clearRc h hw.toNat b)

/-- The word at the aligned address `a` of a register block (R4): an offset that no register occupies reads 0. -/
def regRead (m a : Nat) (hw : Word) (b : Block) : Word × Block :=
  match regAt a with
  | none => (0, b)
  | some h => readHit m h hw b

/-! ### Writing -/

/-- TBU_REF_CFG is written (R29): auto_rate and fall act at once, and auto_rate in RATE_FAULT leads to DETECT (R30); a change of src, sap or rate is staged, the last write before the
boundary counts, and the outputs fade over the pick that starts there. A change taken back before the boundary asks for no stop. -/
def refCfgWrite (v : Word) (b : Block) : Block :=
  if b.on SYS_CTL_cfg_lock then b
  else
    let b1 := b.setNum TBU_REF_CFG (v.toNat % 0x400)
    let b1 := if b1.on TBU_REF_CFG_auto_rate ∧ b1.get TBU_REF_STAT_state = 4 then b1.put TBU_REF_STAT_state 5 else b1
    let sel : RefSel := ⟨b1.get TBU_REF_CFG_src, b1.get TBU_REF_CFG_sap, b1.get TBU_REF_CFG_rate⟩
    if sel = b1.tbu.sel then
      let back := b1.tbu.staged.isSome && b1.tbu.stopAfter == some (b1.pickNo + 1) && b1.tbu.holds.isEmpty && b1.wft.dNext.isNone &&
        decide (b1.get TBU_REF_STAT_state ≤ 2)
      { b1 with tbu := { b1.tbu with staged := none, stopAfter := if back then none else b1.tbu.stopAfter } }
    else askStop { b1 with tbu := { b1.tbu with staged := some sel } }

/-- EFE_CTL is written (R51): a MIDI input that is enabled waits for its first status byte, and what waits of a source that is
disabled is ignored as its input is. -/
def efeCtlWrite (v : Word) (b : Block) : Block :=
  let on := (List.range 4).filter fun n => v.toNat.testBit n && !b.bit EFE_CTL_en n
  let b1 := { b with efe := { b.efe with
    synced := b.efe.synced.filter fun n => !on.contains n
    waiting := b.efe.waiting.filter fun it => v.toNat.testBit it.src
    mpWait := if v.toNat.testBit 9 then b.efe.mpWait else [] } }
  (on.foldl (fun acc n => setRunning n 0 acc) b1).setNum EFE_CTL (v.toNat % 0x400)

/-- HIF_DB_STAT.clr: partial slots are emptied without being taken (R396). -/
def doorbellClear (b : Block) : Block := { b with sys := { b.sys with doorbell := [] } }

/-- A channel's setup registers, which its start latches; as and irq are plain. -/
def dmaCtlWrite (c : Nat) (v : Word) (b : Block) : Block :=
  let b1 := (b.put (BMX_DMA_CTL_as c) (v.toNat / 4 % 2)).put (BMX_DMA_CTL_irq c) (v.toNat / 8 % 2)
  let b2 := if v.getLsbD 0 then dmaStart c b1 else b1
  if v.getLsbD 1 then dmaAbort c b2 else b2

/-- A write of SYS_RST (R375): without the key it has no effect. The reset itself follows when the access has ended. -/
def sysRst (v : Word) (b : Block) : Block :=
  if v.toNat / 65536 = 0xC1A5 then
    { b with sys := { b.sys with reqChip := b.sys.reqChip || v.getLsbD 0, reqMp := b.sys.reqMp || v.getLsbD 1 } }
  else b

/-- A write of SYS_BOOT_LEN (R378): 0 and lengths above 512 MiB are ignored; a push that is awaited is then processed. -/
def bootLenWrite (v : Word) (b : Block) : Block :=
  let n := v.toNat % 2 ^ 30
  if n = 0 ∨ 0x20000000 < n then b
  else { b.put SYS_BOOT_LEN_bytes n with sys := { b.sys with reqBoot := b.sys.reqBoot || b.on SYS_STAT_push_wait } }

/-- A kick by the MP (R406). -/
def sysKick (m : Nat) (v : Word) (b : Block) : Block :=
  if m = 0 ∧ v.toNat % 65536 = 0x6B1C then { b with rel := { b.rel with wdRun := 0 } } else b

/-- The formats in force follow the configuration: OSR (R16), the areas' tails, L_out, D and the capacities. -/
def formatNow (b : Block) : Block :=
  recompute (updateD (computeLout (writeTails { b with tbu := { b.tbu with osr := osrFor (b.get SYS_CFG_osr) b.fs } })))

/-- SYS_CFG is written: pick and osr only before the end of step 9, which the first pick makes, and none under cfg_lock. -/
def sysCfgWrite (v : Word) (b : Block) : Block :=
  if b.on SYS_CTL_cfg_lock then b
  else
    let b1 := b.put SYS_CFG_dev_id (v.toNat / 16 % 128)
    if 9 < b.get SYS_STAT_step ∨ b.tbu.started then b1
    else
      let b2 := (b1.put SYS_CFG_pick (v.toNat % 4)).put SYS_CFG_osr (v.toNat / 4 % 4)
      if b.get SYS_STAT_step = 9 then formatNow b2 else b2

/-- HIF_SPI_STAT is written: clearing err clears its cause (notes/assumptions), unless an error comes in the same cycle (R6). -/
def spiErrClear (v hw : Word) (b : Block) : Block :=
  if v.getLsbD 0 ∧ ¬ hw.getLsbD 0 then (b.put HIF_SPI_STAT_err 0).put HIF_SPI_STAT_cause 0 else b

/-- TBU_TOUT_CFG is written: TEMPO_OUT is low while it is not enabled (R42). -/
def toutCfgWrite (v : Word) (b : Block) : Block :=
  let b1 := b.setNum TBU_TOUT_CFG (v.toNat &&& 0xFF07FF)
  if b1.on TBU_TOUT_CFG_en then b1 else { b1 with tbu := { b1.tbu with toutLeft := 0 } }

/-- REL_CTL.unquar (R430): the looms are released at the next pick boundary. -/
def unquarWrite (v : Word) (b : Block) : Block :=
  let ls := (List.range 4).filter fun l => v.toNat.testBit l
  { b.put REL_CTL_unquar (b.get REL_CTL_unquar ||| v.toNat % 16) with
    rel := { b.rel with unquarNext := ls.foldl (fun acc l => addNew l acc) b.rel.unquarNext } }

/-- A write by the access codes of R5 to the register at `h`: the whole value `v`; `hw`: W1C bits that hardware sets in the same
cycle (R6). -/
def writeCodes (h : RegHit) (v : Nat) (hw : Nat) (b : Block) : Block :=
  let d := h.desc
  let plain := if b.on SYS_CTL_cfg_lock then d.rw else d.rw ||| d.rwl
  let x := b.num h.key
  let kept := x - (x &&& (plain ||| d.wo))
  let cleared := kept - (kept &&& (v &&& d.w1c))
  b.setNum h.key ((cleared ||| (v &&& (plain ||| d.w1s ||| d.wo))) ||| (hw &&& d.w1c))

/-- The W1C bits that hardware sets in the cycle of a write stay set (R6). -/
def setHw (h : RegHit) (hw : Nat) (b : Block) : Block :=
  if hw &&& h.desc.w1c = 0 then b else b.setNum h.key (b.num h.key ||| (hw &&& h.desc.w1c))

/-- The index of a register in an array of registers: none when the key is no element of it. -/
def elemOf (k base stride count : Nat) : Option Nat :=
  if base ≤ k ∧ (k - base) % stride = 0 ∧ (k - base) / stride < count then some ((k - base) / stride) else none

/-- The effect of writing one of the single registers that has one; none for the others. -/
def writeSingle (m k : Nat) (v hw : Word) (b : Block) : Option Block :=
  if k = TBU_REF_CFG then some (refCfgWrite v b)
  else if k = TBU_TEMPO_CFG then some (writeTempoCfg v b)
  else if k = TBU_TEMPO then some (writeTempo v b)
  else if k = TBU_TOUT_CFG then some (toutCfgWrite v b)
  else if k = EFE_CTL then some (efeCtlWrite v b)
  else if k = DLR_CANCEL then some (dlrCancel v b.now b)
  else if k = DLR_SNAP_CTL then
    let b1 := if v.getLsbD 0 then snapRequest b else b
    some (if v.getLsbD 1 then snapCancel b1 else b1)
  else if k = VAL_QRY_CMD then some (queryCommand v b)
  else if k = SHT_TAP then some (tapRequest v b)
  else if k = MIX_CTL then some (liveWrite v b)
  else if k = WFT_CTL then some (weftCtl v b)
  else if k = WFT_TUN_CTL then some (tunCtl v b)
  else if k = SYS_RST then some (sysRst v b)
  else if k = SYS_KICK then some (sysKick m v b)
  else if k = SYS_BOOT_LEN then some (bootLenWrite v b)
  else if k = SYS_CFG then some (sysCfgWrite v b)
  else if k = DRC_CFG ∧ 7 ≤ b.get SYS_STAT_step then some b
  else if k = HIF_SPI_STAT then some (spiErrClear v hw b)
  else if k = HIF_DB_STAT then some (if v.getLsbD 9 then doorbellClear b else b)
  else if k = XCH_MB_CTL then some (mbCtl v b)
  else if k = REL_CTL then some (unquarWrite v b)
  else if k = SEC_UNLK then some (unlockWrite v b)
  else none

/-- The effect of writing an element of a register array that has one. -/
def writeElement (k : Nat) (v : Word) (h : RegHit) (b : Block) : Option Block :=
  ((elemOf k (TBU_CMP_CFG 0) 0x10 16).map fun n => compareCfg n v b).or
  (((elemOf k (TBU_TMR_RLD 0) 0x10 8).map fun n => timerReload n v b).or
  (((elemOf k (EFE_MPE 0) 4 20).map fun g => writeZones g v b).or
  (((elemOf k (MIX_RGAIN 0) 4 256).map fun n => if (headOf b n).isSome then writeCodes h v.toNat 0 b else b).or
  (((elemOf k (DCH_LCFG 0) 4 256).map fun l => laneWrite l v b).or
  (((elemOf k (DCH_ICFG 0) 4 128).map fun l => inputWrite l v b).or
  (((elemOf k (SAP_CTL 0) 0x1000 8).map fun n => sapCtlWrite n v b).or
  (((elemOf k (SAP_CFG 0) 0x1000 8).map fun n => if b.on SYS_CTL_cfg_lock then b else sapCfgWrite n v b).or
  (((elemOf k (SAP_MASK 0) 0x1000 8).map fun n => sapPending n (writeCodes h v.toNat 0 b)).or
  (((elemOf k (SAP_CHMAP 0) 0x1000 8).map fun n => sapPending n (writeCodes h v.toNat 0 b)).or
  (((elemOf k (CVO_CH_CFG 0) 0x20 32).map fun n => cvCfgWrite n v b).or
  (((elemOf k (CVO_CH_VAL 0) 0x20 32).map fun n => cvValWrite n v b).or
  (((elemOf k (MEM_BANK_OWN 0) 4 96).map fun n => bankWrite n v b).or
  ((elemOf k (BMX_DMA_CTL 0) 0x20 4).map fun c => dmaCtlWrite c v b)))))))))))))

/-- A write of a 32-bit register by master `m`. -/
def writeWord (m : Nat) (h : RegHit) (v hw : Word) (b : Block) : Block :=
  match (writeSingle m h.key v hw b).or (writeElement h.key v h b) with
  | some b1 => setHw h hw.toNat b1
  | none => writeCodes h v.toNat hw.toNat (if h.key = PWR_ILIM ∨ h.key = PWR_GOV then noteGovWrite b else b)

/-- A commit of a 64-bit pair (R7). -/
def writePair (h : RegHit) (v : Long) (b : Block) : Block :=
  match elemOf h.key (TBU_CMP_VAL 0) 0x10 16 with
  | some n => compareArm n v b
  | none => writeCodes h v.toNat 0 b

/-- A write of the word at the aligned address `a` of a register block by master `m`. -/
def regWrite (m a : Nat) (v hw : Word) (b : Block) : Block :=
  match regAt a with
  | none => b
  | some h =>
    if h.desc.wide then
      if h.high then writePair h (Long.mk v (wrShadow b m)) b else setWrShadow m v b
    else writeWord m h v hw b

end Sys2Proof.Machine
end

