-- ==== Sys2Proof/Machine/Access.lean ====
section
/-! DEFINITION. Accesses by bus masters (R3, R4, R328–R332): memory bursts, the peripheral region, requests that a drain holds, the SPI
target (R391–R393), the PCIe endpoint (R394–R398) and the local tunnel (R349). -/

namespace Sys2Proof.Machine

/-! ### The peripheral region -/

/-- Whether a master reaches a register block (R328): the MP, the host bridges and debug all of them, the legacy bridge LEG alone. -/
def reachesBlock (m base : Nat) : Bool := m == 0 || m == 1 || m == 2 || m == 11 || (m == 3 && base == 0x40E00000)

/-- What an access of `n` bytes to the peripheral region comes to: the register access itself. `v` is the data of a write; `hw` as in
R6. -/
def periphBase (m a n id : Nat) (v : Option Word) (hw : Word) (b : Block) : Resp × Block :=
  if (regBlock (regBlockBase a)).isNone ∨ ¬ reachesBlock m (regBlockBase a) then
    ({ data := if v.isNone then [0] else [], decode := true }, noteDecode a m id v.isSome false b)
  else if n ≠ 4 ∨ a % 4 ≠ 0 then ({ data := if v.isNone then [0] else [], err := true }, b)
  else match v with
    | none => let (x, b1) := regRead m a hw b; ({ data := [x] }, b1)
    | some x => ({}, regWrite m a x hw b)

/-- A tunnelled access to the node's own ID is performed locally, as the SPI bridge (R349). -/
def localTunnel (b : Block) : Block :=
  let a := 0x40000000 + b.num WFT_TUN_ADDR
  let (r, b1) := periphBase 1 a 4 0 (if b.wft.tunWrite then some (BitVec.ofNat 32 (b.num WFT_TUN_DATA)) else none) 0 b
  if r.err || r.decode then tunFinish 3 none b1 else tunFinish 2 ((r.data.head?).map fun x => x.toNat) b1

/-- An access to the peripheral region; a write that starts a tunnelled access to this node is followed by that access. -/
def periphAccess (m a n id : Nat) (v : Option Word) (hw : Word) (b : Block) : Resp × Block :=
  let (r, b1) := periphBase m a n id v hw b
  if a = WFT_TUN_CTL ∧ v.isSome ∧ ¬ tunBusy b ∧ tunBusy b1 ∧ b1.get WFT_TUN_CTL_node = nodeId b1 then (r, localTunnel b1) else (r, b1)

/-! ### Transactions on the matrix -/

/-- Keep a master's last response. -/
def setResp (m : Nat) (r : Resp) (b : Block) : Block := { b with bus := { b.bus with resp := FMap.set (fun _ => {}) b.bus.resp m r } }

/-- Bytes as data with every strobe on. -/
def allBytes (l : List Byte) : List (Option Byte) := l.map some
/-- The bytes of a word with its byte enables. -/
def wordBytes (v : Word) (be : BitVec 4) : List (Option Byte) :=
  (List.range 4).map fun i => if be.getLsbD i then some (BitVec.ofNat 8 (v.toNat / 256 ^ i)) else none

/-- A read of `n` bytes of memory, or a write, by `w` (R310–R318, R326, R328): the response and the block. A read whose word has an
uncorrectable error gets an error response with zero data. `also` is a write of the other port in the same cycle (R316). -/
def memAccess (w : Who) (a n id : Nat) (data : Option (List (Option Byte))) (e : Ecc)
    (also : Option (Who × Nat × List (Option Byte))) (b : Block) : Resp × Block :=
  let write := data.isSome
  let empty : List Word := if write then [] else packWords (List.replicate n 0)
  match answer b w a write with
  | .go =>
    match data with
    | some d =>
      match also with
      | none => ({}, writeStrobes b a d)
      | some (v, a2, d2) => ({}, writeBoth w a d v a2 d2 b)
    | none =>
      let b1 := eccCheck a e false b
      match e with
      -- a stream fetch takes zero data (R324)
      | .uncorrectable _ => ({ data := empty, err := !(decide (7 ≤ w.master ∧ w.master ≤ 10) && w.host) }, b1)
      | _ => ({ data := packWords (memBytes b a n) }, b1)
  | .hold k => ({}, holdFor k { master := w.master, host := w.host, id := id, write := write, addr := a, len := n, data := data.getD [] } b)
  | .decode => ({ data := empty, decode := true }, noteRefused .decode w a id write b)
  | r => ({ data := empty, err := true }, noteRefused r w a id write b)

/-- One transaction (R329): a burst across a 4 KiB boundary is refused at its address; the peripheral region takes single aligned
32-bit accesses. -/
def transact (w : Who) (a n id : Nat) (data : Option (List (Option Byte))) (e : Ecc) (hw : Word)
    (also : Option (Who × Nat × List (Option Byte))) (b : Block) : Resp × Block :=
  let empty : List Word := if data.isSome then [] else packWords (List.replicate n 0)
  if a / 4096 ≠ (a + n - 1) / 4096 then ({ data := empty, decode := true }, noteDecode a w.master id data.isSome true b)
  else if 0x40000000 ≤ a ∧ a < 0x44000000 then
    periphAccess w.master a n id (data.map fun d => BitVec.ofNat 32 (leNat (d.map fun x => x.getD 0))) hw b
  else memAccess w a n id data e also b

/-- A request that waits while its master drains (R332). -/
def waitDrain (w : Who) (a n id : Nat) (data : Option (List (Option Byte))) (b : Block) : Block :=
  { b with mm := { b.mm with drainHeld := b.mm.drainHeld ++
    [{ master := w.master, host := w.host, id := id, write := data.isSome, addr := a, len := n, data := data.getD [] }] } }

/-- A transaction as its master sees it: held while the master drains (R332), else performed, with its response kept. Debug makes none
but under the TAP's DEBUG instruction with its scope open (R445). -/
def request (w : Who) (a n id : Nat) (data : Option (List (Option Byte))) (e : Ecc) (hw : Word)
    (also : Option (Who × Nat × List (Option Byte))) (b : Block) : Block :=
  if w.master = 11 ∧ ¬ (b.sec.tap = 0x10 ∧ debugOpen b) then b
  else if b.bit BMX_MSTAT_draining w.master then waitDrain w a n id data b
  else let (r, b1) := transact w a n id data e hw also b; setResp w.master r b1

/-- A register access by a row that names it: a read. -/
def readReg (m a : Nat) (hw : Word) (b : Block) : Block := request { master := m } a 4 0 none .clean hw none b
/-- A register access by a row that names it: a write. -/
def writeReg (m a : Nat) (v hw : Word) (b : Block) : Block :=
  request { master := m } a 4 0 (some (wordBytes v 0xF)) .clean hw none b

/-- The drain of master `m` ends (R332): the requests it held proceed, in order. -/
def drainDone (m : Nat) (b : Block) : Block :=
  if b.bit BMX_MSTAT_draining m then
    let mine := b.mm.drainHeld.filter fun x => x.master == m
    let b1 := (b.clrBit BMX_MSTAT_draining m).flag BMX_IRQ_STAT_drain_done
    let b2 := { b1 with mm := { b1.mm with drainHeld := b1.mm.drainHeld.filter fun x => x.master != m } }
    let b3 := if m = 0 then { b2 with sys := { b2.sys with mpDown := false } } else b2
    mine.foldl (fun acc x => request { master := m, host := x.host } x.addr x.len x.id (if x.write then some x.data else none) .clean 0 none acc) b3
  else b

/-! ### The SPI target -/

/-- An error of the SPI target: the latest one stands until it is cleared (notes/assumptions). -/
def spiErr (cause : Nat) (b : Block) : Block := ((b.put HIF_SPI_STAT_err 1).put HIF_SPI_STAT_cause cause).flag HIF_IRQ_STAT_spi_err

/-- The status byte (R392). The model's bridge takes every transaction and has no writes outstanding. -/
def spiStatus (b : Block) : Byte :=
  let bit (x : Bool) (n : Nat) : Nat := if x then 2 ^ n else 0
  BitVec.ofNat 8 (bit (!b.bit BMX_MSTAT_draining 1) 0 + bit (b.on XCH_MB_STAT_ready) 1 + bit (irqLow b) 2 + bit (b.on XCH_STAT_coll) 3 +
    bit (b.on HIF_SPI_STAT_err) 4 + bit (decide (queueRoom 4 ≤ queueFill b 4)) 5 +
    bit (decide (b.get SYS_STAT_step < 10) || b.on SYS_STAT_recovery) 7)

/-- The status phase of a transaction. -/
def spiPhase (b : Block) : Block := { b with sys := { b.sys with spiStatus := spiStatus b } }

/-- An error response or a decode error of a word (R393). -/
def spiNote (r : Resp) (b : Block) : Block := if r.decode then spiErr 2 b else if r.err then spiErr 1 b else b

/-- WRITE (R391, R393): words from an address; a partial last word is discarded. -/
def spiWrite (a : Nat) (words : List Word) (part : Bool) (b : Block) : Block :=
  let b1 := (words.foldl (fun (acc : Nat × Block) v =>
    let (r, c) := transact { master := 1 } acc.1 4 0 (some (wordBytes v 0xF)) .clean 0 none acc.2
    (acc.1 + 4, spiNote r c)) (a, spiPhase b)).2
  if part then (spiErr 4 b1).bump HIF_CNT_partial else b1

/-- READ (R391, R393): `n` words from an address; in the peripheral region one word, and ones after it. The word `late` was not ready
when it fell due. -/
def spiRead (a n : Nat) (late : Option Nat) (e : Ecc) (b : Block) : Block :=
  let periph := decide (0x40000000 ≤ a ∧ a < 0x44000000)
  let out := (List.range n).foldl (fun (acc : List Word × Block) i =>
    if periph ∧ 0 < i then (acc.1 ++ [0xFFFFFFFF], acc.2)
    else
      let (r, c) := transact { master := 1 } (a + 4 * i) 4 0 none (if i = 0 then e else .clean) 0 none acc.2
      let c1 := spiNote r c
      if late = some i then (acc.1 ++ [0xFFFFFFFF], (spiErr 3 c1).bump HIF_CNT_late)
      else (acc.1 ++ [r.data.getD 0 0], c1)) ([], spiPhase b)
  setResp 1 { data := out.1 } out.2

/-- EVENT_PUSH (R391): each complete 16 bytes enters source 4; a partial event is discarded. -/
def spiEvents (l : List (BitVec 128)) (part : Bool) (b : Block) : Block :=
  let b1 := l.foldl (fun acc x => submitNative 4 (Ev.ofNat x) acc) (spiPhase b)
  if part then (spiErr 4 b1).bump HIF_CNT_partial else b1

/-- An SPI command without a meaning (R391). -/
def spiBad (b : Block) : Block := (spiErr 5 (spiPhase b)).bump HIF_CNT_badcmd

/-! ### The PCIe endpoint -/

/-- A DWORD of the peripheral region that the bridge asks for; it waits while the bridge drains. -/
def bridgeWord (a : Nat) (v : Option Word) (b : Block) : Resp × Block :=
  let data := v.map fun x => wordBytes x 0xF
  if b.bit BMX_MSTAT_draining 2 then ({}, waitDrain { master := 2 } a 4 0 data b)
  else transact { master := 2 } a 4 0 data .clean 0 none b

/-- A burst of DRAM that the bridge asks for; it waits while the bridge drains. -/
def bridgeBurst (a n : Nat) (data : Option (List (Option Byte))) (e : Ecc) (b : Block) : Resp × Block :=
  if b.bit BMX_MSTAT_draining 2 then ({}, waitDrain { master := 2 } a n 0 data b) else memAccess { master := 2 } a n 0 data e none b

/-- A completion with UR or CA, or a discarded write, is counted. -/
def pcieErr (f : Fld) (b : Block) : Block := (b.bump f).flag HIF_IRQ_STAT_pcie_err

/-- The doorbell's bytes that make up slot `s`, when it is complete. -/
def slotFull (b : Block) (s : Nat) : Option (List Byte) :=
  let l := (List.range 16).map fun i => FMap.get (fun _ => none) b.sys.doorbell (16 * s + i)
  if l.all Option.isSome then some (l.map fun x => x.getD 0) else none

/-- Slot `s` is taken when it is complete: its event enters source 5. -/
def takeSlot (s : Nat) (b : Block) : Block :=
  match slotFull b s with
  | none => b
  | some l =>
    let b1 := (List.range 16).foldl (fun acc i => { acc with sys := { acc.sys with doorbell := FMap.del acc.sys.doorbell (16 * s + i) } }) b
    submitNative 5 (Ev.ofNat (BitVec.ofNat 128 (leNat l))) (b1.bump HIF_DB_STAT_taken)

/-- A write of the doorbell (R396): bytes from offset `o`, those enabled; completed slots are taken in ascending address. -/
def doorbellWrite (o : Nat) (data : List (Option Byte)) (b : Block) : Block :=
  let b1 := (List.range data.length).foldl (fun acc i =>
    match data.getD i none with
    | none => acc
    | some x => { acc with sys := { acc.sys with doorbell := FMap.set (fun _ => none) acc.sys.doorbell ((o + i) % 4096) (some x) } }) b
  (List.range 256).foldl (fun acc s => takeSlot s acc) b1

/-- Vector `v` is unmasked (R398): its pending message is sent when its group's OR is still 1. -/
def msixUnmask (v : Nat) (b : Block) : Block :=
  let b1 := { b with sys := { b.sys with msixPend := b.sys.msixPend.filter (· != v) } }
  if b.sys.msixPend.contains v ∧ (msixOrs b).contains v then msixSend v b1 else b1

/-- A DWORD of the MSI-X table is written with its byte enables. -/
def msixWrite (k : Nat) (v : Word) (be : BitVec 4) (b : Block) : Block :=
  let mask := BitVec.ofNat 32 (leNat ((List.range 4).map fun i => if be.getLsbD i then 0xFF else 0))
  let x := (msixWord b k &&& ~~~ mask) ||| (v &&& mask)
  let y := if k % 4 = 3 then x &&& 1 else if k % 4 = 0 then x &&& 0xFFFFFFFC else x
  let b1 := { b with sys := { b.sys with msix := FMap.set (fun k => if k % 4 = 3 then 1 else 0) b.sys.msix k y } }
  if k % 4 = 3 ∧ msixMasked b (k / 4) ∧ ¬ y.getLsbD 0 then msixUnmask (k / 4) b1 else b1

/-- One DWORD of a BAR0 read (R395). -/
def bar0Read (o : Nat) (be : BitVec 4) (b : Block) : Resp × Block :=
  if 0x03FFE000 ≤ o then
    ({ data := [if o < 0x03FFE080 then msixWord b ((o - 0x03FFE000) / 4)
        else if o = 0x03FFE800 then BitVec.ofNat 32 (sumNat (b.sys.msixPend.map fun v => 2 ^ v)) else 0] }, b)
  else if be ≠ 0xF then ({ err := true }, pcieErr HIF_PCIE_ERR_ca b)
  else
    let (r, c) := bridgeWord (0x40000000 + o) none b
    (r, if r.decode then pcieErr HIF_PCIE_ERR_ur c else if r.err then pcieErr HIF_PCIE_ERR_ca c else c)

/-- One DWORD of a BAR0 write. -/
def bar0Write (o : Nat) (v : Word) (be : BitVec 4) (b : Block) : Block :=
  if 0x03FFF000 ≤ o then doorbellWrite (o - 0x03FFF000) (wordBytes v be) b
  else if 0x03FFE000 ≤ o then if o < 0x03FFE080 then msixWrite ((o - 0x03FFE000) / 4) v be b else b
  else if be ≠ 0xF then pcieErr HIF_PCIE_ERR_discarded b
  else
    let (r, c) := bridgeWord (0x40000000 + o) (some v) b
    if r.decode then pcieErr HIF_PCIE_ERR_ur c else if r.err then pcieErr HIF_PCIE_ERR_ca c else c

/-- A BAR0 read TLP, DWORD by DWORD in address order; `bes` are the byte enables of each. -/
def bar0ReadTlp (o : Nat) (bes : List (BitVec 4)) (b : Block) : Block :=
  let out := bes.foldl (fun (acc : Nat × Resp × Block) be =>
    let (r, c) := bar0Read acc.1 be acc.2.2
    (acc.1 + 4, { data := acc.2.1.data ++ [r.data.getD 0 0], err := acc.2.1.err || r.err, decode := acc.2.1.decode || r.decode }, c))
    (o, {}, b)
  setResp 2 out.2.1 out.2.2

/-- The doorbell bytes of a TLP that lies in the doorbell: one TLP completes its slots together (R396). -/
def bar0WriteTlp (o : Nat) (dws : List (Word × BitVec 4)) (b : Block) : Block :=
  if 0x03FFF000 ≤ o then doorbellWrite (o - 0x03FFF000) (dws.flatMap fun x => wordBytes x.1 x.2) b
  else (dws.foldl (fun (acc : Nat × Block) x => (acc.1 + 4, bar0Write acc.1 x.1 x.2 acc.2)) (o, b)).2

/-- The DRAM address of a BAR2 offset (R397): none where it lies at or beyond the visible size, or before the DRAM is trained. -/
def bar2Addr (b : Block) (a n : Nat) : Option Nat :=
  let o := b.num HIF_BAR2_BASE + a
  if b.on DRC_STAT_trained ∧ o + n ≤ dramSize b then some (0x100000000 + o) else none

/-- A BAR2 read of `n` bytes. -/
def bar2Read (a n : Nat) (e : Ecc) (b : Block) : Block :=
  match bar2Addr b a n with
  | none => setResp 2 { decode := true } (pcieErr HIF_PCIE_ERR_ur b)
  | some x =>
    let (r, c) := bridgeBurst x n none e b
    setResp 2 r (if r.err then pcieErr HIF_PCIE_ERR_ca c else c)

/-- A BAR2 write of bytes with their enables. -/
def bar2Write (a : Nat) (data : List (Option Byte)) (b : Block) : Block :=
  match bar2Addr b a data.length with
  | none => pcieErr HIF_PCIE_ERR_ur b
  | some x =>
    let (r, c) := bridgeBurst x data.length (some data) .clean b
    if r.err then pcieErr HIF_PCIE_ERR_discarded c else c

/-- PERST_N, hot reset or Function Level Reset with `n` bursts accepted (R375): the bridge, its HIF fields, the MSI-X table and the
doorbell. -/
def pcieReset (n : Nat) (b : Block) : Block :=
  let b1 := (((b.setNum HIF_PCIE_STAT 0).setNum HIF_PCIE_ERR 0).setNum HIF_BAR2_BASE 0).setNum HIF_DB_STAT 0
  let b2 := { b1 with sys := { b1.sys with doorbell := [], msix := [], msixPend := [] }
                      bus := { b1.bus with rdShadow := FMap.del b1.bus.rdShadow 2, wrShadow := FMap.del b1.bus.wrShadow 2 } }
  resetMaster 2 n (if b.on HIF_PCIE_STAT_up then b2.flag HIF_IRQ_STAT_link else b2)

/-- The link changes (HIF_PCIE_STAT). -/
def linkChange (up : Bool) (gen width : Nat) (l1 bme : Bool) (b : Block) : Block :=
  let n (x : Bool) : Nat := if x then 1 else 0
  let b1 := ((((b.put HIF_PCIE_STAT_up (n up)).put HIF_PCIE_STAT_gen gen).put HIF_PCIE_STAT_width width).put HIF_PCIE_STAT_l1
    (n l1)).put HIF_PCIE_STAT_bme (n bme)
  if b.on HIF_PCIE_STAT_up != up then b1.flag HIF_IRQ_STAT_link else b1

/-! ### The tunnel's target (R349) -/

/-- A tunnel request reaches this node: the access is made through its SPI bridge slot, and the response returns. -/
def tunnelServe (src tag : Nat) (write : Bool) (o data : Nat) (b : Block) : Block :=
  let (r, b1) := periphAccess 1 (0x40000000 + o) 4 0 (if write then some (BitVec.ofNat 32 data) else none) 0 b
  wsend (.tunResponse src tag (r.err || r.decode) ((r.data.head?.map fun x => x.toNat).getD 0)) b1

end Sys2Proof.Machine
end

