-- ==== Sys2Proof/Machine/Image.lean ====
section
/-! DEFINITION. The image (R380–R390): the header, the section table, the signature and the digests, and the checks that every
chapter makes of its section. -/

namespace Sys2Proof.Machine

/-! ### Header and table (R380, R381) -/

/-- An entry of the section table (R381). -/
structure Sect where
  type : Nat
  flags : Nat
  off : Nat
  len : Nat
  zero : Nat
  digest : List Byte
deriving DecidableEq, Repr

/-- Entry `i` of the table of an image's bytes. -/
def sectEntry (img : List Byte) (i : Nat) : Sect :=
  let o := 0x100 + 48 * i
  { type := numAt img o 2, flags := numAt img (o + 2) 2, off := numAt img (o + 4) 4, len := numAt img (o + 8) 4
    zero := numAt img (o + 12) 4, digest := slice img (o + 16) 32 }

/-- The section table. -/
def sectTable (img : List Byte) : List Sect := (List.range (numAt img 0xC 2)).map (sectEntry img)

/-- Whether the magic of R380 stands at the start. -/
def imageMagic (img : List Byte) : Bool := slice img 0 4 == [0x4C, 0x56, 0x49, 0x4D]

/-- The header checks of R383 that give code 4; `size` is what the source holds and `id` is SYS_ID[15:0]. -/
def headerFits (img : List Byte) (size id : Nat) : Bool :=
  numAt img 4 2 == 0x0100 && numAt img 6 2 == 256 && decide (0x140 ≤ numAt img 8 4 ∧ numAt img 8 4 ≤ 0x20000000) &&
  decide (1 ≤ numAt img 0xC 2 ∧ numAt img 0xC 2 ≤ 22) && decide (numAt img 0xE 2 < 2) && numAt img 0x10 4 == 0x100 &&
  numAt img 0x14 2 == 0x4096 && decide (numAt img 0x16 2 ≤ id) && zeros img 0x34 76 && decide (numAt img 8 4 ≤ size)

/-- Whether two sections lie apart. -/
def Sect.apart (x y : Sect) : Bool := decide (x.off + x.len ≤ y.off ∨ y.off + y.len ≤ x.off ∨ x.len = 0 ∨ y.len = 0)

/-- Whether every section lies apart from the later ones and has a type of its own. -/
def tableApart : List Sect → Bool
  | [] => true
  | x :: l => (l.all fun y => x.apart y && x.type != y.type) && tableApart l

/-- The rules of R381 for the section table. -/
def tableFits (img : List Byte) : Bool :=
  let t := sectTable img
  (t.all fun x => decide (1 ≤ x.type ∧ x.type ≤ 0x16) && (x.flags == 0 || (x.flags == 1 && x.type == 0xB)) && x.zero == 0 &&
    x.off % 64 == 0 && decide (x.off + x.len ≤ numAt img 8 4) && decide (0x100 + 48 * t.length ≤ x.off)) && tableApart t

/-- The bytes of a section. -/
def Sect.bytes (x : Sect) (img : List Byte) : List Byte := slice img x.off x.len

/-- The section of a type in the table. -/
def sectOf (t : List Sect) (ty : Nat) : Option Sect := t.find? fun x => x.type == ty

/-- Whether the signature of R382 is set and good under the key hash of OTP. -/
def signatureOk (img keyHash : List Byte) : Bool :=
  numAt img 0xE 2 % 2 == 1 && sha256 (slice img 0xC0 64) == keyHash &&
  ecdsaVerify (beNat (sha256 (slice img 0 0x80 ++ slice img 0x100 (48 * numAt img 0xC 2))))
    (beNat (slice img 0x80 32)) (beNat (slice img 0xA0 32)) (beNat (slice img 0xC0 32)) (beNat (slice img 0xE0 32))

/-! ### Section checks. `c` is the block as the image would configure it: its `img` holds the image's sections, SYS_CFG, TBU_REF_CFG,
DCH_CFG and the rate are the image's (`tentative`). -/

/-- The words of a section that go into registers: register, offset, mask of its fields. -/
abbrev SectWords := List (Nat × Nat × Nat)

/-- Whether the reserved bytes of such words are zero: those that hold no bit of a field. -/
def sparesZero (s : List Byte) (l : SectWords) : Bool :=
  l.all fun x => (List.range 4).all fun i => x.2.2 / 256 ^ i % 256 != 0 || byteAt s (x.2.1 + i) == 0

/-- The register words of the SYS section (R388). -/
def sysWords : SectWords :=
  [(SYS_CFG, 0, 0x7FF), (SYS_WDOG, 4, 0xFFFF), (XCH_MB_CFG, 8, 0xFFFF), (HIF_SPI_CFG, 0xC, 0x1FF), (SYS_IRQ_PIN_EN, 0x10, 0x7FFFFFF),
    (HIF_PCISUB, 0x14, 0xFFFFFFFF)]

/-- The SYS section (R388): SYS_CFG's pick and osr have no code 3. -/
def sysOk (s : List Byte) : Bool :=
  s.length == 64 && sparesZero s sysWords && numAt s 0 4 % 4 != 3 && numAt s 0 4 / 4 % 4 != 3 && decide (numAt s 0x18 4 < 2) && zeros s 0x1C 36

/-- The PWR section (R423): fields within the ranges of chapter 17. -/
def pwrOk (s : List Byte) : Bool :=
  let bov := numAt s 4 4
  let gov := numAt s 0xC 4
  let lim := numAt s 0x14 4
  let t1 := lim % 256
  let t2 := lim / 256 % 256
  s.length == 64 && decide (5 ≤ numAt s 0 4 ∧ numAt s 0 4 ≤ 40) && decide (60 ≤ bov ∧ bov ≤ 380) && decide (numAt s 8 4 ≤ 1000) &&
  decide (gov &&& 0x00FF03FF = gov ∧ 512 ≤ gov % 1024) && decide (numAt s 0x10 4 < 64) &&
  decide (lim < 0x20000 ∧ 60 ≤ t1 ∧ t1 ≤ 100 ∧ t1 + 1 ≤ t2 ∧ t2 ≤ 105) && decide (numAt s 0x18 4 < 32) && zeros s 0x1C 36

/-- The register words of the TIME section (R49). -/
def timeWords : SectWords :=
  [(TBU_REF_CFG, 0, 0x3FF), (TBU_HOLD, 4, 0xFFFF), (TBU_TOUT_CFG, 0x10, 0xFF07FF)] ++
  ((List.range 16).map fun n => (TBU_CMP_CFG n, 0x20 + 16 * n, 3)) ++ ((List.range 8).map fun n => (TBU_CAP_CFG n, 0x120 + 4 * n, 0x3FF)) ++
  (List.range 8).map fun n => (TBU_TMR_CFG n, 0x140 + 8 * n, 0x1F)

/-- The TIME section (R49). -/
def timeOk (s : List Byte) : Bool := s.length == 384 && zeros s 0x14 12 && sparesZero s timeWords

/-- The register words of the EVENT section but for EFE_CTL and the MPE zones (R80). -/
def eventWords : SectWords :=
  [(EFE_PCAP, 4, 0x1FF)] ++ ((List.range 16).map fun n => (EFE_SRC_CFG n, 0x10 + 4 * n, 0xFFFF)) ++
  ((List.range 4).map fun n => (EFE_MIDI_CFG n, 0x50 + 4 * n, 0xF)) ++
  ((List.range 8).flatMap fun i => [(EFE_GPB_CFG i, 0x100 + 32 * i, 0xFFF), (EFE_GPB_PRESS0 i, 0x108 + 32 * i, 0xFFFFFFFF),
    (EFE_GPB_PRESS1 i, 0x10C + 32 * i, 0xFFFFFFFF), (EFE_GPB_REL0 i, 0x110 + 32 * i, 0xFFFFFFFF),
    (EFE_GPB_REL1 i, 0x114 + 32 * i, 0xFFFFFFFF)]) ++
  (List.range 320).map fun i => (EFE_BIND i, 0x200 + 4 * i, 0xBF)

/-- The EVENT section (R80). -/
def eventOk (s : List Byte) : Bool :=
  s.length == 1792 && sparesZero s ([(EFE_CTL, 0, 0x3FF)] ++ ((List.range 20).map fun g => (EFE_MPE g, 0x80 + 4 * g, 0xF0F)) ++ eventWords) && zeros s 8 8 && zeros s 0x38 24 && zeros s 0x60 32 && zeros s 0xD0 48 &&
  (List.range 8).all fun i => zeros s (0x104 + 32 * i) 4 && zeros s (0x118 + 32 * i) 8

/-- Whether the LEGACY section enables an instance. -/
def legacyOn (c : Block) : Bool := numAt (c.sect 0x12) 0 4 % 16 != 0

/-- The register words of the DEALER section (R111). -/
def dealerWords : SectWords :=
  [(DLR_CFG, 0, 0xF), (DLR_BW_CFG, 4, 0xFFF03FF), (DLR_IRQ_EN, 8, 0x1FF), (DLR_SNAP_ADDR, 0xC, 0x3FFFC0)] ++
  (List.range 8).map fun l => (DLR_WALM l, 0x20 + 4 * l, 0xFFFFF)

/-- The DEALER section (R111). -/
def dealerOk (c : Block) (s : List Byte) : Bool :=
  s.length == 64 && zeros s 0x10 16 && sparesZero s dealerWords && (!legacyOn c || numAt s 0 4 % 2 == 1)

/-- A part entry of the ALLOC section (R141). -/
def partOk (c : Block) (s : List Byte) (o : Nat) : Bool :=
  let fl := numAt s (o + 2) 2
  (c.layers (numAt s o 2)).isSome && decide (fl < 0x400) && fl / 4 % 4 != 3 && fl / 16 % 4 != 3 && fl / 64 % 4 != 3 &&
  fl / 256 % 4 != 3 && inB s (o + 4) 3 6 && inB s (o + 5) 0 7 && inH s (o + 6) 16 512 && inB s (o + 8) 0 15 && inB s (o + 9) 0 15 &&
  inB s (o + 10) 0 96 && inB s (o + 11) 0 96 && inS s (o + 14) 1 (-64) 63 && inB s (o + 15) 0 127 && inB s (o + 16) 0 127 &&
  inB s (o + 17) 0 127 && zeros s (o + 18) 14

/-- The register words of the ALLOC section (R141). -/
def allocWords : SectWords := [(VAL_CFG, 0, 0x3F), (VAL_IRQ_EN, 4, 0x3F)]

/-- The ALLOC section (R141). -/
def allocOk (c : Block) (s : List Byte) : Bool :=
  s.length == 2112 && zeros s 8 56 && sparesZero s allocWords && (List.range 64).all fun p => partOk c s (0x40 + 32 * p)

/-- Whether a customer program's record has a type bit (R234): 0 render and trump, 1 bus. -/
def vcodeType (c : Block) (prog bit : Nat) : Bool :=
  match c.vcodeRec prog with
  | none => false
  | some o => byteAt (c.sect 9) (o + 1) / 2 ^ bit % 2 == 1

/-- Whether a layer's loom mask names only looms that hold every table it reads (R163). -/
def layerTablesOk (c : Block) (ly : Layer) : Bool :=
  let ts := tablesRead ly.prog (c.templateBytes ly.template)
  ts.all fun w => waveMask c w != 0 && (ly.mask &&& waveMask c w) == ly.mask &&
    (ly.mask != 0 || (ts.foldl (fun m v => m &&& waveMask c v) 15) != 0)

/-- Whether a SAMPLE source's map exists and leads to no DV12 entry, and start_ofs lies below the length of its longest entry (R152,
R170). -/
def mapOk (c : Block) (t : List Byte) (o : Nat) : Bool :=
  let zones := mapZones (c.sect 0xA) (numAt t (o + 0x10) 2)
  byteAt t o != 1 || (decide (numAt t (o + 0x10) 2 < numAt (c.sect 0xA) 4 4) &&
    (zones.all fun z => (sampleAt (c.sect 0xA) z.entry).fmt != 4) &&
    zones.any fun z => decide (numAt t (o + 0x14) 4 < (sampleAt (c.sect 0xA) z.entry).len))

/-- The source-block layout of 0x040–0x0FF with the maps that it names (R150, R170). -/
def sourceLayoutOk (c : Block) (t : List Byte) : Bool := sourcesOk t && mapOk c t 0x40 && mapOk c t 0xA0

/-- A layer entry of a record (R142, R143, R163, R170, R204). -/
def layerOk (c : Block) (s : List Byte) (o : Nat) : Bool :=
  let ly := layerAt s o
  let t := c.templateBytes ly.template
  decide (ly.keyLo ≤ ly.keyHi ∧ ly.keyHi ≤ 127) && decide (1 ≤ ly.unison ∧ ly.unison ≤ 8) && decide (byteAt s (o + 3) < 16) &&
  decide (ly.velLo ≤ ly.velHi) && decide (ly.template < c.templateCount) &&
  (ly.prog ≤ 2 || (64 ≤ ly.prog && vcodeType c ly.prog 0)) && zeros s (o + 11) 1 && zeros s (o + 16) 16 &&
  (if ly.prog = 2 then organOk t else sourceLayoutOk c t) && covered ly.prog t && layerTablesOk c ly

/-- A program record at `o` (R142). -/
def recordOk (c : Block) (s : List Byte) (o : Nat) : Bool :=
  decide (0x4000 ≤ o ∧ o + 4 ≤ s.length) && inB s o 1 8 && zeros s (o + 1) 3 && decide (o + 4 + 32 * byteAt s o ≤ s.length) &&
  (List.range (byteAt s o)).all fun i => layerOk c s (o + 4 + 32 * i)

/-- The record offsets of the directory, each once. -/
def recordOffs (s : List Byte) : List Nat :=
  (List.range 4096).foldl (fun acc i => let o := numAt s (4 * i) 4; if o = 0 then acc else addNew' o acc) []
where
  /-- Add to a list without repeats. -/
  addNew' (x : Nat) (l : List Nat) : List Nat := if l.contains x then l else l ++ [x]

/-- Whether no two ranges of a list overlap. -/
def rangesApart : List (Nat × Nat) → Bool
  | [] => true
  | (a, n) :: l => (l.all fun y => decide (a + n ≤ y.1 ∨ y.1 + y.2 ≤ a)) && rangesApart l

/-- The PROGS section (R142). -/
def progsOk (c : Block) (s : List Byte) : Bool :=
  decide (0x4000 ≤ s.length) && (recordOffs s).all (recordOk c s) &&
  rangesApart ((recordOffs s).map fun o => (o, 4 + 32 * byteAt s o))

/-- Every layer that the PROGS section holds. -/
def allLayers (c : Block) : List Layer :=
  (recordOffs (c.sect 7)).flatMap fun o => (List.range (byteAt (c.sect 7) o)).map fun i => layerAt (c.sect 7) (o + 4 + 32 * i)

/-- The VPARAM section (R170). -/
def vparamOk (c : Block) (s : List Byte) : Bool :=
  let n := numAt s 0 4
  decide (1 ≤ n ∧ n ≤ 16384) && zeros s 4 60 && s.length == 64 + 1024 * n &&
  (List.range n).all fun i =>
    let t := slice s (64 + 1024 * i) 1024
    bodyOk t && (sourceLayoutOk c t || organOk t)

/-- A SAMPDIR entry against its half-rate copy (R171). -/
def halfRateOk (x y : Sample) : Bool :=
  y.fmt == x.fmt && y.loopMode == x.loopMode && y.rate == (x.rate + 1) / 2 && y.len == ceilDiv x.len 2 &&
  y.loopStart == x.loopStart / 2 && y.loopLen == x.loopLen / 2 && y.relStart == x.relStart / 2 && y.xfade == x.xfade / 2

/-- Whether an entry lies within the sample data: absent data is not judged. -/
def sampleWithin (c : Block) (x : Sample) : Bool :=
  let n := c.sys.sampLen
  n == 0 || decide (x.off + ceilDiv (x.len * frame5 x.fmt) 5 ≤ n)

/-- A sample entry (R171). -/
def sampleOk (c : Block) (s : List Byte) (i : Nat) : Bool :=
  let x := sampleAt s i
  let copyOf := (List.range (numAt s 0 4)).any fun j => (sampleAt s j).flags / 2 % 2 == 1 && (sampleAt s j).halfRate == i
  x.off % 64 == 0 && sampleWithin c x && decide (1 ≤ x.len) && decide (x.fmt ≤ 4) && decide (x.rootKey ≤ 127) &&
  (decide (8000 ≤ x.rate ∧ x.rate ≤ 384000) || (copyOf && decide (4000 ≤ x.rate ∧ x.rate ≤ 192000))) &&
  decide (x.loopMode ≤ 3) && decide (x.flags < 4) && decide (x.xfade ≤ 4096) && zeros s (0x10 + 48 * i + 42) 6 &&
  (x.flags / 2 % 2 == 0 || (decide (x.halfRate < numAt s 0 4) && halfRateOk x (sampleAt s x.halfRate)))

/-- A map of the SAMPDIR section. -/
def zonesOk (s : List Byte) (m : Nat) : Bool :=
  let o := numAt s (0x10 + 48 * numAt s 0 4 + 4 * m) 4
  inH s o 1 128 && zeros s (o + 2) 2 && decide (o + 4 + 12 * numAt s o 2 ≤ s.length) &&
  (List.range (numAt s o 2)).all fun z =>
    let q := o + 4 + 12 * z
    zeros s (q + 6) 2 && decide (numAt s (q + 8) 4 < numAt s 0 4)

/-- The SAMPDIR section (R171). -/
def sampdirOk (c : Block) (s : List Byte) : Bool :=
  let n := numAt s 0 4
  let m := numAt s 4 4
  decide (1 ≤ n ∧ n ≤ 262144) && decide (1 ≤ m ∧ m ≤ 65536) && zeros s 8 8 && decide (0x10 + 48 * n + 4 * m ≤ s.length) &&
  (List.range n).all (sampleOk c s) && (List.range m).all (zonesOk s)

/-- Bytes of a wavetable of a frame count: 4,094 Q1.15 samples per frame (R163). -/
def waveLen (frames : Nat) : Nat := 8188 * frames

/-- The end of a loom's areas 1 to 6 (R257): the wavetables of loom `l` after its state areas, each aligned to 64 bytes. -/
def loomEnd (c : Block) (l : Nat) : Nat :=
  (List.range (numAt (c.sect 0xC) 0 4)).foldl (fun a w =>
    if waveMask c w / 2 ^ l % 2 = 1 then a + ceilMul (waveLen (numAt (c.sect 0xC) (6 + 16 * w) 2)) 64 else a) (waveBase c l)

/-- Whether the areas of every loom fit (R257): loom 0 ends below the DV32 mix blocks while an instance is enabled. -/
def loomsFit (c : Block) : Bool :=
  (List.range 4).all fun l => decide (loomEnd c l ≤ (if l = 0 ∧ legacyOn c then 0x1FF000 else 0x200000))

/-- The WAVES section (R163). -/
def wavesOk (c : Block) (s : List Byte) : Bool :=
  let n := numAt s 0 4
  decide (1 ≤ n ∧ n ≤ 256) && ((List.range n).all fun w =>
    let o := 4 + 16 * w
    decide (byteAt s o < 16) && zeros s (o + 1) 1 && inH s (o + 2) 1 256 && zeros s (o + 8) 8 &&
    decide (numAt s (o + 4) 4 + waveLen (numAt s (o + 2) 2) ≤ s.length)) && loomsFit c

/-- The TUNING section (R172). -/
def tuningOk (s : List Byte) : Bool :=
  s.length == 8256 && (List.range 16).all fun i =>
    let o := 516 * i
    decide (numAt s o 4 < 2) && (if numAt s o 4 = 0 then zeros s (o + 4) 512
      else (List.range 128).all fun k => decide (numAt s (o + 4 + 4 * k) 4 ≤ 0x7FFFFF))

/-- The values of N, and of the internal rate, that the configured OSR and the reachable rates allow (R33, R234): with auto_rate every
supported rate. -/
def reachable (c : Block) : List (Nat × Nat) :=
  if c.on TBU_REF_CFG_auto_rate then
    ([0, 1, 2, 3, 4, 5].map fun code =>
      let osr := 2 ^ osrFor (c.get SYS_CFG_osr) (fsHz code)
      (c.pick * osr, osr * fsHz code))
  else [(c.nInt, 2 ^ c.tbu.osr * c.fs)]

/-- The reachable values of N. -/
def reachableN (c : Block) : List Nat := (reachable c).map (·.1)

/-- A program record of the VCODE section (R234). -/
def vcodeRecOk (s : List Byte) (i : Nat) : Bool :=
  let o := 64 + 64 * i
  decide (0x40 ≤ byteAt s o) && decide (byteAt s (o + 1) < 16) && inB s (o + 2) 0 7 && zeros s (o + 3) 1 &&
  decide (numAt s (o + 4) 2 < numAt s 4 4) && ((List.range 5).all fun k => decide (numAt s (o + 8 + 4 * k) 4 ≤ 1048575)) &&
  zeros s (o + 0x1C) 4 && zeros s (o + 0x30) 16

/-- The VCODE section (R234). -/
def vcodeOk (c : Block) (s : List Byte) : Bool :=
  let q := numAt s 0 4
  decide (q ≤ 192) && decide (numAt s 4 4 ≤ 4096) && zeros s 8 56 && s.length == 64 + 64 * q + 16 * numAt s 4 4 &&
  (List.range q).all (vcodeRecOk s) && noRepeat ((List.range q).map fun i => byteAt s (64 + 64 * i)) &&
  ((allLayers c).all fun ly => ly.prog < 64 || (c.vcodeRec ly.prog).isNone || c.voiceCost ly.prog c.nInt != 0) &&
  c.plan.all fun e => e.prog < 64 || (c.vcodeRec e.prog).isNone || (reachableN c).all fun n => c.voiceCost e.prog n != 0

/-- The least state area of a ROM bus program at N and an internal rate (R262). -/
def busMem (prog n rate : Nat) : Nat :=
  match prog with
  | 0x10 => 256
  | 0x11 => 8 * (n + 1)
  | 0x12 => 32768
  | 0x13 => 262144 * ceilDiv rate 96000
  | 0x14 => 4096
  | _ => 0

/-- A plan entry (R258, R262, R273). -/
def entryOk (c : Block) (s : List Byte) (i : Nat) : Bool :=
  let e := entryAt s i
  let o := 0x240 + 32 * i
  ((0x10 ≤ e.prog && e.prog ≤ 0x14) || (0x40 ≤ e.prog && vcodeType c e.prog 1)) && inB s (o + 2) 1 15 && inB s (o + 3) 0 3 &&
  (!e.stereo || e.bus % 2 == 0) && (reachable c).all (fun x => decide (busMem e.prog x.1 x.2 ≤ e.mem)) && e.mem % 64 == 0 && zeros s (o + 12) 20 &&
  zeros s (0x240 + 32 * numAt s 0 4 + 1024 * i + 0x3F0) 16

/-- The buses that a list of entries takes as inputs, in order. -/
def entryBuses (es : List Entry) : List Nat := es.flatMap fun e => if e.stereo then [e.bus, e.bus + 1] else [e.bus]

/-- Whether a list is strictly rising. -/
def risingList : List Nat → Bool
  | [] => true
  | [_] => true
  | x :: y :: l => decide (x < y) && risingList (y :: l)

/-- A global LFO record at `o` (R195, R198): key sync, delay, fade-in and user frame are zero, and the shape is no user frame. -/
def globalLfoOk (s : List Byte) (o : Nat) : Bool :=
  decide (byteAt s o ≤ 5) && maskB s (o + 1) 5 &&
  (if byteAt s (o + 1) % 2 = 1 then inH s (o + 2) 0x0010 0xFFFF else inH s (o + 2) 0x0001 0xC800) && zeros s (o + 6) 26

/-- The MIX section (R273). -/
def mixOk (c : Block) (s : List Byte) : Bool :=
  let n := numAt s 0 4
  decide (n ≤ 256) && zeros s 8 56 && s.length == 0x240 + 1056 * n && (List.range 16).all (fun i => globalLfoOk s (0x40 + 32 * i)) &&
  (List.range n).all (entryOk c s) && risingList (entryBuses c.plan) && loomsFit c

/-- The CHAIN section (R274). -/
def chainOk (c : Block) (s : List Byte) : Bool :=
  let cfg := numAt s 0 4
  let setOk (x : Nat) : Bool := x % 8 == 7 || cfg.testBit (x % 8)
  s.length == 2064 && zeros s 4 12 && decide (cfg &&& 0x1FF = cfg) &&
  (List.range 256).all (fun l => let x := numAt s (0x10 + 4 * l) 4; decide (x &&& 0x7777F = x) && setOk x) &&
  (List.range 128).all (fun l => let x := numAt s (0x410 + 4 * l) 4; decide (x &&& 0x7F = x) && setOk x) &&
  (List.range 128).all (fun l => let x := numAt s (0x610 + 4 * l) 4; decide (x &&& 0x1FF3 = x)) &&
  decide (gCeil c + c.wft.d * c.pick ≤ 256)

/-- The buses that a template writes (R177, R178, R374). -/
def templateBuses (t : List Byte) : List Nat :=
  let o := byteAt t 0xA
  (match byteAt t 0xB with
    | 0 => [o, o + 1]
    | 1 => [o]
    | _ => []) ++
  (List.range 4).flatMap fun k =>
    let s := byteAt t (0x1D0 + 4 * k)
    if s = 0xFF then [] else if byteAt t (0x1D1 + 4 * k) % 2 = 1 then [s] else [s, s + 1]

/-- The buses of an instance of a LEGACY section. -/
def instanceBuses (s : List Byte) (i : Nat) : List Nat :=
  let m := byteAt s (0x40 + 64 * i)
  let n := byteAt s (0x41 + 64 * i)
  [m, m + 1, n, n + 1]

/-- The record of an instance (R374). -/
def instanceOk (c : Block) (s : List Byte) (on : Bool) (i : Nat) : Bool :=
  let o := 0x40 + 64 * i
  let off := numAt s (o + 8) 8
  let len := numAt s (o + 16) 4
  let bs := instanceBuses s i
  decide (numAt s o 4 < 0x1000000) && zeros s (o + 4) 4 && zeros s (o + 20) 12 &&
  zeros s (o + 0x23) 9 && zeros s (o + 0x2C) 19 && decide (byteAt s (o + 0x20) < 4) && decide (byteAt s (o + 0x3F) < 32) &&
  (!on || (decide (1 ≤ len ∧ len ≤ 16777216 ∧ off + 2 * len ≤ c.sys.sampLen) && off % 64 == 0 &&
    byteAt s o % 2 == 0 && byteAt s (o + 1) % 2 == 0 &&
    (List.range c.templateCount).all (fun k => (templateBuses (c.templateBytes k)).all fun x => !bs.contains x) &&
    c.plan.all (fun e => !bs.contains e.ret0 && (e.ret1 == 0xFF || !bs.contains e.ret1) && (entryBuses [e]).all fun x => !bs.contains x) &&
    bs.all fun x => numAt (c.sect 0xE) (0x10 + 4 * x) 4 % 8 == 4))

/-- The LEGACY section (R368, R373, R374). -/
def legacyOk (c : Block) (s : List Byte) : Bool :=
  let on (i : Nat) : Bool := (numAt s 0 4).testBit i
  s.length == 320 && decide (numAt s 0 4 < 16) && zeros s 0xC 52 && (List.range 4).all (fun i => instanceOk c s (on i) i) &&
  (List.range 4).all (fun i => (List.range i).all fun j => !(on i && on j) || (instanceBuses s i).all fun x => !(instanceBuses s j).contains x) &&
  (!legacyOn c || (!dvOverload c && ((allLayers c).all fun ly => ly.mask != 1) && c.plan.all (fun e => !e.on 0) &&
    numAt (c.sect 5) 0 4 % 2 == 1))

/-- The REGS section (R390). -/
def regsOk (s : List Byte) : Bool :=
  let n := numAt s 0 4
  decide (n ≤ 8192) && zeros s 4 12 && s.length == 16 + 8 * n &&
  (List.range n).all fun i => let o := numAt s (16 + 8 * i) 4; o % 4 == 0 && decide (o < 0x4000000)

/-! ### The SEC section (R439, R444, R448) -/

/-- The library key that a SEC section carries (R444); none when its wrap fails. -/
def libraryKey (lkek : List Byte) (serial : Nat) (s : List Byte) : Option (List Byte) :=
  let k := (lkek ++ List.replicate 16 0).take 16
  keyUnwrap (if byteAt s 0 / 4 % 2 = 1 then (hmacSha256 k (leBytes 8 serial)).take 16 else k) (slice s 0x10 40)

/-- Whether a field may be burned: it is blank or holds the value already. -/
def burnable (old new : List Byte) : Bool := old == [] || old == new

/-- The fuses after a provisioning (R448): each requested field whose fuses are blank is burned. -/
def burnFuses (s : List Byte) (f : Fuses) : Fuses :=
  let r := byteAt s 0x40
  let put (bit : Nat) (old new : List Byte) : List Byte := if r.testBit bit ∧ old = [] then new else old
  { f with keyHash := put 4 f.keyHash (slice s 0x50 32), unlockKey := put 5 f.unlockKey (slice s 0x70 32)
           password := put 6 f.password (slice s 0x90 16), lkek := put 7 f.lkek (slice s 0xA0 16)
           dbgLock := f.dbgLock || r.testBit 0, imgAuth := f.imgAuth || r.testBit 1
           method := if f.method = 0 then r / 4 % 4 else f.method }

/-- The SEC section (R448): a burn needs VIN at 8.0 V or more, and fuses that read back what was burned. -/
def secOk (c : Block) (s : List Byte) : Bool :=
  let r := byteAt s 0x40
  let f := c.sec.burned
  let burn := byteAt s 0 % 2 == 1
  s.length == 192 && decide (numAt s 0 4 < 8) && zeros s 4 12 && zeros s 0x38 8 && decide (numAt s 0x40 4 < 256) && zeros s 0x44 12 &&
  zeros s 0xB0 16 &&
  (!burn || ((!r.testBit 4 || burnable f.keyHash (slice s 0x50 32)) && (!r.testBit 5 || burnable f.unlockKey (slice s 0x70 32)) &&
    (!r.testBit 6 || burnable f.password (slice s 0x90 16)) && (!r.testBit 7 || burnable f.lkek (slice s 0xA0 16)) &&
    (r / 4 % 4 == 0 || f.method == 0 || f.method == r / 4 % 4) &&
    (burnFuses s f == f || (decide (8000 ≤ c.get PWR_VIN_vin) && !c.sys.burnBad)))) &&
  (byteAt s 0 / 2 % 2 == 0 || (libraryKey c.sec.fuses.lkek c.sec.serial s).isSome)

/-! ### Validation in the order of R384 -/

/-- The block as a section map would configure it, to judge the sections by: the formats, the rate and the response sets. `samp`
is the length of SAMPDATA. -/
def tentative (b : Block) (secs : FMap (List Byte)) (samp : Nat) : Block :=
  let get (ty : Nat) : List Byte := FMap.get (fun _ => []) secs ty
  let b1 := { b with img := secs, sys := { b.sys with sampLen := samp } }
  let b2 := if get 1 = [] then b1 else b1.setNum SYS_CFG (numAt (get 1) 0 4 % 0x800)
  let b3 := if get 3 = [] then b2 else b2.setNum TBU_REF_CFG (numAt (get 3) 0 4 % 0x400)
  let rate := if b3.get TBU_REF_CFG_rate ≤ 5 then b3.get TBU_REF_CFG_rate else 2
  let b4 := b3.put TBU_REF_STAT_det_rate rate
  let b5 := { b4 with tbu := { b4.tbu with osr := osrFor (b4.get SYS_CFG_osr) (fsHz rate) } }
  let b6 := if get 0xE = [] then b5 else b5.setNum DCH_CFG (numAt (get 0xE) 0 4 % 0x200)
  if get 0x12 = [] then b6 else b6.setNum LEG_CTL (numAt (get 0x12) 0 4 % 16)

/-- The checks of one section type. -/
def sectionOk (c : Block) (ty : Nat) (s : List Byte) : Bool :=
  match ty with
  | 0x13 => secOk c s
  | 0x01 => sysOk s
  | 0x02 => pwrOk s
  | 0x14 => Config.mpfwOk s
  | 0x03 => timeOk s
  | 0x15 => tuningOk s
  | 0x09 => vcodeOk c s
  | 0x08 => vparamOk c s
  | 0x0A => sampdirOk c s
  | 0x0C => wavesOk c s
  | 0x07 => progsOk c s
  | 0x06 => allocOk c s
  | 0x0E => chainOk c s
  | 0x0D => mixOk c s
  | 0x05 => dealerOk c s
  | 0x0F => sapOk s c.fs (numAt (c.sect 3) 0 4)
  | 0x10 => cvoOk s (c.sect 0xE)
  | 0x11 => weftOk s ((List.range 64).map fun p => byteAt (c.sect 6) (0x48 + 32 * p))
  | 0x04 => eventOk s
  | 0x12 => legacyOk c s
  | 0x16 => regsOk s
  | _ => true

/-- The section types in the order of R384. -/
def applyOrder : List Nat :=
  [0x13, 0x01, 0x02, 0x14, 0x03, 0x15, 0x09, 0x08, 0x0A, 0x0C, 0x07, 0x06, 0x0E, 0x0D, 0x05, 0x0F, 0x10, 0x11, 0x04, 0x12, 0x16]

/-- The required sections (R383). -/
def requiredTypes : List Nat := [1, 3, 4, 5, 6, 7, 8, 0xE]

/-- The end of the VPARAM templates and of SAMPDATA as R385 places them, in bytes; the LEGACY data lies inside SAMPDATA. -/
def vparamEnd (t : List Sect) : Nat := ((sectOf t 8).map fun x => x.len - 64).getD 0
/-- Where SAMPDATA begins. -/
def sampStart (t : List Sect) : Nat := ceilMul (vparamEnd t) 65536
/-- The first byte above SAMPDATA. -/
def sampEnd (t : List Sect) : Nat := sampStart t + ((sectOf t 0xB).map (·.len)).getD 0

/-- The type of the first section that fails (R383): each in the order of R384, with R385's limit checked for VPARAM in its place and
for SAMPDATA at the end; `need` are the required types. -/
def firstBad (c : Block) (t : List Sect) (need : List Nat) (limit : Nat) (encrypted : Bool) : Option Nat :=
  let has (ty : Nat) : Bool := (sectOf t ty).isSome
  let bad (ty : Nat) : Bool :=
    if has ty then !sectionOk c ty (c.sect ty) || (ty == 8 && decide (limit < vparamEnd t)) ||
      (ty == 0x13 && encrypted && byteAt (c.sect ty) 0 / 2 % 2 == 0)
    else need.contains ty || (ty == 0xA && has 0xB) || (ty == 0x13 && encrypted)
  match applyOrder.find? bad with
  | some ty => some ty
  | none => if decide (limit < sampEnd t) && has 0xB then some 0xB else none

/-- What an image comes to: refused with a code and a section type, or its table and sections. SAMPDATA's digest is not judged. -/
inductive Verdict where
  | refused (code sect : Nat)
  | good (table : List Sect) (secs : FMap (List Byte))
deriving DecidableEq, Repr

/-- Judge an image (R382, R383) that a source of `size` bytes holds: `img` are its bytes as far as its length says. `auth`: the
signature counts; `patch`: a PATCH_APPLY container (R403), whose sections stand in for the ones in force. -/
def judge (b : Block) (img : List Byte) (size : Nat) (auth patch : Bool) (limit : Nat) : Verdict :=
  let t := sectTable img
  let samp := ((sectOf t 0xB).map (·.len)).getD 0
  if !imageMagic img then .refused 3 0
  else if !headerFits img size (b.num SYS_ID % 65536) || !tableFits img then .refused 4 0
  else if auth && !signatureOk img b.sec.fuses.keyHash then .refused 5 0
  else if t.any fun x => x.type != 0xB && sha256 (x.bytes img) != x.digest then .refused 6 0
  else
    let secs := FMap.setAll (fun _ => []) (if patch then b.img else []) ((t.filter fun x => x.type != 0xB).map fun x => (x.type, x.bytes img))
    let c := if patch then { b with img := secs } else tentative b secs samp
    match firstBad c t (if patch then [] else requiredTypes) limit ((sectOf t 0xB).any fun x => x.flags == 1) with
    | some ty => .refused 7 ty
    | none => .good t secs

end Sys2Proof.Machine
end

