-- ==== Sys2Proof/Machine/Startup.lean ====
section
/-! DEFINITION. Resets and start-up (R375–R390): what a reset leaves, how each section of the image is applied, and the start-up steps. -/

namespace Sys2Proof.Machine

/-- Set the system state. -/
def setSys (f : Sys → Sys) (b : Block) : Block := { b with sys := f b.sys }

/-! ### Resets (R375) -/

/-- The registers that a compute-die reset keeps: readings of the power die and the sensors, and the phases that work. -/
def keptRegs : List Nat := [PWR_STAT, PWR_VIN, PWR_IIN, PWR_RAIL, THM_T 0, THM_T 1, THM_T 2, THM_T 3, THM_T 4, THM_T 5]

/-- DRAM bytes after their keys are redrawn read as noise (R325); the SRAMs are zero after BIST (R320). -/
def scrambled (b : Block) : List Host.Cell :=
  FMap.setAll (fun _ => 0) [] ((b.mem.filter fun c => decide (0x100000000 ≤ c.1)).map fun c => (c.1, Config.dramNoise b.mm.era c.1))

/-- The compute die in reset (R375): everything but the fuses, the flash, the power die, the TAP and the count of refused responses
starts anew. `keepArmed`: a software chip reset keeps bypass_armed (R443). -/
def computeReset (keepArmed : Bool) (b : Block) : Block :=
  let regs := FMap.setAll regReset [] (keptRegs.map fun k => (k, ((b.put PWR_STAT_lock 0).put PWR_STAT_hold 0).rd k))
  let sec : Sec := { serial := b.sec.serial, vendor := b.sec.vendor, burned := b.sec.burned, fails := b.sec.fails
                     lockout := b.sec.lockout, drawn := b.sec.drawn, tap := b.sec.tap }
  let sys : Sys := { flash := b.sys.flash, flashSize := b.sys.flashSize, sfdp := b.sys.sfdp }
  let pwr : Pwr := { powered := b.pwr.powered, overVolt := b.pwr.overVolt, retry := b.pwr.retry, shut := b.pwr.shut
                     pfw := b.pwr.pfw, good := b.pwr.good, hot := b.pwr.hot, tooHot := b.pwr.tooHot }
  let b1 : Block := { regs := regs, mem := scrambled b, mm := { repair := b.mm.repair, era := b.mm.era + 1 }
                      rel := { fused := b.rel.fused }, sec := sec, sys := sys, pwr := pwr }
  if keepArmed ∧ b.on SEC_STAT_bypass_armed then b1.put SEC_STAT_bypass_armed 1 else b1

/-- Power-on (R375, R407): the whole part but its fuses and its flash. -/
def powerReset (flash : FMap Byte) (size : Nat) (sfdp : Bool) (b : Block) : Block :=
  { mm := { repair := b.mm.repair, era := b.mm.era + 1 }, mem := scrambled b, rel := { fused := b.rel.fused }
    sec := { serial := b.sec.serial, vendor := b.sec.vendor, burned := b.sec.burned, drawn := b.sec.drawn }
    sys := { flash := flash, flashSize := size, sfdp := sfdp }, pwr := { powered := true } }

/-- A boot flash that holds these bytes from offset 0, and is erased beyond them. -/
def flashOf (bytes : List Byte) : FMap Byte :=
  ((List.range bytes.length).zip bytes).filter fun x => x.2 != 0xFF

/-- A reset of the MP alone (R375, R332, R406) with `n` bursts accepted. The mailbox command in progress is left to its timeout when
it is not claimed; a claimed one is lost with the firmware and completes with BUSY (notes/assumptions). -/
def mpReset (n : Nat) (b : Block) : Block :=
  let b1 := resetMaster 0 n (setSys (fun s => { s with mpDown := true }) b)
  let b2 := { b1 with bus := { b1.bus with rdShadow := FMap.del b1.bus.rdShadow 0, wrShadow := FMap.del b1.bus.wrShadow 0 } }
  match b2.sys.mb with
  | some m => if m.claimed then mbFinish 1 [] b2 else b2
  | none => b2

/-! ### Recovery (R387) -/

/-- Start-up ends in the recovery state with a code. -/
def recover (code sect : Nat) (b : Block) : Block :=
  ((b.put SYS_STAT_boot_err code).put SYS_STAT_err_sect sect).put SYS_STAT_recovery 1
/-- Start-up halts with a code. -/
def haltBoot (code : Nat) (b : Block) : Block := b.put SYS_STAT_boot_err code

/-! ### Applying the sections (R384) -/

/-- Set registers from consecutive words of a section: (address, offset, mask). -/
def setWords (s : List Byte) (l : SectWords) (b : Block) : Block :=
  l.foldl (fun acc x => acc.setNum x.1 (numAt s x.2.1 4 &&& x.2.2)) b

/-- SEC (R444, R448): requested fuses are burned, for the next start-up; the library key is unwrapped. -/
def applySec (s : List Byte) (b : Block) : Block :=
  let key := if byteAt s 0 / 2 % 2 = 1 then libraryKey b.sec.fuses.lkek b.sec.serial s else none
  setSec (fun x => { x with libKey := key, burned := if byteAt s 0 % 2 = 1 then burnFuses s x.burned else x.burned }) b

/-- SYS (R388). -/
def applySys (s : List Byte) (b : Block) : Block :=
  setWords s sysWords b

/-- PWR (R423). -/
def applyPwr (s : List Byte) (b : Block) : Block :=
  setWords s [(PWR_ILIM, 0, 0x3F), (PWR_BOVTH, 4, 0x1FF), (PWR_HOLD, 8, 0x3FF), (PWR_GOV, 0xC, 0xFF03FF), (PWR_IRQ_EN, 0x10, 0x3F),
    (THM_LIM, 0x14, 0x1FFFF), (THM_IRQ_EN, 0x18, 0x1F)] b

/-- The reference selection and the rate of TBU_REF_CFG in force at once, before any pick (R29, R33): a reserved rate keeps the last
supported one, and OSR follows R16. -/
def selectNow (b : Block) : Block :=
  let r := b.get TBU_REF_CFG_rate
  let b1 := if r ≤ 5 then b.put TBU_REF_STAT_det_rate r else b
  { b1 with tbu := { b1.tbu with sel := ⟨b.get TBU_REF_CFG_src, b.get TBU_REF_CFG_sap, r⟩, staged := none
                                 osr := osrFor (b.get SYS_CFG_osr) b1.fs } }

/-- TIME (R49): compares are armed in ascending number; a timer's count is its reload value. -/
def applyTime (s : List Byte) (b : Block) : Block :=
  let b1 := selectNow (setWords s [(TBU_REF_CFG, 0, 0x3FF), (TBU_HOLD, 4, 0xFFFF), (TBU_TOUT_CFG, 0x10, 0xFF07FF)] b)
  let b2 := writeTempo (BitVec.ofNat 32 (numAt s 0xC 4)) (writeTempoCfg (BitVec.ofNat 32 (numAt s 8 4)) b1)
  let b3 := (List.range 16).foldl (fun acc n =>
    let o := 0x20 + 16 * n
    let a1 := acc.setNum (TBU_CMP_CFG n) (numAt s o 4 % 4)
    let v := BitVec.ofNat 64 (numAt s (o + 8) 8)
    if numAt s (o + 4) 4 = 1 then compareArm n v a1 else a1.wr (TBU_CMP_VAL n) v) b2
  let b4 := (List.range 8).foldl (fun acc n => acc.setNum (TBU_CAP_CFG n) (numAt s (0x120 + 4 * n) 4 &&& 0x3FF)) b3
  (List.range 8).foldl (fun acc n =>
    (timerReload n (BitVec.ofNat 32 (numAt s (0x144 + 8 * n) 4)) acc).setNum (TBU_TMR_CFG n) (numAt s (0x140 + 8 * n) 4 &&& 0x1F)) b4

/-- The keys of the tables that a TUNING section holds (R148, R172). -/
def tuningRecords (s : List Byte) : List (Nat × List (Nat × Nat)) :=
  ((List.range 16).filter fun i => numAt s (516 * i) 4 == 1).map fun i =>
    (i, (List.range 128).map fun k => (k, numAt s (516 * i + 4 + 4 * k) 4))
/-- TUNING (R172). -/
def applyTuningTables (s : List Byte) (b : Block) : Block :=
  let l := (tuningRecords s).flatMap fun r => r.2.map fun kv => (128 * r.1 + kv.1, kv.2)
  { b with alc := { b.alc with tuning := FMap.setAll (fun i => i % 128 * 65536) b.alc.tuning l } }

/-- VPARAM (R170, R385): the templates are placed in DRAM from offset 0; DRC_CFG.iecc is in force from the first placement (R324). -/
def applyVparam (s : List Byte) (b : Block) : Block := { b with mem := Memory.setBytes b.mem 0x100000000 (s.drop 64) }

/-- The part table entry of a part (R112, R141), its controllers at their defaults. -/
def partEntry (s : List Byte) (p : Nat) : Part :=
  let o := 0x40 + 32 * p
  let fl := numAt s (o + 2) 2
  { program := numAt s o 2, prot := fl % 2 == 1, atomic := fl / 2 % 2 == 1, mode := fl / 4 % 4, monoPrio := fl / 16 % 4
    retrig := fl / 64 % 4, glideMode := fl / 256 % 4, cls := byteAt s (o + 4), stealPrio := byteAt s (o + 5)
    stealFade := numAt s (o + 6) 2, pool := byteAt s (o + 8), tuning := byteAt s (o + 9), bendRange := byteAt s (o + 10)
    pnBendRange := byteAt s (o + 11), glideTime := numAt s (o + 12) 2, transpose := sintAt s (o + 14) 1, vol := byteAt s (o + 15)
    pan := byteAt s (o + 16), expr := byteAt s (o + 17) }

/-- ALLOC (R141). -/
def applyAlloc (s : List Byte) (b : Block) : Block :=
  let b1 := setWords s allocWords b
  let b2 := (List.range 64).foldl (fun acc p => ctlDefaults p 0 (acc.setPart p (partEntry s p))) b1
  { b2 with alc := { b2.alc with mirror := [] } }

/-- MIX (R261, R273): the entries' gains and initial parameter areas on the looms that run them. -/
def applyMix (s : List Byte) (b : Block) : Block :=
  let n := numAt s 0 4
  let b := { b with mix := { b.mix with layout := some (plannedN b, b.on DCH_CFG_inputs) } }
  (List.range n).foldl (fun acc i =>
    let e := entryAt s i
    let a1 := acc.setNum (MIX_RGAIN e.bus) (e.gain + if e.dry then 65536 else 0)
    ((List.range 4).filter fun l => e.on l).foldl (fun a l =>
      let area := (slice s (0x240 + 32 * n + 1024 * i) 0x3F0) ++ parTail a l e
      { a with mem := Memory.setBytes a.mem (loomBase l + parBase a l i) area }) a1) (setWords s [(MIX_IRQ_EN, 4, 0xF)] b)

/-- WAVES (R163, R257): each table is copied into the looms of its mask, after their state areas, in order. -/
def placeWaves (b : Block) : Block :=
  let s := b.sect 0xC
  (List.range 4).foldl (fun acc l =>
    ((List.range (numAt s 0 4)).foldl (fun (a : Nat × Block) w =>
      if waveMask a.2 w / 2 ^ l % 2 = 1 then
        let n := waveLen (numAt s (6 + 16 * w) 2)
        (a.1 + ceilMul n 64, { a.2 with mem := Memory.setBytes a.2.mem (loomBase l + a.1) (slice s (numAt s (8 + 16 * w) 4) n) })
      else a) (waveBase acc l, acc)).2) b

/-- DEALER (R111). -/
def applyDealer (s : List Byte) (b : Block) : Block :=
  setWords s dealerWords b

/-- EVENT (R80): EFE_CTL is written last. -/
def applyEvents (s : List Byte) (b : Block) : Block :=
  let b1 := setWords s eventWords b
  let b2 := (List.range 20).foldl (fun acc g => writeZones g (BitVec.ofNat 32 (numAt s (0x80 + 4 * g) 4)) acc) b1
  efeCtlWrite (BitVec.ofNat 32 (numAt s 0 4)) b2

/-- The ports that a LEGACY section assigns to the DV32 personality lose auto_realign (R289, R373). -/
def legacyPorts (s : List Byte) (b : Block) : Block :=
  (List.range 8).foldl (fun acc n =>
    if (List.range 4).any fun i => (numAt s (0x42 + 64 * i) 1).testBit n then acc.put (SAP_CFG_auto_realign n) 0 else acc) b

/-- LEGACY (R374): the registers, the instances' data and their initial registers. -/
def applyLegacy (s : List Byte) (b : Block) : Block :=
  let b1 := setWords s [(LEG_CTL, 0, 0xF), (LEG_CFG, 4, 0xFFF), (LEG_IRQ_EN, 8, 0x7F)] (legacyPorts s b)
  (List.range 4).foldl (fun acc i =>
    let o := 0x40 + 64 * i
    let a1 := ((acc.setNum (LEG_INST_CFG i) (numAt s o 4 &&& 0xFFFFFF)).setNum (LEG_INST_BASE i) (acc.mm.sampBase + numAt s (o + 8) 8)).setNum
      (LEG_INST_LEN i) (numAt s (o + 16) 4)
    let init := (List.range 32).map fun k => (0x20 + k, byteAt s (o + 0x20 + k))
    let a2 := setDvPort i { image := FMap.setAll (fun _ => 0) [] (init.filter fun x => x.1 ≤ 0x22), page := byteAt s (o + 0x3F) % 32
                            irqEn := byteAt s (o + 0x20) / 2 % 2 == 1 } a1
    setDvCtx i 32 { regs := FMap.setAll (fun _ => 0) [] (init.filter fun x => x.1 ≤ 0x22) } a2) b1

/-- REGS (R390): the entries in order, as MP writes; an error response sets regs_err. -/
def applyRegs (s : List Byte) (b : Block) : Block :=
  (List.range (numAt s 0 4)).foldl (fun acc i =>
    let o := 16 + 8 * i
    let (r, a) := periphAccess 0 (0x40000000 + numAt s o 4) 4 0 (some (BitVec.ofNat 32 (numAt s (o + 4) 4))) 0 acc
    if r.err || r.decode then a.put SYS_STAT_regs_err 1 else a) b

/-- Apply one section by its type; sections that are only read stay in the image store. -/
def applySection (ty : Nat) (s : List Byte) (b : Block) : Block :=
  match ty with
  | 0x13 => applySec s b
  | 0x01 => applySys s b
  | 0x02 => applyPwr s b
  | 0x14 => setSys (fun x => { x with mpfw := s.length }) b
  | 0x03 => applyTime s b
  | 0x15 => applyTuningTables s b
  | 0x08 => applyVparam s b
  | 0x06 => applyAlloc s b
  | 0x0E => computeLout (applyChain s b)
  | 0x0D => applyMix s b
  | 0x05 => applyDealer s b
  | 0x0F => applySap s b
  | 0x10 => applyCvo s b
  | 0x11 => checkPools (applyWeft s b)
  | 0x04 => applyEvents s b
  | 0x12 => applyLegacy s b
  | 0x16 => applyRegs s b
  | _ => b

/-- Visible DRAM in units of 64 KiB and T in MT/s with or without inline ECC (R324, R327). -/
def showDram (b : Block) (iecc : Bool) (units mts : Nat) : Block :=
  ((b.put DRC_STAT_iecc (if iecc then 1 else 0)).put DRC_CAP_units (if iecc then units * 7 / 8 else units)).put DRC_TEFF_mts
    (if iecc then mts * 7 / 8 else mts)

/-- Capacity (units of 64 KiB) and rate (MT/s) of the trained DRAM (R322, R323): 2 channels × 2 × ranks × density. -/
def dramUnits (b : Block) : Nat := (1 + b.get DRC_STAT_ranks) * [4, 6, 8, 12, 16].getD (b.get DRC_STAT_density) 4 * 8192
def dramRate (b : Block) : Nat := [2133, 2667, 3200, 3733, 4266].getD (b.get DRC_STAT_rate) 2133

/-- Step 7 (R384): every section in its order, with the placement of R385; then cfg_lock. -/
def applyAll (t : List Sect) (secs : FMap (List Byte)) (b : Block) : Block :=
  let get (ty : Nat) : List Byte := FMap.get (fun _ => []) secs ty
  let b0 := showDram (b.put SYS_STAT_step 7) (b.on DRC_CFG_iecc) (dramUnits b) (dramRate b)
  let free := ceilDiv (sampEnd t) 65536
  let has := (sectOf t 0xB).isSome
  let b1 := { b0 with img := secs, mm := { b0.mm with sampBase := 0x100000000 + if has then sampStart t else 65536 * free } }
  let b2 := (setSys (fun x => { x with sampLen := if has then sampEnd t - sampStart t else 0 }) b1).put SYS_DRAM_FREE_units free
  let b3 := applyOrder.foldl (fun acc ty => if get ty = [] then acc else applySection ty (get ty) acc) b2
  let b4 := placeWaves { b3 with alc := { b3.alc with bMax := b3.maxTmplBytes } }
  if numAt (get 1) 0x18 4 % 2 = 1 then b4.put SYS_CTL_cfg_lock 1 else b4

/-- Step 8 (R326, R386): SAMPDATA is copied, decrypted where it is encrypted, into a protected range; whether its digest holds. -/
def loadSamples (t : List Sect) (img : List Byte) (b : Block) : Bool × Block :=
  let b0 := b.put SYS_STAT_step 8
  match sectOf t 0xB with
  | none => (true, b0)
  | some x =>
    let bytes := x.bytes img
    let enc := x.flags == 1
    let first := (b.mm.sampBase - 0x100000000) / 65536
    let b1 := if enc then (((b0.put (DRC_PROT_BASE_first 0) first).put (DRC_PROT_LIM_last 0)
      (first + (ceilDiv x.len 65536 - 1))).put (DRC_PROT_BASE_en 0) 1) else b0
    let plain := if enc then xtsSection ((b.sec.libKey).getD []) bytes else bytes
    (sha256 bytes == x.digest, { b1 with mem := Memory.setBytes b1.mem b1.mm.sampBase plain })

/-- Step 9 (R376): the formats are in force, and the Dealer starts. -/
def startDealer (b : Block) : Block := (formatNow b).put SYS_STAT_step 9 |>.put DLR_STAT_running 1

/-- The image bytes of a source: the header, and the rest when its length lies within the source. -/
def imageBytes (rd : Nat → Byte) (size : Nat) : List Byte :=
  let h := (List.range 0x140).map rd
  let n := numAt h 8 4
  if 0x140 ≤ n ∧ n ≤ size then (List.range n).map rd else h

/-- The limit of R385: the top of visible DRAM as it will be from step 7 on, or the staging area of a push. -/
def placeLimit (b : Block) (push : Bool) : Nat :=
  let v := (if b.on DRC_CFG_iecc then dramUnits b * 7 / 8 else dramUnits b) * 65536
  if push then v - 0x20000000 else v

/-- Steps 6 to 9 on an image (R376, R382, R383, R443): bypass_armed skips the signature and is cleared when step 6 has completed. -/
def bootImage (img : List Byte) (size : Nat) (push : Bool) (b : Block) : Block :=
  let auth := b.sec.fuses.imgAuth && !b.on SEC_STAT_bypass_armed
  let b0 := b.put SYS_STAT_step 6
  match judge b0 img size auth false (placeLimit b0 push) with
  | .refused code sect => recover code sect b0
  | .good t secs =>
    let b1 := applyAll t secs (b0.put SEC_STAT_bypass_armed 0)
    match loadSamples t img b1 with
    | (false, b2) => recover 6 0 b2
    | (true, b2) =>
      let b3 := setSys (fun s => { s with imgLen := numAt img 8 4 }) b2
      startDealer (if isRoot b3 ∧ inRing b3 then bootBroadcast b3.sys.imgLen b3 else b3)

/-- Step 3: fuses load, the TRNG runs, BIST reports. -/
def releaseStep3 (r : Release) (b : Block) : Block :=
  let b1 := setSys (fun s => { s with held := false, testEn := false, burnBad := r.burnBad, releaseT := b.now }) (loadFuses (b.put SYS_STAT_step 3))
  let b2 := ((b1.put HIF_PCIID_vendor b.sec.vendor).put MEM_STAT_bist_done 1).put SEC_TRNG_STAT_ready 1
  let b2 := if b2.get PWR_RAIL_fcore = 0 then b2.put PWR_RAIL_fcore 1200 else b2
  let b3 := (List.range 160).foldl (fun acc s => if acc.rel.fused.contains s then acc.setBit (REL_RETIRE_retired (s / 32)) (s % 32) else acc) b2
  let b4 := b3.put REL_STAT_retired b.rel.fused.length
  match r.bist with
  | [] => b4
  | a :: _ =>
    (((b4.put MEM_STAT_bist_fail 1).put MEM_STAT_fail_array a.val).flag MEM_IRQ_STAT_bist)

/-- Step 5: training's result (R323). -/
def releaseStep5 (d : Fin 5 × Bool × Fin 5) (b : Block) : Block :=
  let b1 := (((b.put DRC_STAT_trained 1).put DRC_STAT_rate d.1.val).put DRC_STAT_ranks (if d.2.1 then 1 else 0)).put DRC_STAT_density d.2.2.val
  showDram b1 false (dramUnits b1) (dramRate b1)

/-- The straps as the engine takes them (R453): bit by bit the majority of three samples. -/
def strapsOf (r : Release) : Nat :=
  let (x, y, z) := r.straps
  (x.val &&& y.val) ||| (x.val &&& z.val) ||| (y.val &&& z.val)
/-- BOOTSEL (R377). -/
def bootOf (r : Release) : Nat := strapsOf r % 8

/-- COMPUTE_RESET_RELEASE (R376–R378, R387). -/
def releaseReset (r : Release) (b : Block) : Block :=
  if !b.sys.held ∨ !b.pwr.powered then b
  -- a high TEST_EN holds the compute die in reset (R451)
  else if r.testEn then setSys (fun s => { s with testEn := true }) b
  else
    let b1 := (releaseStep3 r b).put WFT_STAT_root (strapsOf r / 8)
    let b2 := (b1.put SYS_STAT_step 4).put SYS_STAT_bootsel (bootOf r)
    let b2 := { b2 with mm := { b2.mm with bistFail := r.bist.map (·.val) } }
    if 5 ≤ bootOf r then haltBoot 1 b2
    else if bootOf r ≤ 1 ∧ !b2.sys.sfdp then haltBoot 3 b2
    else
      let b3 := b2.put SYS_STAT_step 5
      match r.dram with
      | none => recover 2 0 (b3.put DRC_STAT_err 1)
      | some d =>
        if r.trngBad then haltBoot 2 (trngFail (releaseStep5 d b3))
        else
          let b4 := (releaseStep5 d b3).put SYS_STAT_step 6
          if bootOf r ≤ 1 then
            bootImage (imageBytes (fun i => FMap.get (fun _ => 0xFF) b4.sys.flash i) b4.sys.flashSize) b4.sys.flashSize false b4
          else if bootOf r ≤ 3 then b4.put SYS_STAT_push_wait 1
          else b4

/-- A push boot's image lies in DRAM from V − 512 MiB, and its length is SYS_BOOT_LEN (R378). -/
def pushBoot (b : Block) : Block :=
  let base := 0x100000000 + dramSize b - 0x20000000
  let n := b.get SYS_BOOT_LEN_bytes
  bootImage (imageBytes (fun i => Memory.byte b.mem (base + i)) n) n true (b.put SYS_STAT_push_wait 0)

/-- A weft boot waits for its image (R354, R377). -/
def weftBooting (b : Block) : Bool := b.get SYS_STAT_bootsel == 4 && b.get SYS_STAT_step == 6 && !b.on SYS_STAT_recovery

/-- The blocks of an image of `count` blocks that have not arrived. -/
def bootMissing (b : Block) (count : Nat) : List Nat :=
  (List.range count).filter fun i => FMap.get (fun _ => []) b.sys.bootBlocks i == []

/-- A BOOT frame (R354): block `i` of `count`, its bytes; with the last block of a round the node asks for what it missed, for at most
8 rounds, or boots. -/
def bootFrame (i count : Nat) (bytes : List Byte) (last : Bool) (b : Block) : Block :=
  if !weftBooting b then b
  else
    let b1 := setSys (fun s => { s with bootBlocks := FMap.set (fun _ => []) s.bootBlocks i bytes }) b
    if !last then b1
    else match bootMissing b1 count with
      | [] =>
        let img := (List.range count).flatMap fun k => FMap.get (fun _ => []) b1.sys.bootBlocks k
        bootImage (imageBytes (fun k => img.getD k 0) img.length) img.length false b1
      | miss =>
        if b1.sys.bootRounds ≥ 8 then recover 8 0 b1
        else wsend (.bootMissed miss) (setSys (fun s => { s with bootRounds := s.bootRounds + 1 }) b1)

/-- A booting node names the blocks that it missed; the root sends them again (R354). -/
def bootResend (blocks : List Nat) (b : Block) : Block := if isRoot b then wsend (.boot blocks) b else b

/-! ### A patch (R403) -/

/-- Judge a PATCH_APPLY container: the sections that it may hold, R382 and R383, and B_max not raised. -/
def patchOk (img : List Byte) (b : Block) : Option (FMap (List Byte)) :=
  match judge b img img.length b.sec.fuses.imgAuth true (placeLimit b false) with
  | .refused _ _ => none
  | .good t secs =>
    let b1 := { b with img := secs }
    if (t.all fun x => [7, 8, 0x15, 0x16].contains x.type) && decide (b1.maxTmplBytes ≤ b.alc.bMax) &&
        (t.all fun x => x.type != 8 || decide (x.len - 64 ≤ b.mm.sampBase - 0x100000000)) then
      some (t.foldl (fun acc x => FMap.set (fun _ => []) acc x.type (x.bytes img)) [])
    else none

/-- The patch takes effect at a pick boundary (R403): programs and templates, tuning tables as changes of this boundary, registers. -/
def applyPatch (b : Block) : Block :=
  match b.sys.patch with
  | none => b
  | some p =>
    let get (ty : Nat) : List Byte := FMap.get (fun _ => []) p.sections ty
    let keep (ty : Nat) (x : Block) : Block := if get ty = [] then x else { x with img := FMap.set (fun _ => []) x.img ty (get ty) }
    let b1 := keep 0x15 (keep 8 (keep 7 (setSys (fun s => { s with patch := none }) b)))
    let b2 := if get 8 = [] then b1 else applyVparam (get 8) b1
    let b3 := (tuningRecords (get 0x15)).foldl (fun acc r => tuningWrite r.1 r.2 false acc) b2
    let b4 := if get 0x16 = [] then b3 else applyRegs (get 0x16) b3
    mbFinish 0 (leBytes 8 b4.pickNo) b4

end Sys2Proof.Machine
end

