-- ==== Sys2Proof/Machine/Firmware.lean ====
section
/-! DEFINITION. What the resident firmware does: the mailbox commands (R402, R403, R447) and MIDI Tuning Standard (R148, R405). -/

namespace Sys2Proof.Machine

/-! ### Results -/

/-- Bytes of a register's value. -/
def regBytes (b : Block) (n a : Nat) : List Byte := leBytes n (b.num a)

/-- PING (R402). -/
def mbPing (b : Block) : Nat × List Byte × Block :=
  (0, leBytes 8 (Config.firmware b.sys.mpfw).toNat ++ regBytes b 4 SYS_ID ++ regBytes b 4 SYS_STAT, b)

/-- The longest time in ms since a shuttle that is not retired was last tested (R447). -/
def testAge (b : Block) : Nat :=
  ((List.range 160).filter fun s => !retired b s).foldl (fun m s => max m ((b.now - FMap.get (fun _ => 0) b.rel.tested s) / 1000000)) 0

/-- SELFTEST_REPORT (R447). -/
def mbSelftest (b : Block) : Nat × List Byte × Block :=
  (0, leBytes 4 (b.get REL_STAT_retired) ++ ((List.range 5).flatMap fun k => regBytes b 4 (REL_RETIRE k)) ++ leBytes 4 b.rel.passes ++
    leBytes 4 b.rel.fails ++ leBytes 4 (testAge b) ++ leBytes 1 (b.get DLR_STAT_quar) ++ leBytes 1 (b.get REL_STAT_cause) ++ leBytes 2 0 ++
    regBytes b 8 REL_IMP ++ regBytes b 8 REL_IMPX ++ regBytes b 8 REL_PICKS, b)

/-- WEFT_STATUS (R402). -/
def mbWeftStatus (b : Block) : Nat × List Byte × Block :=
  (0, regBytes b 4 WFT_STAT ++ regBytes b 4 WFT_NODE ++ (List.range (b.get WFT_NODE_n)).flatMap fun i =>
    regBytes b 8 (WFT_NT_SER i) ++ regBytes b 4 (WFT_NT_HOP i) ++ regBytes b 4 (WFT_NT_DROOT i), b)

/-- A query of R140 by its op: 0 voice, 1 part, 2 harness. -/
def mbQuery (op : Nat) (b : Block) : Nat × List Byte × Block :=
  match queryAnswer b op (mbArg b 0 2) with
  | some l => (0, packs 4 l, b)
  | none => (4, [], b)

/-- STATS_SNAPSHOT (R110, R402): the firmware takes a snapshot, which restarts the window. -/
def mbSnapshot (b : Block) : Nat × List Byte × Block :=
  let seq := (b.get DLR_SNAP_STAT_seq + 1) % 65536
  (0, snapImage seq b, (restartWindow b).put DLR_SNAP_STAT_seq seq)

/-! ### SAMPLE_LOAD and the flash -/

/-- Whether the boot source is a flash. -/
def flashBoot (b : Block) : Bool := b.get SYS_STAT_bootsel ≤ 1
/-- `n` bytes of the flash from an offset. -/
def flashBytes (b : Block) (o n : Nat) : List Byte := (List.range n).map fun i => FMap.get (fun _ => 0xFF) b.sys.flash (o + i)
/-- Write flash bytes from an offset. -/
def flashWrite (o : Nat) (l : List Byte) (b : Block) : Block :=
  setSys (fun s => { s with flash := FMap.setAll (fun _ => 0xFF) s.flash ((List.range l.length).map fun i => (o + i, l.getD i 0)) }) b

/-- The bytes that a SAMPLE_LOAD brings, and where to (R402): a status when it is refused. -/
def loadPlan (b : Block) (len : Nat) : Nat × Nat × List Byte :=
  let o := mbArg b 0 8
  let n := mbArg b 0xC 4
  let flash := mbArg b 8 1 == 1
  let fo := mbArg b 0x10 4
  if 1 < mbArg b 8 1 then (4, 0, [])
  else if (List.range (n / 65536 + 2)).any (fun i => protectedAt b (min (o + 65536 * i) (o + (n - 1)))) then (5, 0, [])
  else if o < b.get SYS_DRAM_FREE_units * 65536 ∨ dramSize b < o + n then (4, 0, [])
  else if flash then (if flashBoot b ∧ fo + n ≤ b.sys.flashSize then (0, o, flashBytes b fo n) else (4, 0, []))
  else if 0x18 + n ≤ len then (0, o, mbPayload b 0x18 n)
  else (4, 0, [])

/-- SAMPLE_LOAD of at most `most` bytes. -/
def loadSome (len : Nat) (most : Option Nat) (b : Block) : Nat × List Byte × Block :=
  let (st, o, l) := loadPlan b len
  if st ≠ 0 then (st, [], b)
  else
    let w := match most with | some k => l.take k | none => l
    (0, leBytes 4 w.length, { b with mem := Memory.setBytes b.mem (0x100000000 + o) w })

/-- FLASH_READ (R402). -/
def mbFlashRead (b : Block) : Nat × List Byte × Block :=
  let o := mbArg b 0 4
  let n := mbArg b 4 4
  if flashBoot b ∧ n ≤ 65472 ∧ o + n ≤ b.sys.flashSize then (0, flashBytes b o n, b) else (4, [], b)

/-- Sector `k` of a program operation: it is erased, and its bytes are written. -/
def flashSector (o k : Nat) (l : List Byte) (b : Block) : Block :=
  let part := (l.drop (4096 * k)).take 4096
  flashWrite (o + 4096 * k) (part ++ List.replicate (4096 - part.length) 0xFF) b

/-- FLASH_PROGRAM (R402), sector by sector: `most` sectors when it is cancelled, and the sector at which it fails. -/
def flashSome (len : Nat) (most fail : Option Nat) (b : Block) : Nat × List Byte × Block :=
  let o := mbArg b 0 4
  let n := mbArg b 4 4
  if !flashBoot b || o % 4096 != 0 || decide (b.sys.flashSize < o + n) || decide (len < 8 + n) then (4, [], b)
  else
    let l := mbPayload b 8 n
    let sectors := min (ceilDiv n 4096) (most.getD (ceilDiv n 4096))
    let good := match fail with | some k => min k sectors | none => sectors
    let b1 := (List.range good).foldl (fun acc k => flashSector o k l acc) b
    let b2 := if good < sectors then
        flashWrite (o + 4096 * good) ((List.range 4096).map fun i => Config.flashFault (o + 4096 * good + i) (l.getD (4096 * good + i) 0xFF)) b1
      else b1
    (if good < sectors then 6 else 0, leBytes 4 (min n (4096 * good)), b2)

/-! ### Unlocking and reset -/

/-- UNLOCK_CHALLENGE (R447). -/
def mbChallenge (b : Block) : Nat × List Byte × Block :=
  let b1 := challenge (b.put SEC_UNLK_scope (mbArg b 0 1 % 8))
  if b.get SEC_STAT_method = 0 ∨ ¬ b1.sec.nonce then (5, [], b1)
  else (0, nonceBytes b1 ++ leBytes 8 b1.sec.serial ++ leBytes 1 (b1.get SEC_STAT_method) ++ leBytes 7 0, b1)

/-- UNLOCK_RESPONSE (R447). -/
def mbResponse (b : Block) : Nat × List Byte × Block :=
  let b1 := (List.range 8).foldl (fun acc n => acc.setNum (SEC_RESP n) (mbArg b (4 + 4 * n) 4)) (b.put SEC_UNLK_scope (mbArg b 0 1 % 8))
  let b2 := submitUnlock b1
  if b2.get SEC_UNLK_result = 1 then (0, leBytes 1 (b2.get SEC_STAT_opn) ++ leBytes 3 0, b2) else (5, [], b2)

/-- RESET (R402): the chip reset follows 1 ms after the completion point. -/
def mbReset (b : Block) : Nat × List Byte × Block := (0, [], setSys (fun s => { s with resetDue := true }) b)
/-- That reset. -/
def mbResetExpire (b : Block) : Block := if b.sys.resetDue then computeReset true b else b

/-- The opcodes of R402. -/
def mbKnown (op : Nat) : Bool := [1, 2, 3, 0x10, 0x20, 0x21, 0x22, 0x30, 0x40, 0x50, 0x51, 0x60, 0x61, 0x70].contains op

/-- A command of another opcode. -/
def mbBadOpcode (b : Block) : Block :=
  match mbTaken b 0 65535 with
  | some m => if mbKnown m.op then b else mbExec 0 65535 false (fun a => (3, [], a)) b
  | none => b

/-! ### PATCH_APPLY (R403) -/

/-- The status of a container: 0 where it may be applied. -/
def patchStatus (img : List Byte) (b : Block) : Nat :=
  match judge b img img.length b.sec.fuses.imgAuth true (placeLimit b false) with
  | .refused 5 _ => 5
  | .refused 6 _ => 7
  | .refused _ _ => 4
  | .good _ _ => if (patchOk img b).isSome then 0 else 4

/-- PATCH_APPLY: a good container waits for the next pick boundary, its completion point. -/
def mbPatch (b : Block) : Block :=
  match mbTaken b 0x40 0x40 with
  | none => b
  | some m =>
    let img := mbPayload b 0 m.len
    if b.on SYS_STAT_recovery then mbFinish 8 [] b
    else if m.cancel then mbCancelled m 0 b
    else if 131008 < m.len then mbFinish 4 [] b
    else match patchStatus img b, patchOk img b with
      | 0, some secs => setSys (fun s => { s with patch := some ⟨secs⟩ }) b
      | st, _ => mbFinish st [] b

/-! ### Cancelling (R402) -/

/-- The next safe point of a command that is to be cancelled, after `work` sectors or bytes: what it has done by then stands. -/
def mbSafePoint (work : Nat) (b : Block) : Block :=
  match mbTaken b 0 65535 with
  | some m =>
    if !m.cancel then b
    else if b.on SYS_STAT_recovery ∧ m.op = 0x10 then mbFinish 8 [] b
    else
      let (done, b1) :=
        if m.op = 0x51 then (let (_, r, a) := flashSome m.len (some work) none b; (leNat r, a))
        else if m.op = 0x10 then (let (_, r, a) := loadSome m.len (some work) b; (leNat r, a))
        else (0, b)
      mbCancelled m done (setSys (fun s => { s with patch := none }) b1)
  | none => b

/-! ### SysEx (R77, R148, R405) -/

/-- A message enters the 64 KiB queue, or is dropped whole (R405). -/
def syxPush (src : Nat) (bytes : List Byte) (b : Block) : Block :=
  if sumNat (b.sys.syx.map fun m => m.2.length) + bytes.length ≤ 65536 then setSys (fun s => { s with syx := s.syx ++ [(src, bytes)] }) b
  else b.bump SYS_SYX_dropped

/-- What a message asks of the tuning tables (R148). -/
inductive Mts where
  | bulk (table : Nat) (keys : List (Nat × Nat))
  | notes (table : Nat) (keys : List (Nat × Nat)) (retune : Bool)
  | request (table : Nat)
  | other
deriving DecidableEq, Repr

/-- The keys of single-note entries at `off`: key, xx, yy, zz. -/
def mtsKeys (m : List Byte) (off n : Nat) : List (Nat × Nat) :=
  (List.range n).filterMap fun i =>
    let o := off + 4 * i
    (mtsPitch (byteAt m (o + 1)) (byteAt m (o + 2)) (byteAt m (o + 3))).map fun v => (byteAt m o % 128, v)

/-- The keys of a bulk dump. -/
def mtsBulkKeys (m : List Byte) : List (Nat × Nat) :=
  (List.range 128).filterMap fun k => (mtsPitch (byteAt m (22 + 3 * k)) (byteAt m (23 + 3 * k)) (byteAt m (24 + 3 * k))).map fun v => (k, v)

/-- The reading of a whole message, 0xF0 to 0xF7, for the device ID of the SYS section. -/
def mtsOf (dev : Nat) (m : List Byte) : Mts :=
  let at' (i : Nat) : Nat := byteAt m i
  let n := m.length
  let mine := at' 0 == 0xF0 && (at' 2 == dev || at' 2 == 0x7F || dev == 0x7F) && at' 3 == 0x08 && at' (n - 1) == 0xF7
  if !mine then .other
  else if at' 1 = 0x7E ∧ at' 4 = 0 ∧ n = 7 ∧ at' 5 < 16 then .request (at' 5)
  else if at' 1 = 0x7E ∧ at' 4 = 1 ∧ n = 408 ∧ at' 5 < 16 then .bulk (at' 5) (mtsBulkKeys m)
  else if at' 1 = 0x7F ∧ at' 4 = 2 ∧ n = 8 + 4 * at' 6 ∧ at' 5 < 16 then .notes (at' 5) (mtsKeys m 7 (at' 6)) true
  else if (at' 1 = 0x7E ∨ at' 1 = 0x7F) ∧ at' 4 = 7 ∧ n = 9 + 4 * at' 7 ∧ at' 5 = 0 ∧ at' 6 < 16 then
    .notes (at' 6) (mtsKeys m 8 (at' 7)) (at' 1 == 0x7F)
  else .other

/-- The firmware reaches the first message that it serves; the others before it are ignored and counted (R148). -/
def syxSkip : List (Nat × List Byte) → Block → Block
  | [], b => b
  | x :: rest, b =>
    if mtsOf (b.get SYS_CFG_dev_id) x.2 = .other then syxSkip rest (setSys (fun s => { s with syx := rest }) (b.bump SYS_SYX_dropped)) else b

/-- The firmware, unless it is stopped, has gone through the queue as far as the first message that it serves. -/
def syxReach (b : Block) : Block := if b.sys.mpDown then b else syxSkip b.sys.syx b

/-- The first message of the queue that the firmware serves, and the block once it is served; none while the firmware is stopped. -/
def syxTake (b : Block) : Option (Mts × Block) :=
  if b.sys.mpDown then none
  else
    let b1 := syxReach b
    b1.sys.syx.head?.map fun x => (mtsOf (b1.get SYS_CFG_dev_id) x.2, syxReach (setSys (fun s => { s with syx := s.syx.drop 1 }) b1))

/-- MTS_BULK_DUMP: the table takes 128 entries; sounding voices keep their pitch. -/
def mtsBulkDump (b : Block) : Block :=
  match syxTake b with
  | some (.bulk t keys, b1) => tuningWrite t keys false b1
  | _ => syxReach b
/-- MTS_SINGLE_NOTE_CHANGE. -/
def mtsSingleNote (b : Block) : Block :=
  match syxTake b with
  | some (.notes t keys retune, b1) => tuningWrite t keys retune b1
  | _ => syxReach b

/-- The bulk dump of a table: its bytes from 0xF0 to 0xF7, with the checksum of the standard. -/
def mtsDump (b : Block) (t : Nat) : List Byte :=
  let dev := b.get SYS_CFG_dev_id
  let entry (k : Nat) : List Byte :=
    let v := FMap.get (fun i => i % 128 * 65536) b.alc.tuning (t * 128 + k)
    [BitVec.ofNat 8 (v / 65536), BitVec.ofNat 8 (v / 512 % 128), BitVec.ofNat 8 (v / 4 % 128)]
  let body : List Byte := [0x7E, BitVec.ofNat 8 dev, 0x08, 0x01, BitVec.ofNat 8 t] ++ ((List.range 16).map fun i => Config.mtsName t i &&& 0x7F) ++
    (List.range 128).flatMap entry
  [0xF0] ++ body ++ [body.foldl (fun x y => x ^^^ y) 0 &&& 0x7F, 0xF7]

/-- MTS_BULK_DUMP_REQUEST: answered on MIDI_TX0. -/
def mtsRequest (b : Block) : Block :=
  match syxTake b with
  | some (.request t, b1) => setSys (fun s => { s with midiTx := s.midiTx ++ [mtsDump b1 t] }) b1
  | _ => syxReach b

end Sys2Proof.Machine
end

