-- ==== Sys2Proof/Machine/Power.lean ====
section
/-! DEFINITION. Power, heat and the TAP (R407–R420, R431, R432, R445, R446): what the power die, the sensors and JTAG do to the engine. -/

namespace Sys2Proof.Machine

/-- Set the power state. -/
def setPwr (f : Pwr → Pwr) (b : Block) : Block := { b with pwr := f b.pwr }

/-! ### Rails (R407, R410, R416) -/

/-- Every rail is off: PGOOD is low and the compute die is held in reset. -/
def railsOff (b : Block) : Block :=
  setPwr (fun p => { p with powered := false }) (((computeReset false b).put PWR_STAT_pgood 0).put PWR_STAT_rail_ok 0 |>.put PWR_STAT_hold 0)
/-- Every rail is good and PGOOD rises: the compute die may leave reset (R410). -/
def railsOn (b : Block) : Block :=
  setPwr (fun p => { p with powered := true }) ((b.put PWR_STAT_pgood 1).put PWR_STAT_rail_ok 0x3F)

/-- UVLO falling (R407): the rails go off at once and PFW_N goes low. -/
def uvloFall (b : Block) : Block := setPwr (fun p => { p with pfw := true, shut := false, retry := false }) (railsOff b)
/-- Over-voltage (R407): as UVLO falling, until VIN is below 41.0 V. -/
def overVoltage (b : Block) : Block := setPwr (fun p => { p with overVolt := true }) (uvloFall b)
/-- VIN is below 41.0 V again (R407): start-up restarts from step 1. -/
def overVoltageRelease (b : Block) : Block :=
  if b.pwr.overVolt then powerReset b.sys.flash b.sys.flashSize b.sys.sfdp b else b

/-- A rail is not good within twice its soft-start time (R410): the rails raised go off, and a retry is awaited. -/
def railStartTimeout (b : Block) : Block :=
  if b.sys.held then
    setPwr (fun p => { p with powered := false, retry := true }) ((b.put PWR_STAT_pgood 0).put PWR_STAT_rail_ok 0)
  else b
/-- The retry after 100 ms (R410). -/
def railRetry (b : Block) : Block := if b.pwr.retry then setPwr (fun p => { p with retry := false }) (railsOn b) else b

/-- A core phase fails (R416): with one working phase or none, the chip safe state and a controlled shutdown. -/
def phaseFailure (p : Nat) (b : Block) : Block :=
  if b.bit PWR_STAT_phase_ok p then
    let b1 := ((b.clrBit PWR_STAT_phase_ok p).bump PWR_CNT_phase).flag PWR_IRQ_STAT_phase
    if phasesOk b1 ≤ 1 then railsOff (safeEntry 6 0 b1) else b1
  else b

/-- The input stage limits current in a period (R415). -/
def currentLimit (b : Block) : Block := (b.bump PWR_CNT_ilim).flag PWR_IRQ_STAT_ilim

/-! ### Switching (R411, R412) -/

/-- PWR_STAT.lock takes a value; a change is flagged. -/
def setLock (on : Bool) (b : Block) : Block :=
  if b.on PWR_STAT_lock == on then b else (b.put PWR_STAT_lock (if on then 1 else 0)).flag PWR_IRQ_STAT_lock

/-- f_c in Hz (R411). -/
def coreHz (b : Block) : Nat := [36, 24, 24, 12, 12, 6].getD b.rateCode 6 * b.fs

/-- The bucks have slewed to the locked frequency and lock in phase (R412). -/
def switchingLock (b : Block) : Block :=
  if b.get TBU_REF_STAT_state = 1 then setLock true (b.put PWR_RAIL_fcore (quotient (coreHz b) 1000).toNat) else b

/-! ### Brown-out (R417) -/

/-- PFW_N falls: step 1, and before start-up step 10 the shutdown at once. -/
def brownOut (t : Nat) (b : Block) : Block :=
  if b.sys.held ∨ b.pwr.pfw then b
  else
    let b1 := setPwr (fun p => { p with pfw := true, boT := t, good := none }) ((b.bump PWR_CNT_bo).flag PWR_IRQ_STAT_bo)
    if b.get SYS_STAT_step < 10 then setPwr (fun p => { p with shut := true }) (railsOff b1)
    else
      let b2 := b1.put PWR_STAT_hold 1
      askStop { b2 with tbu := { b2.tbu with holds := if b2.tbu.holds.contains .brownOut then b2.tbu.holds else .brownOut :: b2.tbu.holds } }

/-- VIN has risen above PWR_BOVTH + 0.2 V: PFW_N is released. -/
def vinGood (t : Nat) (b : Block) : Block := if b.pwr.pfw then setPwr (fun p => { p with pfw := false, good := some t }) b else b

/-- PWR_HOLD in ms: values above 1,000 act as 1,000. -/
def holdMs (b : Block) : Nat := min 1000 (b.get PWR_HOLD_ms)

/-- Step 3a: VIN has been good for 1 ms within PWR_HOLD of step 1, and every rail is good. Picks may resume at the next frame edge. -/
def brownOutRecovery (t : Nat) (b : Block) : Block :=
  match b.pwr.good with
  | some g =>
    if b.tbu.holds.contains .brownOut ∧ g + 1000000 ≤ t ∧ t ≤ b.pwr.boT + holdMs b * 1000000 ∧ b.get PWR_STAT_rail_ok = 0x3F then
      let b1 := setPwr (fun p => { p with good := none }) (((b.put PWR_STAT_hold 0).bump PWR_CNT_rec).flag PWR_IRQ_STAT_rec)
      { b1 with tbu := { b1.tbu with holds := b1.tbu.holds.filter (· != .brownOut) } }
    else b
  | none => b

/-- Step 3b: the controlled shutdown at the end of PWR_HOLD. -/
def brownOutShutdown (b : Block) : Block :=
  if b.tbu.holds.contains .brownOut then setPwr (fun p => { p with shut := true }) (railsOff b) else b

/-- Step 4: VIN has been good for 10 ms after the shutdown; the rails go up again, and start-up runs from step 3. -/
def brownOutRepower (b : Block) : Block :=
  if b.pwr.shut ∧ ¬ b.pwr.pfw then setPwr (fun p => { p with shut := false }) (railsOn b) else b

/-! ### Heat (R418–R420) -/

/-- The thresholds T1, T2 and T3 in °C as they act (THM_LIM). -/
def thmT1 (b : Block) : Nat := min 100 (max 60 (b.get THM_LIM_t1))
def thmT2 (b : Block) : Nat := if b.get THM_LIM_t2 ≤ thmT1 b then min (thmT1 b + 5) 105 else min (b.get THM_LIM_t2) 105

/-- A sensor takes a sample `x` in 1/16 °C: the counts in a row, and its new level. -/
def Sensor.take (s : Sensor) (t1 t2 : Nat) (x : Int) : Sensor :=
  let up (th n : Nat) : Nat := if 16 * (th : Int) ≤ x then n + 1 else 0
  let down (th n : Nat) : Nat := if x < 16 * ((th : Int) - 3) then n + 1 else 0
  let s1 := { s with up1 := up t1 s.up1, up2 := up t2 s.up2, up3 := up 115 s.up3
                     below1 := down t1 s.below1, below2 := down t2 s.below2, below3 := down 115 s.below3 }
  let reached := if 2 ≤ s1.up3 then 3 else if 2 ≤ s1.up2 then 2 else if 2 ≤ s1.up1 then 1 else 0
  if s.level < reached then { s1 with level := reached }
  else
    let l3 := if s.level = 3 ∧ 100 ≤ s1.below3 then 2 else s.level
    let l2 := if l3 = 2 ∧ 100 ≤ s1.below2 then 1 else l3
    { s1 with level := if l2 = 1 ∧ 100 ≤ s1.below1 then 0 else l2 }

/-- A temperature shows in THM_Ts: its value, and the highest since the last read (0: none yet). -/
def showTemp (s : Nat) (x : Half) (b : Block) : Block :=
  let old := BitVec.ofNat 16 (b.get (THM_T_max s))
  (b.put (THM_T_temp s) x.toNat).put (THM_T_max s) (if old = 0 ∨ old.toInt < x.toInt then x.toNat else old.toNat)

/-- A loom or chip sensor takes its sample: entries and departures are counted and flagged. -/
def takeTemp (s : Nat) (x : Half) (b : Block) : Block :=
  let old := sensorOf b s
  let new := old.take (thmT1 b) (thmT2 b) x.toInt
  let b1 := showTemp s x { b with pwr := { b.pwr with sensors := FMap.set (fun _ => {}) b.pwr.sensors s new } }
  if old.level < new.level then
    match new.level with
    | 1 => (b1.bump THM_CNT_t1).flag THM_IRQ_STAT_t1
    | 2 => (b1.bump THM_CNT_t2).flag THM_IRQ_STAT_t2
    | _ => b1.bump THM_CNT_t3
  else if new.level < old.level then b1.flag THM_IRQ_STAT_left
  else b1

/-- The levels show in THM_STAT and THM_LEVEL. -/
def showLevels (b : Block) : Block :=
  let l := (List.range 5).map fun s => (sensorOf b s).level
  (b.put THM_STAT_level (l.foldl max 0)).put THM_LEVEL_levels (sumNat ((List.range 5).map fun s => l.getD s 0 * 4 ^ s))

/-- The T3 state begins (R419): a fade, the chip safe state with cause 8, THERM_N low. -/
def t3Begin (b : Block) : Block :=
  if b.get THM_STAT_level = 3 ∧ ¬ b.on THM_STAT_critical then
    safeEntry 8 0 (((b.put THM_STAT_critical 1).put THM_STAT_therm_n 1).flag THM_IRQ_STAT_t3)
  else b

/-- The power-die sensor takes its sample (R420). -/
def takePdie (x : Half) (b : Block) : Block :=
  let b1 := showTemp 5 x b
  let hot := if 125 * 16 ≤ x.toInt then true else if x.toInt < 120 * 16 then false else b.pwr.hot
  let b2 := setPwr (fun p => { p with hot := hot }) (b1.put PWR_STAT_pdie_hot (if hot then 1 else 0))
  let b3 := if hot ∧ ¬ b.pwr.hot then (b2.flag PWR_IRQ_STAT_pdie_hot).flag THM_IRQ_STAT_pdie else b2
  if 140 * 16 ≤ x.toInt ∧ ¬ b.pwr.tooHot then
    (setPwr (fun p => { p with tooHot := true }) (railsOff b3)).put THM_STAT_therm_n 1
  else if b.pwr.tooHot ∧ x.toInt < 120 * 16 then
    (setPwr (fun p => { p with tooHot := false }) (railsOn b3)).put THM_STAT_therm_n 0
  else b3

/-- VIN, the input current and VCORE are measured. -/
def takeSupply (vin iin vcore : Nat) (b : Block) : Block :=
  let low := b.get PWR_VIN_vin_min
  let b1 := (b.put PWR_VIN_vin vin).put PWR_VIN_vin_min (min 45000 (if low = 0 then vin else min low vin))
  let b2 := ((b1.put PWR_IIN_iin iin).put PWR_IIN_peak (max iin (b.get PWR_IIN_peak))).put PWR_RAIL_vcore vcore
  setPwr (fun p => { p with vinLow := some (match p.vinLow with | some v => min v vin | none => vin) }) b2

/-- The samples of 1 ms (R413, R418–R420): the loom and chip sensors while the compute die runs, and the power die's. -/
def thermalSample (temps : List Half) (pdie : Half) (vin iin vcore : Nat) (b : Block) : Block :=
  let b1 := if b.sys.held then b
    else
      let b2 := (List.range 5).foldl (fun acc s => takeTemp s (temps.getD s 0) acc) b
      let cold := temps.all fun x => decide (x.toInt < 16 * ((thmT1 b : Int) - 5))
      t3Begin (showLevels (setPwr (fun p => { p with cool := if cold then p.cool + 1 else 0 }) b2))
  takePdie pdie (takeSupply vin iin vcore b1)

/-- T3 ends by itself (R419): t3_auto is set and every loom and chip sensor has been below t1 − 5 °C for 1 s. -/
def t3Resume (b : Block) : Block :=
  if b.on THM_STAT_critical ∧ b.on THM_LIM_t3_auto ∧ 1000 ≤ b.pwr.cool then
    let b1 := (b.put THM_STAT_critical 0).put THM_STAT_therm_n 0
    let b2 := { b1 with tbu := { b1.tbu with holds := b1.tbu.holds.filter (· != .thermal) } }
    if b2.tbu.holds.contains .safe then b2 else (b2.put REL_STAT_safe 0).put REL_STAT_cause 0
  else b

/-- REL_CFG.auto_reset makes the reset that ends the chip safe state (R432). -/
def safeStateAutoReset (b : Block) : Block :=
  if b.tbu.holds.contains .safe ∧ b.on REL_CFG_auto_reset then computeReset true b else b

/-! ### The TAP (R445, R446) -/

/-- The instruction that a load of a code gives: DEBUG and TEST need their scopes, otherwise BYPASS. -/
def tapInstruction (code : Byte) (b : Block) : Byte :=
  if code = 0x10 then (if b.bit SEC_STAT_opn 0 then code else 0xFF)
  else if 0x20 ≤ code ∧ code ≤ 0x2F then (if b.bit SEC_STAT_opn 1 then code else 0xFF)
  else if code ≤ 0x06 then code
  else 0xFF

/-- Whether an instruction takes the pins: EXTEST, CLAMP, HIGHZ, EXTEST_PULSE, EXTEST_TRAIN, TEST. -/
def tapTakesPins (i : Byte) : Bool := i == 0 || (3 ≤ i && i ≤ 6) || (0x20 ≤ i && i ≤ 0x2F)

/-- A TAP instruction is loaded (R446): one that takes the pins of a running engine first puts it into the chip safe state. -/
def jtagLoad (code : Byte) (b : Block) : Block :=
  let i := tapInstruction code b
  let b1 := if tapTakesPins i ∧ ¬ b.sys.held ∧ ¬ b.on SYS_STAT_recovery then safeEntry 7 0 b else b
  { b1 with sec := { b1.sec with tap := i } }

/-- What the IDCODE register shifts out (R445): version 1 for B0, part 0x4096, manufacturer 0x3A7. -/
def idcode : Word := 0x1409674F

/-- TRST_N resets the TAP to IDCODE. -/
def trstN (b : Block) : Block := { b with sec := { b.sec with tap := 0x02 } }

end Sys2Proof.Machine
end

