-- ==== Sys2Proof/Machine/Pick.lean ====
section
/-! DEFINITION. The pick boundary (R17, R19, R90, R99, R107, R108): what the end of pick n and the start of pick n + 1 do. -/

namespace Sys2Proof.Machine

/-! ### The end of a pick -/

/-- Set the reliability state. -/
def setRel (f : Rel → Rel) (b : Block) : Block := { b with rel := f b.rel }

/-- The looms whose bus phase of pick `n` has not ended (R19, R90). -/
def lateLooms (b : Block) (n : Nat) : List Nat :=
  if b.dlr.createdPick = n + 1 then (List.range 4).filter fun l => FMap.get (fun _ => none) b.dlr.busEnd l == none else []

/-- A late loom (R19, R90, R429): counted, and quarantined after REL_CFG.late_quar picks in a row. -/
def noteLate (l : Nat) (b : Block) : Block :=
  let run := FMap.get (fun _ => 0) b.rel.lateRun l + 1
  let st := b.dlr.stats
  let b1 := { (impair ((b.bump DLR_ERR_late_loom).flag DLR_IRQ_STAT_late_loom)) with
    dlr := { b.dlr with stats := { st with late := FMap.set (fun _ => 0) st.late l (FMap.get (fun _ => 0) st.late l + 1) } } }
  let b2 := setRel (fun r => { r with lateRun := FMap.set (fun _ => 0) r.lateRun l run }) b1
  let limit := b.get REL_CFG_late_quar
  if limit ≠ 0 ∧ limit ≤ run then quarantineNext l 3 b2 else b2

/-- A loom in time: its slack (R107). -/
def noteInTime (l : Nat) (b : Block) : Block :=
  let b1 := setRel (fun r => { r with lateRun := FMap.set (fun _ => 0) r.lateRun l 0 }) b
  match FMap.get (fun _ => none) b.dlr.busEnd l with
  | some t => if (planOn b l).isEmpty then b1 else noteSlack l ((b.now : Int) - t) b1
  | none => b1

/-- Cards of picks up to `n` at levels 0–6 that are not in service lapse (R90, R435). -/
def lapse (n : Nat) (b : Block) : Block :=
  let waits (c : Card) : Bool := match c.st with | .inService _ => false | _ => true
  (b.dlr.cards.filter fun c => decide (c.pick ≤ n ∧ c.level ≤ 6) && waits c).foldl (fun acc c =>
    let a1 := (finishCard c .lapsed acc.now acc).bump DLR_ERR_lapsed
    if c.render then impair a1 else a1) b

/-- Whether what surrounds the pick lies outside the promise of R436. -/
def outsideNow (b : Block) : Bool :=
  b.rel.outside || b.get TBU_REF_STAT_state != 1 || b.tbu.holds.contains .brownOut ||
  (b.on REL_STAT_safe && (b.get REL_STAT_cause == 6 || b.get REL_STAT_cause == 7))

/-- A pick is judged (R435, R436): an impaired pick within one pick of an excluded cause counts in REL_IMPX too. -/
def countImpaired (b : Block) : Block :=
  let imp := b.rel.impaired || b.on REL_STAT_safe
  let out := outsideNow b
  let b2 := if imp then b.bump REL_IMP_imp else b
  let mine := imp && (out || b.rel.lastOut)
  let b3 := b2.bump REL_IMPX_impx ((if mine then 1 else 0) + (if b.rel.lastImp && out then 1 else 0))
  setRel (fun r => { r with impaired := false, outside := false, lastOut := out, lastImp := imp && !mine }) b3

/-- A rendered pick is counted (R435). -/
def countPick (b : Block) : Block := countImpaired (b.bump REL_PICKS_picks)

/-- Pick `n` ends (R17, R19): its late looms are told, the chip stage and the chain take it, and it is counted; `final`: cycle 0 of
pick n + 1, in which cards lapse. -/
def closePick (n : Nat) (final : Bool) (b : Block) : Block :=
  let late := lateLooms b n
  if b.mix.mixed = n + 1 then (if final then lapse n b else b)
  else
    let b1 := (List.range 4).foldl (fun acc l =>
      if late.contains l then noteLate l acc else if acc.dlr.createdPick = n + 1 then noteInTime l acc else acc) b
    let b2 := if final then lapse n b1 else b1
    let b3 := if b2.dlr.createdPick = n + 1 then countDropped n b2 else b2
    let b4 := countPick (mixPick n late b3)
    { b4 with mix := { b4.mix with mixed := n + 1 } }

/-! ### Statistics (R107) -/

/-- The depths at the boundary, before its lapses, and the busy cycles of the pick that has ended; before the very first pick none has. -/
def rollStats (b0 : Block) : Block :=
  let b := (List.range 288).foldl (fun acc i => noteDepth (i / 8) (i % 8) acc.now acc) b0
  let st := b.dlr.stats
  let depth := FMap.setAll (fun _ => 0) [] ((List.range 288).map fun i => (i, depthOf b (i / 8) (i % 8) b.now))
  let busy := st.busyNow
  let winMax := busy.foldl (fun m kv => FMap.set (fun _ => 0) m kv.1 (max (FMap.get (fun _ => 0) m kv.1) kv.2)) st.winMax
  { b with dlr := { b.dlr with stats := { st with
    depth := depth, busy := busy, busyNow := [], winMax := winMax, picks := if b.mix.mixed = 0 then st.picks else st.picks + 1, peak := max st.peak (chBytes b) } } }

/-! ### Roles at a boundary (R93, R94, R425, R426, R433) -/

/-- The field of lane `l` of harness `h`. -/
def laneField (h l : Nat) : Fld :=
  match l with
  | 0 => DLR_LANE_lane0 h
  | 1 => DLR_LANE_lane1 h
  | 2 => DLR_LANE_lane2 h
  | _ => DLR_LANE_lane3 h

/-- The shuttles of harness `h` that are not retired, by k, ascending. -/
def survivors (b : Block) (h : Nat) : List Nat := (List.range 5).filter fun k => !retired b (5 * h + k)
/-- Its load shuttles. -/
def loadShuttles (b : Block) (h : Nat) : List Nat := (survivors b h).filter fun k => k != b.get (DLR_LANE_spare h)

/-- The lane map of harness `h` rebuilt among its load shuttles (R93): lane l goes to rank floor(l × m / 4), and with none reads 7. -/
def rebuildLanes (h : Nat) (b : Block) : Block :=
  let loads := loadShuttles b h
  (List.range 4).foldl (fun acc l => acc.put (laneField h l) (loads.getD (l * loads.length / 4) 7)) b

/-- Shuttle `s` is retired (R425, R426). -/
def retire (s : Nat) (b : Block) : Block :=
  if retired b s then b
  else
    let h := s / 5
    let b1 := ((b.setBit (REL_RETIRE_retired (s / 32)) (s % 32)).bump REL_STAT_retired).flag REL_IRQ_STAT_retire
    let b2 := if b.on REL_CFG_retire_fuse ∧ 8000 ≤ b.get PWR_VIN_vin then setRel (fun r => { r with fused := addNew s r.fused }) b1 else b1
    if b.get (DLR_LANE_spare h) = s % 5 then b2.put (DLR_LANE_spare h) 7
    else if (List.range 4).any (fun l => laneHolder b h l == s % 5) then rebuildLanes h b2 else b2

/-- The retirements due at the boundary. -/
def retirements (b : Block) : Block :=
  b.rel.retireNext.foldl (fun acc s => retire s acc) (setRel (fun r => { r with retireNext := [] }) b)

/-- REL_CFG.rot_picks as it acts: values below 500 as 3,000. -/
def rotPicks (b : Block) : Nat := let v := b.get REL_CFG_rot_picks; if v < 500 then 3000 else v

/-- The load shuttle that becomes the spare next: the survivor after the spare, cyclic in ascending k. -/
def outgoing (b : Block) (h : Nat) : Option Nat :=
  let loads := loadShuttles b h
  ((loads.find? fun k => decide (b.get (DLR_LANE_spare h) < k)).or loads.head?)

/-- Whether shuttle `k` of harness `h` is in DRAW with no card. -/
def idleInDraw (b : Block) (h k : Nat) : Bool := shtState b (5 * h + k) == 0 && (b.shuttle (5 * h + k)).card.isNone

/-- The roles rotate (R93, R94): the spare takes every lane of the outgoing shuttle `k`; with no spare the map is rebuilt without it. -/
def rotate (h k : Nat) (b : Block) : Block :=
  let spare := b.get (DLR_LANE_spare h)
  let b1 := { b with dlr := { b.dlr with
    testDone := b.dlr.testDone.filter (· != h), bistStep := FMap.set (fun _ => 0) b.dlr.bistStep h 0
    rotDue := FMap.set (fun _ => none) b.dlr.rotDue h none } }
  if spare = 7 then rebuildLanes h (b1.put (DLR_LANE_spare h) k)
  else
    let b2 := (List.range 4).foldl (fun acc l => if laneHolder b h l = k then acc.put (laneField h l) spare else acc) b1
    b2.put (DLR_LANE_spare h) k

/-- Whether harness `h` can rotate with `k` going out: the spare has passed its sequence and is idle, and so is `k`. -/
def canRotate (b : Block) (h k : Nat) : Bool :=
  let spare := b.get (DLR_LANE_spare h)
  idleInDraw b h k && (spare == 7 || (b.dlr.testDone.contains h && idleInDraw b h spare))

/-- The rotation schedule of harness `h` at the start of pick `m` (R433). -/
def rotation (m h : Nat) (b : Block) : Block :=
  let due := decide (h * (rotPicks b / 32) ≤ m) && (m - h * (rotPicks b / 32)) % rotPicks b == 0
  let was := FMap.get (fun _ => none) b.dlr.rotDue h
  let since := was.or (if due then some m else none)
  match since, outgoing b h with
  | some n, some k =>
    if canRotate b h k then rotate h k b
    else
      let b1 := { b with dlr := { b.dlr with rotDue := FMap.set (fun _ => none) b.dlr.rotDue h (some n) } }
      if m = n + 4 * rotPicks b then (b1.bump REL_ROT_late).flag REL_IRQ_STAT_rot_late else b1
  | _, _ => b

/-- The rotations of a boundary, after its retirements. -/
def rotations (m : Nat) (b : Block) : Block :=
  if b.on REL_CFG_rot_en then (List.range 32).foldl (fun acc h => rotation m h acc) b else b

/-! ### Quarantine (R429, R430) and lost voices (R84, R427) -/

/-- A loom enters quarantine; REL_LCAP captures the cause. -/
def quarantine (l cause : Nat) (b : Block) : Block :=
  if b.bit DLR_STAT_quar l then b
  else
    let b1 := ((b.setBit DLR_STAT_quar l).bump REL_CNT_quar).flag REL_IRQ_STAT_quar
    if b1.on REL_LCAP_valid then b1 else ((b1.put REL_LCAP_loom l).put REL_LCAP_cause cause).put REL_LCAP_valid 1

/-- The quarantines that begin and end at the boundary: a new cause keeps a loom in quarantine. -/
def quarantines (b : Block) : Block :=
  let new := b.rel.quarNext
  let b1 := (b.rel.unquarNext.filter fun l => !new.any fun x => x.1 == l).foldl (fun acc l => acc.clrBit DLR_STAT_quar l) b
  let b2 := new.foldl (fun acc x => quarantine x.1 x.2 acc) b1
  setRel (fun r => { r with quarNext := [], unquarNext := [] }) (b2.put REL_CTL_unquar 0)

/-- A voice freed by an uncorrectable error in its context (R427). -/
def killVoice (v : Nat) (b : Block) : Block :=
  if (b.voice v).st = .free then b else impair (((faultFree v b).bump REL_CNT_kills).flag REL_IRQ_STAT_kill)

/-- The voices that R427 and R84 free at the boundary. -/
def freeLost (b : Block) : Block :=
  let b1 := b.rel.ueVoices.foldl (fun acc v => killVoice v acc) (setRel (fun r => { r with ueVoices := [] }) b)
  b1.dlr.lost.foldl (fun acc v => if (acc.voice v).st = .free then acc else faultFree v acc) { b1 with dlr := { b1.dlr with lost := [] } }

/-! ### The start of a pick -/

/-- How far the global LFOs in Hz have advanced at the start of pick `m` (R198). -/
def advanceLfos (m : Nat) (b : Block) : FMap Nat :=
  let old := b.alc.base
  let s := b.sect 0xD
  (List.range 16).foldl (fun acc g =>
    let step := lfoStep s (0x40 + 32 * g) (b.osr * b.fs) 8 0
    FMap.set (fun _ => 0) acc g (FMap.get (fun _ => 0) old.glfo g + (m - old.pick) * (b.nInt / 8) * step)) []

/-- What the harnesses hold at the start of pick `m` (R58). -/
def mirrorBase (m : Nat) (b : Block) : MirrorBase :=
  { pick := m, parts := b.alc.parts, tempo := tempoNow b, glfo := if (b.sect 0xD).isEmpty then [] else advanceLfos m b
    beats := (List.range b.pick).map fun i => betaAt b (m * b.pick + b.lOut + i - b.sample) }

/-- The notes of which R97, R84 or R427 has freed a voice end (R127, R135) at offset 0 of the pick. -/
def endFaulted (b : Block) : Block :=
  b.alc.endNext.foldl (fun acc k => endNote k 0x8000 0 false acc) { b with alc := { b.alc with endNext := [] } }

/-- The channels at the boundary of pick `m` (R327): a voice that sounded before it and whose window of the pick is not in makes one of the
channels late at least. -/
def channelsAt (m : Nat) (b : Block) : Block :=
  let waits := (voicesOf b).any fun kv => kv.2.copied && kv.2.bytes != 0 && decide (kv.2.startPick < m ∧ kv.2.winPick < m + 1)
  (List.range 2).foldl (fun acc c =>
    let a1 := acc.put (DRC_CH_UTIL_busy c) (Config.channelBusy m c % 1024)
    if waits ∧ (Config.channelLate m c ∨ (c = 1 ∧ !Config.channelLate m 0)) then (a1.bump (DRC_CH_UTIL_late c)).flag DRC_IRQ_STAT_late
    else a1) b

/-- What a pick keeps for itself starts anew. -/
def freshPick (m : Nat) (b : Block) : Block :=
  let b1 := dropUnits m b
  { b1 with
    alc := { b1.alc with
      started := 0, mirror := [], step2Done := false, base := mirrorBase m b1, last := b1.alc.base, lastMirror := b1.alc.mirror }
    dlr := { b1.dlr with steal := [], satLooms := [], gateOpen := [], busEnd := [], records := b1.dlr.records.filter fun x => decide (m ≤ x.pick + 1)
                         pickT := b1.now }
    rel := { b1.rel with dramUe := 0 }
    wft := { b1.wft with tx := [] }
    sys := { b1.sys with msixTx := [] }
    pwr := { b1.pwr with vinPick := b1.pwr.vinLow, vinLow := b1.pwr.vinLow.map fun _ => b1.get PWR_VIN_vin } }

/-- The pick before pick `m`; PICK_CNT wraps as SAMPLE_CNT does (R27). -/
def prevPick (p m : Nat) : Nat := if m = 0 then 2 ^ 64 / p - 1 else m - 1

/-- Pick `m` starts (R17): the pick before is closed; roles, quarantine, ledgers and shedding are settled; blocks are formed; then the
events, bookings and changes of the pick are released. -/
def pickStart (m : Nat) (b : Block) : Block :=
  let b0 := quarantines (rollStats b)
  let b1 := if b.tbu.firstPick = m then lapse m b0 else closePick (prevPick b.pick m) true b0
  let b2 := (snapBoundary b1).setNum TBU_PICK m
  let b3 := freeLost (rotations m (retirements b2))
  let b4 := shed (recompute (updateDRate (freshPick m (channelsAt m b3))))
  let b5 := dvReadback (commitLoops b4)
  let b6 := inputPick m (outputPick m b5)
  let b7 := weftPick m (cvLanes m (cvOffers (m - 1) b6))
  let b8 := applyTuning (applyPatch (releasePick m (convertBeats m (endFaulted b7))))
  let b9 := dvFill (decidePassed m (startBooked m (markBookings m b8)))
  if b9.tbu.stopAfter = some m then { b9 with tbu := { b9.tbu with fadeOut := some m } } else b9

end Sys2Proof.Machine
end

