-- ==== Sys2Proof/Machine/Reference.lean ====
section
/-! DEFINITION. The audio reference (R27–R33, R342): its states, frames, pauses, holdover and slips. -/

namespace Sys2Proof.Machine

/-- Set the time base unit. -/
def setTbu (f : Tbu → Tbu) (b : Block) : Block := { b with tbu := f b.tbu }

/-- The reference state's code changes (R30): 0 NONE, 1 LOCKED, 2 HOLDOVER, 3 PAUSED, 4 RATE_FAULT, 5 DETECT. The bucks keep their lock in
LOCKED and HOLDOVER (R412), and a state other than LOCKED marks the pick (R436). -/
def enterState (k : Nat) (b : Block) : Block :=
  let b1 := b.put TBU_REF_STAT_state k
  let b2 := if k = 1 then b1 else setRel (fun r => { r with outside := true }) b1
  let b3 := if k = 0 then setTbu (fun u => { u with number := true, loadAt := none, fromNone := true }) b2 else b2
  let b4 := match k with
    | 2 => b3.flag TBU_EVT_STAT_holdover
    | 3 => b3.flag TBU_EVT_STAT_paused
    | 4 => b3.flag TBU_EVT_STAT_rate_fault
    | _ => b3
  if k = 1 ∨ k = 2 then b4 else setLock false b4

/-! ### Frames -/

/-- Start-up step 10 is the first output frame of the first pick (R376). -/
def bootDone (f : Nat) (b : Block) : Block :=
  if b.get SYS_STAT_step = 9 ∧ b.tbu.firstPick * b.pick + b.lOut ≤ f then
    (b.put SYS_STAT_step 10).put SYS_BOOT_TIME_ms (min 65535 ((b.now - b.sys.releaseT) / 1000000))
  else b

/-- The picks after pick `n` up to pick `m`; PICK_CNT wraps as SAMPLE_CNT does (R27). -/
def picksFrom (p n m : Nat) : List Nat :=
  let w := 2 ^ 64 / p
  (List.range ((m + w - n) % w)).map fun i => (n + 1 + i) % w

/-- Frame `f`, modulo 2^64, is presented at `t`, `k` frames after the last one as BEAT_POS counts (R17, R27, R28): picks start as
SAMPLE_CNT reaches them, and `first` starts the pick of `f` in any case. -/
def frameAt (f' k t : Nat) (first : Bool) (b : Block) : Block :=
  let f := f' % 2 ^ 64
  let old := b.num TBU_BEAT
  let b1 := advanceBeat k (setTbu (fun u => { u with started := true, frameT := t }) b)
  let b2 := sapEdge (presentFrame f (b1.setNum TBU_SAMPLE f))
  let m := f / b.pick
  let starts := if first then [m] else picksFrom b.pick b.pickNo m
  let b3 := starts.foldl (fun acc n => tickTimers (pickStart n acc) 2 1) b2
  bootDone f (tickTimers (rootMarkers old (b3.num TBU_BEAT) b3) 1 1)

/-- Picks stop (R27, R30, R38, R42): SAMPLE_CNT holds, the tempo is held, TEMPO_OUT is low. -/
def stopPicks (b : Block) : Block :=
  if b.tbu.running then
    setTbu (fun u => { u with running := false, stopAfter := none, drain := some b.pickNo, toutLeft := 0, slip := 0, repeats := 0 }) (tempoHold b)
  else b

/-- A frame edge after the last pick `n` (R285): the outputs send what it left, block by block, and are then silent. -/
def drainEdge (b : Block) : Block :=
  match b.tbu.drain with
  | none => b
  | some n =>
    let f := b.mix.head + 1
    let b1 := sapOutputs (presentFrame f b)
    let b2 := if f % b.pick = 0 then
        outputPick (f / b.pick) (if f = (n + 1) * b.pick then closePick n false b1 else drainLanes b1)
      else b1
    if (n + 1) * b.pick + b.lOut ≤ f then muteOutputs b2 else b2

/-! ### A change of the reference, of the rate and of D (R29, R33, R346) -/

/-- The rate in force changes (R33): OSR, L_out, costs, pools and D follow; the ledgers are recomputed at the next pick boundary. -/
def setRate (c : Nat) (b : Block) : Block :=
  if c = b.rateCode then b
  else
    let b1 := b.put TBU_REF_STAT_det_rate c
    let b2 := computeLout (writeTails (setTbu (fun u => { u with osr := osrFor (b1.get SYS_CFG_osr) b1.fs }) b1))
    judgeOverload (updateD (derivePools (recost b2)))

/-- A RATE_FAULT (R30): the outputs fade, and auto_rate leads to DETECT at once. -/
def rateFault (b : Block) : Block :=
  let b1 := askStop (enterState 4 b)
  if b1.on TBU_REF_CFG_auto_rate then enterState 5 b1 else b1

/-- A selection takes effect (R29, R33): the measurement begins anew. A reserved rate code is a RATE_FAULT as it takes effect. -/
def applySel (x : RefSel) (b : Block) : Block :=
  let b1 := setTbu (fun u => { u with sel := x, staged := none, edgeT := none, hist := [] }) b
  let b2 := if x.rate ≤ 5 then setRate x.rate b1 else b1
  if x.src = 3 then enterState 0 (b2.setNum TBU_REF_RATE 0)
  else if b2.get TBU_REF_STAT_state = 0 then b2
  else if x.rate ≤ 5 then enterState 3 b2
  else rateFault b2

/-- What waits for the picks to have stopped and the outputs to have faded takes effect. -/
def applyPending (b : Block) : Block :=
  if b.tbu.running ∨ b.tbu.drain.isSome then b
  else
    let b1 := match b.tbu.staged with
      | some x => applySel x b
      | none => b
    match b1.wft.dNext with
    | some d => setD d b1
    | none => b1

/-! ### Resuming (R30, R285, R342) -/

/-- Whether a weft node that is not the root takes its next pick's number from a TIME marker (R342). -/
def needsNumber (b : Block) : Bool := b.tbu.number && inRing b && !isRoot b

/-- The frame at which picks start or resume (R30): 0 after reset, the frame of a marker on a weft node, after src = 3 the held frame
rounded up to a multiple of P, else the start of the next pick. -/
def resumeFrame (b : Block) : Option Nat :=
  if needsNumber b then b.tbu.loadAt
  else if b.tbu.started ∧ b.tbu.fromNone then some (ceilDiv b.sample b.pick * b.pick)
  else if b.tbu.started then some ((b.sample / b.pick + 1) * b.pick)
  else some 0

/-- Whether picks may start at this edge: the Dealer runs, the reference is there, nothing holds them, and no change waits. A node that
is to renumber its frames first presents its faded pick (R31). -/
def mayResume (b : Block) : Bool :=
  let st := b.get TBU_REF_STAT_state
  !b.tbu.running && (st == 1 || st == 2) && b.tbu.holds.isEmpty && b.on DLR_STAT_running && b.tbu.sel.src != 3 && b.tbu.staged.isNone &&
  b.wft.dNext.isNone && !(b.tbu.number && b.tbu.drain.isSome)

/-- Picks start or resume at the edge at `t`: a resumption fades in over one pick, and nothing that earlier picks left is presented. -/
def resume (t : Nat) (b : Block) : Block :=
  match resumeFrame b with
  | none => b
  | some f =>
    let m := f / b.pick
    let again := b.tbu.started
    let b1 := if again then sapResume (clearBlocks (closePick b.pickNo true b)) |>.flag TBU_EVT_STAT_resumed else b
    let b2 := setTbu (fun u => { u with
      running := true, stopAfter := none, fadeIn := if again then some m else none, fadeOut := none, firstPick := m, drain := none
      number := false, loadAt := none, fromNone := false }) { b1 with mix := { b1.mix with mixed := if again then m else b1.mix.mixed } }
    frameAt f (if again then 1 else 0) t true b2

/-- An edge while picks are stopped. -/
def idleEdge (t : Nat) (b : Block) : Block := if mayResume b then resume t b else applyPending (drainEdge b)

/-- A frame edge, of the reference or generated in HOLDOVER (R27–R31, R432). -/
def frameEdge (t : Nat) (b : Block) : Block :=
  if !b.tbu.running then idleEdge t b
  -- the pick that the safe state breaks off is impaired (R435) and not rendered
  else if b.tbu.holds.contains .safe then muteOutputs (stopPicks (if b.tbu.running then countImpaired b else b))
  else if 0 < b.tbu.repeats then setTbu (fun u => { u with repeats := u.repeats - 1, frameT := t }) (sapOutputs b)
  else if b.tbu.slip < 0 then
    setTbu (fun u => { u with repeats := (-u.slip).toNat - 1, slip := 0, frameT := t }) (sapOutputs b)
  else
    let k := b.tbu.slip.toNat + 1
    let f := b.sample + k
    match b.tbu.stopAfter with
    | some n =>
      if (n + 1) * b.pick ≤ f then drainEdge (stopPicks b)
      else frameAt f k t false (setTbu (fun u => { u with slip := 0 }) b)
    | none => frameAt f k t false (setTbu (fun u => { u with slip := 0 }) b)

/-! ### Reference edges (R30, R31, R33) -/

/-- DETECT ends (R33) at the first edge at which the last 64 intervals match a supported rate, once the picks have stopped. -/
def detectRate (b : Block) : Block :=
  match detect b.tbu.hist with
  | some c =>
    if b.tbu.running then b
    else
      let b1 := setRate c (setTbu (fun u => { u with sel := { u.sel with rate := c } }) (muteOutputs b))
      enterState 1 (b1.flag TBU_EVT_STAT_rate_done)
  | none => b

/-- The reference returns in HOLDOVER (R31) with an edge at `t`, numbered `num` on a weft node: answers whether the edge presents a
frame. A phase error of 1/8 frame or more is one realigning step; an error beyond 16 frames is a return to PAUSED. -/
def returned (num : Option Nat) (last t : Nat) (b : Block) : Bool × Block :=
  let (sum, n) := period b
  let k := (2 * since last t * n + sum) / (2 * sum)
  let d := since last t * n
  let err := if d < k * sum then k * sum - d else d - k * sum
  let b1 := enterState 1 b
  let e : Int := match num with
    | some v => (v : Int) - (b.sample + k - b.tbu.holdK : Nat)
    | none => 0
  let slipped := decide (sum ≤ 8 * err) || e != 0
  let b3 :=
    -- beyond 16 frames: as PAUSED, renumbered
    if 16 < e.natAbs then setTbu (fun u => { u with number := true, loadAt := none }) (askStop (enterState 3 b))
    else
      let b2 := if slipped then (b1.bump TBU_REF_CNT_slips).flag TBU_EVT_STAT_slip else b1
      if e = 0 then b2 else setTbu (fun u => { u with slip := e }) b2
  (decide (b.tbu.holdK < k), b3)

/-- The state after an accepted edge, and whether the edge presents a frame; `last` is the edge before it. -/
def edgeState (num last : Option Nat) (t : Nat) (b : Block) : Bool × Block :=
  let (go, b1) := match b.get TBU_REF_STAT_state with
    | 0 => (true, if b.on DLR_STAT_running then enterState 1 b else b)
    | 2 => returned num (last.getD t) t b
    | 3 => (true, enterState 1 b)
    | 4 => (true, if 16 ≤ b.tbu.hist.length ∧ ¬ rateBad b then enterState 1 b else b)
    | 5 => (true, detectRate b)
    | _ => (true, b)
  (go, if b1.get TBU_REF_STAT_state = 1 ∧ rateBad b1 then rateFault b1 else b1)

/-- Whether an edge follows the one before it by less than half a nominal period. -/
def isGlitch (b : Block) (t : Nat) : Bool :=
  match b.tbu.edgeT with
  | some last => decide (2 * since last t * nominalFs b < 1000000000)
  | none => false

/-- A reference frame edge at `t` (R30), numbered `num` where a weft marker places it. -/
def refEdge (num : Option Nat) (t : Nat) (b : Block) : Block :=
  let b0 := applyPending (if !b.tbu.running ∧ b.get TBU_REF_STAT_state = 3 then muteOutputs b else b)
  if b0.tbu.sel.src = 3 then b0
  else if isGlitch b0 t then b0.bump TBU_REF_CNT_glitches
  else
    let st := b0.get TBU_REF_STAT_state
    let last := b0.tbu.edgeT
    let hist := match last with
      | some l => if st = 2 ∨ st = 3 then b0.tbu.hist else (since l t :: b0.tbu.hist).take 256
      | none => b0.tbu.hist
    let (go, b1) := edgeState num last t (setTbu (fun u => { u with edgeT := some t, hist := hist }) b0)
    let b2 := measure b1
    if !go then b2
    else if b2.tbu.slip = 0 ∨ st ≠ 2 then frameEdge t b2
    else
      -- the slip follows at the next frame edge (R31)
      let b3 := frameEdge t (setTbu (fun u => { u with slip := 0 }) b2)
      setTbu (fun u => { u with slip := if b3.tbu.running then b2.tbu.slip else 0 }) b3

/-- REFERENCE_FRAME_EDGE. -/
def referenceFrameEdge (t : Nat) (b : Block) : Block := refEdge none t (advanceTo t b)

/-! ### Holdover (R30) -/

/-- TBU_HOLD.ms as it acts: above 10,000 as 10,000. -/
def holdMsRef (b : Block) : Nat := min 10000 (b.get TBU_HOLD_ms)

/-- TBU_HOLD expires: PAUSED, in which picks stop at once; the pick in progress is the one that fades. -/
def pauseNow (b : Block) : Block :=
  let b1 := enterState 3 b
  if b1.tbu.running then
    let n := b1.pickNo
    setTbu (fun u => { u with fadeOut := some n }) (stopPicks b1)
  else b1

/-- HOLDOVER_ENTRY: no edge for 1.5 nominal periods. The missing frame is presented now; with TBU_HOLD = 0 PAUSED follows at once. -/
def holdoverEntry (t : Nat) (b : Block) : Block :=
  let b1 := advanceTo t b
  match b1.tbu.edgeT with
  | some last =>
    if b1.get TBU_REF_STAT_state = 1 ∧ 3000000000 ≤ 2 * since last t * b1.fs then
      let b2 := frameEdge t (enterState 2 (setTbu (fun u => { u with holdT := t, holdK := 1 }) b1))
      if holdMsRef b2 = 0 then pauseNow b2 else b2
    else b1
  | none => b1

/-- HOLDOVER_FRAME: the next frame of the grid of the last edge, at the last measured period. After TBU_HOLD the grid goes on while the
outputs present the faded pick; SAMPLE_CNT holds (notes/assumptions). -/
def holdoverFrame (t : Nat) (b : Block) : Block :=
  let b1 := advanceTo t b
  match b1.tbu.edgeT with
  | some last =>
    let (sum, n) := period b1
    let k := b1.tbu.holdK + 1
    let st := b1.get TBU_REF_STAT_state
    if (st = 2 ∨ st = 3 ∧ b1.tbu.drain.isSome) ∧ k * sum ≤ since last t * n then
      frameEdge t (setTbu (fun u => { u with holdK := k }) b1)
    else b1
  | none => b1

/-- HOLDOVER_TIMEOUT: TBU_HOLD has expired since the entry. -/
def holdoverTimeout (t : Nat) (b : Block) : Block :=
  let b1 := advanceTo t b
  if b1.get TBU_REF_STAT_state = 2 ∧ holdMsRef b1 * 1000000 ≤ since b1.tbu.holdT t then pauseNow b1 else b1

/-! ### TIME markers (R342) -/

/-- Whether two times are less than half a nominal frame apart. -/
def nearEdge (b : Block) (x y : Nat) : Bool := decide (2 * max (since x y) (since y x) * nominalFs b < 1000000000)

/-- A TIME marker at `t` on a node (R342): with tref = 0 its edge is a reference frame edge; with tref = 1 it numbers the edge of the word
clock that it belongs to. The root only removes its own. -/
def timeMarkerEdge (v t : Nat) (b : Block) : Block :=
  let b0 := advanceTo t b
  let b1 := timeMarker v b0
  if isRoot b1 then b1
  else
    let at' := t - droot b1
    if b1.on WFT_CFG_tref then
      match b1.tbu.edgeT with
      | some e => if needsNumber b1 ∧ mayResume b1 ∧ nearEdge b1 e at' then resume e b1 else b1
      | none => b1
    else if b1.tbu.sel.src = 2 then refEdge (some v) at' b1
    else b1

end Sys2Proof.Machine
end

