-- ==== Sys2Proof/Machine/Answer.lean ====
section
/-! DEFINITION. What every command does around its own effect: the compute die in reset takes none but those of the power die, the
TAP and the resets; requests that a register write has left are performed; the CV outputs follow the safe state (R304) and the MSI-X
vectors the raised interrupts (R398). -/

namespace Sys2Proof.Machine

/-- Nothing is asked for any more. -/
def clearRequests (b : Block) : Block := setSys (fun s => { s with reqChip := false, reqMp := false, reqBoot := false }) b

/-- The resets that a register write has asked for (R375): a chip reset is all of them. -/
def performResets (n : Nat) (b : Block) : Block :=
  let b1 := clearRequests b
  if b.sys.reqChip then computeReset true b1 else if b.sys.reqMp then mpReset n b1 else b1

/-- The resets and the push boot that a register write has asked for, once its access has ended (R375, R378); a pushed image's REGS
section may ask for a reset in its turn (R390). -/
def performRequests (n : Nat) (b : Block) : Block :=
  let b1 := performResets n b
  if b.sys.reqBoot ∧ ¬ b.sys.reqChip then clearRequests (performResets n (pushBoot b1)) else clearRequests b1

/-- What follows a command in the same step; `n` bursts of the MP are accepted and not complete. -/
def finish (n : Nat) (b : Block) : Block :=
  let b1 := performRequests n b
  msixUpdate (cvSafe (!b1.tbu.holds.isEmpty) b1)

/-- The state with a change of its block, and what follows it. -/
def State.on (s : State) (f : Block → Block) : State := { s with blk := finish 0 (f s.blk) }

/-- A command that acts in reset too: those of the power die, the TAP and the resets. -/
def State.ok (s : State) (f : Block → Block) : Host.Outcome State Fault Refusal := .next (s.on f)

/-- Any other command: without effect while the compute die is held in reset (notes/assumptions). -/
def State.run (s : State) (f : Block → Block) : Host.Outcome State Fault Refusal :=
  if s.blk.sys.held then .next s else s.ok f

/-- A command that happens at `t` (R27). -/
def State.at (s : State) (t : Long) (f : Block → Block) : Host.Outcome State Fault Refusal :=
  s.run fun b => f (advanceTo t.toNat b)

/-- The state after one cycle of the clock with nothing commanded. -/
def State.cycle (s : State) : State := if s.blk.sys.held then s else s.on fun b => advanceTo (b.now + 1) b

/-- The time of a power-die event: CYCLE_CNT advances to it while the compute die runs. -/
def advanceLive (t : Nat) (b : Block) : Block := if b.sys.held then b else advanceTo t b

/-- Whether a register access by master `m` is made now. -/
def accessMade (m a : Nat) (b : Block) : Bool :=
  reachesBlock m (regBlockBase a) && !b.bit BMX_MSTAT_draining m && (m != 11 || (b.sec.tap == 0x10 && debugOpen b))

end Sys2Proof.Machine
end

