-- ==== Sys2Proof/Machine/ExecBus.lean ====
section
/-! DEFINITION. The commands of the bus and the registers (R3–R7, R314, R329), the memories, DMA and drains (R308–R334). -/

namespace Sys2Proof.Machine

/-- A matrix integrity failure of a master's transaction (R429, R431): a loom gateway's quarantines its loom, any other's enters the
chip safe state. -/
def integrityFail (m : Nat) (b : Block) : Block :=
  if 7 ≤ m ∧ m ≤ 10 then quarantineNext (m - 7) 1 b else safeEntry 1 m b

/-- The data of a transaction: none for a read. -/
def Xact.data : Xact → Option (List (Option Byte))
  | .read _ => none
  | .write d => some d
/-- The bytes that a transaction spans. -/
def Xact.bytes : Xact → Nat
  | .read n => n
  | .write d => d.length

/-- MATRIX_TRANSACTION (R329). -/
def execMatrixTransaction (m : Master) (host : Bool) (a : BitVec 40) (id : BitVec 4) (x : Xact) (e : Ecc) (hw : Word)
    (also : Option (Master × BitVec 40 × List (Option Byte))) (parity : Bool) (s : State) : Host.Outcome State Fault Refusal :=
  s.run fun b =>
    if parity then integrityFail m.val b
    else if Xact.bytes x = 0 then b
    else
      let other := also.map fun o => (({ master := o.1.val } : Who), o.2.1.toNat, o.2.2)
      request { master := m.val, host := host } a.toNat (Xact.bytes x) id.toNat (Xact.data x) e hw other b

/-- REGISTER_WRITE (R5). -/
def execRegisterWrite (m : Master) (a : BitVec 40) (v hw : Word) (s : State) : Host.Outcome State Fault Refusal :=
  s.run (writeReg m.val a.toNat v hw)

/-- RC_FIELD_READ (R5). -/
def execRcFieldRead (m : Master) (a : BitVec 40) (hw : Word) (s : State) : Host.Outcome State Fault Refusal :=
  s.run (readReg m.val a.toNat hw)

/-- WIDE_LOW_READ (R7). -/
def execWideLowRead (m : Master) (a : BitVec 40) (s : State) : Host.Outcome State Fault Refusal := s.run (readReg m.val a.toNat 0)

/-- WIDE_LOW_WRITE (R7). -/
def execWideLowWrite (m : Master) (a : BitVec 40) (v : Word) (s : State) : Host.Outcome State Fault Refusal :=
  s.run (writeReg m.val a.toNat v 0)

/-- WIDE_HIGH_WRITE (R7). -/
def execWideHighWrite (m : Master) (a : BitVec 40) (v : Word) (s : State) : Host.Outcome State Fault Refusal :=
  s.run (writeReg m.val a.toNat v 0)

/-- The address of a capture register (R314). -/
def CapReg.addr : CapReg → Nat
  | .ecc => MEM_ECC_CAP_INFO
  | .nonOwner => MEM_NOCAP_INFO
  | .collision => MEM_XCOLL_INFO
  | .decode => BMX_DEFCAP_INFO
  | .dramEcc => DRC_ECC_CAP
  | .dramProt => DRC_PCAP

/-- CAPTURE_REGISTER_READ (R314). -/
def execCaptureRegisterRead (m : Master) (r : CapReg) (s : State) : Host.Outcome State Fault Refusal :=
  s.run (readReg m.val (CapReg.addr r) 0)

/-- BANK_HANDOVER (R313): with no access of the old owner outstanding it completes at once. -/
def execBankHandover (m : Master) (n : Fin 96) (v : Word) (idle : Bool) (s : State) : Host.Outcome State Fault Refusal :=
  s.run fun b =>
    let b1 := writeReg m.val (MEM_BANK_OWN n.val) v 0 b
    if idle then handoverComplete n.val b1 else b1

/-- HANDOVER_COMPLETE (R313). -/
def execHandoverComplete (n : Fin 96) (s : State) : Host.Outcome State Fault Refusal := s.run (handoverComplete n.val)

/-- SCRUB_WORD (R321). -/
def execScrubWord (a : BitVec 40) (e : Ecc) (s : State) : Host.Outcome State Fault Refusal := s.run (scrubWord a.toNat e)

/-- SCRUB_PASS_LATE (R321). -/
def execScrubPassLate (s : State) : Host.Outcome State Fault Refusal := s.run scrubLate

/-- REMAP_WRITE (R308). -/
def execRemapWrite (m : Master) (v : Word) (s : State) : Host.Outcome State Fault Refusal := s.run (writeReg m.val SYS_CTL v 0)

/-- DMA_START (R333): the write has start set. -/
def execDmaStart (m : Master) (c : Fin 4) (v : Word) (s : State) : Host.Outcome State Fault Refusal :=
  s.run (writeReg m.val (BMX_DMA_CTL c.val) (v ||| 1) 0)

/-- DMA_ABORT (R334): the write has abort set. -/
def execDmaAbort (m : Master) (c : Fin 4) (v : Word) (s : State) : Host.Outcome State Fault Refusal :=
  s.run (writeReg m.val (BMX_DMA_CTL c.val) (v ||| 2) 0)

/-- DMA_COMPLETION (R334). -/
def execDmaCompletion (c : Fin 4) (n : Word) (e : Ecc) (s : State) : Host.Outcome State Fault Refusal :=
  s.run (dmaComplete c.val n.toNat e)

/-- DRAIN_DONE (R332). -/
def execDrainDone (m : Master) (s : State) : Host.Outcome State Fault Refusal := s.run (drainDone m.val)

end Sys2Proof.Machine
end

