-- ==== Sys2Proof/Machine/ExecDealer.lean ====
section
/-! DEFINITION. The commands of the Dealer, of voice allocation and of a shuttle's events (chapters 04, 05 and 08), and of the
firmware's tuning messages (R148). -/

namespace Sys2Proof.Machine

/-- CARD_CREATE (R87). -/
def execCardCreateFor (hk : List HkRequest) (s : State) : Host.Outcome State Fault Refusal := s.run (Machine.cardCreate hk)
/-- CARD_SELECT (R91): with bad parity the engine enters the chip safe state instead (R431). -/
def execCardSelect (h : Fin 32) (t : Long) (parity : Bool) (s : State) : Host.Outcome State Fault Refusal :=
  s.at t fun b => if parity then safeEntry 2 h.val b else Machine.cardSelect h.val t.toNat b
/-- DLR_CANCEL (R106). -/
def execDlrCancel (m : Master) (v : Word) (t : Long) (s : State) : Host.Outcome State Fault Refusal :=
  s.at t (writeReg m.val DLR_CANCEL v 0)
/-- CANCEL_AT_PERMITTED_POINT (R106). -/
def execCancelAtPermittedPoint (sh : Fin 160) (t : Long) (s : State) : Host.Outcome State Fault Refusal :=
  s.at t (cancelAtPoint sh.val t.toNat)
/-- SNAPSHOT_REQUEST (R108): DLR_SNAP_CTL written with 1. -/
def execSnapshotRequest (m : Master) (s : State) : Host.Outcome State Fault Refusal := s.run (writeReg m.val DLR_SNAP_CTL 1 0)
/-- SNAPSHOT_CANCEL (R109): DLR_SNAP_CTL written with 2. -/
def execSnapshotCancel (m : Master) (s : State) : Host.Outcome State Fault Refusal := s.run (writeReg m.val DLR_SNAP_CTL 2 0)
/-- SNAPSHOT_DONE (R108). -/
def execSnapshotDone (s : State) : Host.Outcome State Fault Refusal := s.run snapDone
/-- QUERY_COMMAND (R140). -/
def execQueryCommand (m : Master) (v : Word) (s : State) : Host.Outcome State Fault Refusal := s.run (writeReg m.val VAL_QRY_CMD v 0)
/-- TEMPLATE_COPY_DONE (R170). -/
def execTemplateCopyDone (v : Fin 8192) (s : State) : Host.Outcome State Fault Refusal := s.run (templateCopied v.val)
/-- WINDOW_ARRIVAL (R159). -/
def execWindowArrival (v : Fin 8192) (s : State) : Host.Outcome State Fault Refusal := s.run (Machine.windowArrival v.val)

/-- MTS_BULK_DUMP (R148). -/
def execMtsBulkDump (s : State) : Host.Outcome State Fault Refusal := s.run Machine.mtsBulkDump
/-- MTS_SINGLE_NOTE_CHANGE (R148). -/
def execMtsSingleNoteChange (s : State) : Host.Outcome State Fault Refusal := s.run mtsSingleNote
/-- MTS_BULK_DUMP_REQUEST (R148). -/
def execMtsBulkDumpRequest (s : State) : Host.Outcome State Fault Refusal := s.run mtsRequest

/-- LDL_STL_COMPLETE (R217). -/
def execLdlStlComplete (sh : Fin 160) (s : State) : Host.Outcome State Fault Refusal := s.run (transferComplete sh.val)
/-- ILLEGAL_BUNDLE (R254). -/
def execIllegalBundle (sh : Fin 160) (s : State) : Host.Outcome State Fault Refusal := s.run (Machine.illegalBundle sh.val)
/-- REGISTER_FILE_PARITY_ERROR (R227, R425). -/
def execRegisterFileParityError (sh : Fin 160) (s : State) : Host.Outcome State Fault Refusal := s.run (parityError sh.val)
/-- DONE_ACCEPT (R230). -/
def execDoneAccept (sh : Fin 160) (t : Long) (pass : Bool) (s : State) : Host.Outcome State Fault Refusal :=
  s.at t (Machine.doneAccept sh.val t.toNat pass)
/-- SEND_DRAIN_END (R218). -/
def execSendDrainEnd (sh : Fin 160) (bank : Fin 2) (s : State) : Host.Outcome State Fault Refusal :=
  s.run (Machine.sendDrainEnd sh.val bank.val)
/-- FENCE_EXPIRE (R226). -/
def execFenceExpire (sh : Fin 160) (t : Long) (s : State) : Host.Outcome State Fault Refusal := s.at t (Machine.fenceExpire sh.val)
/-- FENCED_COMPLETION (R226). -/
def execFencedCompletion (sh : Fin 160) (t : Long) (s : State) : Host.Outcome State Fault Refusal :=
  s.at t (Machine.fencedCompletion sh.val t.toNat)
/-- FAULT_TAKEN (R227). -/
def execFaultTaken (sh : Fin 160) (t : Long) (fetch : Bool) (s : State) : Host.Outcome State Fault Refusal :=
  s.at t (Machine.faultTaken sh.val t.toNat fetch)
/-- HANDLER_OVERRUN (R227). -/
def execHandlerOverrun (sh : Fin 160) (s : State) : Host.Outcome State Fault Refusal := s.run (Machine.handlerOverrun sh.val)
/-- TAP_REQUEST (R228): a write of SHT_TAP. -/
def execTapRequest (m : Master) (v : Word) (s : State) : Host.Outcome State Fault Refusal := s.run (writeReg m.val SHT_TAP v 0)
/-- TAP_TAKEN (R228). -/
def execTapTaken (sh : Fin 160) (s : State) : Host.Outcome State Fault Refusal := s.run (Machine.tapTaken sh.val)

end Sys2Proof.Machine
end

