-- ==== Sys2Proof/Machine/ExecEvent.lean ====
section
/-! DEFINITION. The commands of event entry and of the released native events (chapters 03 and 05), GPIO bindings and the resident
firmware's events. -/

namespace Sys2Proof.Machine

/-- EVENT_ENTRY (R62). -/
def execEventEntry (s : State) : Host.Outcome State Fault Refusal := s.run Machine.eventEntry
/-- STATUS_FIFO_READ (R64). -/
def execStatusFifoRead (m : Master) (src : Fin 16) (s : State) : Host.Outcome State Fault Refusal :=
  s.run (readReg m.val (EFE_SRC_STAT src.val) 0)
/-- MARK_READ (R79). -/
def execMarkRead (m : Master) (s : State) : Host.Outcome State Fault Refusal := s.run (readReg m.val EFE_MARK 0)

/-- NOTE_ON (R117). -/
def execNoteOn (s : State) : Host.Outcome State Fault Refusal := s.run (onReleased 1 Machine.noteOn)
/-- BOOKING (R137). -/
def execBooking (s : State) : Host.Outcome State Fault Refusal := s.run Machine.booking
/-- NOTE_OFF (R127). -/
def execNoteOff (s : State) : Host.Outcome State Fault Refusal := s.run (onReleased 2 Machine.noteOff)
/-- POLY_PRESSURE (R55). -/
def execPolyPressure (s : State) : Host.Outcome State Fault Refusal := s.run (onReleased 3 (perNoteEvent 3))
/-- CONTROL (R58). -/
def execControl (s : State) : Host.Outcome State Fault Refusal := s.run (onReleased 4 Machine.control)
/-- PN_CONTROL (R203). -/
def execPnControl (s : State) : Host.Outcome State Fault Refusal := s.run (onReleased 5 (perNoteEvent 5))
/-- PITCH_BEND (R58). -/
def execPitchBend (s : State) : Host.Outcome State Fault Refusal := s.run (onReleased 6 Machine.pitchBend)
/-- PN_BEND (R58). -/
def execPnBend (s : State) : Host.Outcome State Fault Refusal := s.run (onReleased 7 (perNoteEvent 7))
/-- PROGRAM (R116). -/
def execProgram (s : State) : Host.Outcome State Fault Refusal := s.run (onReleased 8 Machine.program)
/-- PARAM (R145). -/
def execParam (s : State) : Host.Outcome State Fault Refusal := s.run (onReleased 9 Machine.param)
/-- KILL (R105). -/
def execKill (s : State) : Host.Outcome State Fault Refusal := s.run (onReleased 0x0A Machine.kill)
/-- ALL_OFF (R131). -/
def execAllOff (s : State) : Host.Outcome State Fault Refusal := s.run (onReleased 0x0B Machine.allOff)
/-- BUS_PARAM (R261). -/
def execBusParam (s : State) : Host.Outcome State Fault Refusal := s.run (onReleased 0x0C Machine.busParam)
/-- BUS_PARAM_DEFERRED_WRITE (R261). -/
def execBusParamDeferredWrite (l : Fin 4) (bus : Fin 256) (s : State) : Host.Outcome State Fault Refusal :=
  s.run (busParamDeferred l.val bus.val)
/-- CV_SET (R297). -/
def execCvSet (s : State) : Host.Outcome State Fault Refusal := s.run (onReleased 0x0D Machine.cvSet)
/-- PEDAL (R129). -/
def execPedal (s : State) : Host.Outcome State Fault Refusal := s.run (onReleased 0x12 Machine.pedal)
/-- TUNE (R55). -/
def execTune (s : State) : Host.Outcome State Fault Refusal := s.run (onReleased 0x13 Machine.tune)

/-- GPIO_EDGE (R78). -/
def execGpioEdge (pin : Fin 24) (level : Bool) (t : Long) (s : State) : Host.Outcome State Fault Refusal :=
  s.at t (Machine.gpioEdge pin.val t.toNat level)

/-- Whether the legacy port has claimed a GPIO pin (R359): GPIO0–GPIO20 once an instance is enabled. -/
def legacyPin (b : Block) (pin : Nat) : Bool := b.get LEG_CTL_en != 0 && decide (pin ≤ 20)

/-- GPIO_DEBOUNCE_EXPIRE (R78): the binding `n`. -/
def execGpioDebounceExpire (n : Fin 8) (t : Long) (s : State) : Host.Outcome State Fault Refusal :=
  s.at t fun b => gpioExpire n.val t.toNat (legacyPin b (b.get (EFE_GPB_CFG_pin n.val))) b

/-- MP_EVENT (R61): while the firmware is stopped it sends none. -/
def execMpEvent (e : BitVec 128) (s : State) : Host.Outcome State Fault Refusal :=
  s.run fun b => if b.sys.mpDown then b else submitMp (Ev.ofNat e) b
/-- MPE_WRITE (R73). -/
def execMpeWrite (m : Master) (g : Fin 20) (v : Word) (s : State) : Host.Outcome State Fault Refusal :=
  s.run (writeReg m.val (EFE_MPE g.val) v 0)

end Sys2Proof.Machine
end

