-- ==== Sys2Proof/Machine/ExecHost.lean ====
section
/-! DEFINITION. The commands of start-up, resets, the host interfaces and the mailbox (chapter 16). -/

namespace Sys2Proof.Machine

/-! ### Start-up and resets (R375–R378, R406) -/

/-- POWER_ON (R375, R407): with what the supply measures. -/
def execPowerOn (flash : List Byte) (size : Nat) (sfdp : Bool) (vin iin : Half) (s : State) : Host.Outcome State Fault Refusal :=
  s.ok fun b => takeSupply vin.toNat iin.toNat 0 (railsOn (powerReset (flashOf flash) size sfdp b))
/-- RST_N (R375). -/
def execRstN (s : State) : Host.Outcome State Fault Refusal := s.ok (computeReset false)
/-- COMPUTE_RESET_RELEASE (R376). -/
def execComputeResetRelease (r : Release) (s : State) : Host.Outcome State Fault Refusal := s.ok (releaseReset r)
/-- BOOT_LEN_WRITE (R378). -/
def execBootLenWrite (m : Master) (v : Word) (s : State) : Host.Outcome State Fault Refusal := s.run (writeReg m.val SYS_BOOT_LEN v 0)
/-- SOFTWARE_CHIP_RESET (R375): a write of SYS_RST. -/
def execSoftwareChipReset (m : Master) (v : Word) (s : State) : Host.Outcome State Fault Refusal := s.run (writeReg m.val SYS_RST v 0)
/-- MP_RESET (R375): a write of SYS_RST while `n` bursts of the MP are accepted and not complete. -/
def execMpReset (m : Master) (v : Word) (n : Byte) (s : State) : Host.Outcome State Fault Refusal :=
  s.run fun b => performRequests n.toNat (writeReg m.val SYS_RST v 0 b)
/-- PCIE_RESET (R375). -/
def execPcieReset (n : Byte) (s : State) : Host.Outcome State Fault Refusal := s.run (Machine.pcieReset n.toNat)

/-- The watchdog resets the MP and counts the restart (R406); the third in a row without a kick is a safe-state cause (R431). -/
def watchdog (n : Nat) (b : Block) : Block :=
  let run := b.rel.wdRun + 1
  let b1 := mpReset n (setRel (fun r => { r with wdRun := run }) (b.bump SYS_SYX_restarts))
  if 3 ≤ run then safeEntry 3 run b1 else b1

/-- WATCHDOG_EXPIRE (R406). -/
def execWatchdogExpire (n : Byte) (s : State) : Host.Outcome State Fault Refusal := s.run (watchdog n.toNat)
/-- KICK (R406). -/
def execKick (m : Master) (v : Word) (s : State) : Host.Outcome State Fault Refusal := s.run (writeReg m.val SYS_KICK v 0)
/-- CFG_LOCK (R5): a write of SYS_CTL. -/
def execCfgLock (m : Master) (v : Word) (s : State) : Host.Outcome State Fault Refusal := s.run (writeReg m.val SYS_CTL v 0)

/-! ### SPI (R391–R393) -/

/-- WRITE (R391). -/
def execWrite (a : BitVec 40) (words : List Word) (part : Bool) (s : State) : Host.Outcome State Fault Refusal :=
  s.run (spiWrite a.toNat words part)
/-- READ (R391). -/
def execRead (a : BitVec 40) (n : Nat) (late : Option Nat) (e : Ecc) (s : State) : Host.Outcome State Fault Refusal :=
  s.run (spiRead a.toNat n late e)
/-- STATUS (R392). -/
def execStatus (s : State) : Host.Outcome State Fault Refusal := s.run spiPhase
/-- ERR_CLR (R391): after its status phase, HIF_SPI_STAT.err is cleared. -/
def execErrClr (s : State) : Host.Outcome State Fault Refusal := s.run fun b => spiErrClear 1 0 (spiPhase b)
/-- EVENT_PUSH (R391). -/
def execEventPush (events : List (BitVec 128)) (part : Bool) (s : State) : Host.Outcome State Fault Refusal := s.run (spiEvents events part)
/-- SPI_BAD_COMMAND (R391). -/
def execSpiBadCommand (s : State) : Host.Outcome State Fault Refusal := s.run spiBad

/-! ### PCIe (R394–R398) -/

/-- BAR0_TLP (R395). -/
def execBar0Tlp (o : BitVec 26) (x : Tlp) (s : State) : Host.Outcome State Fault Refusal :=
  s.run fun b => match x with
    | .read bes => bar0ReadTlp o.toNat bes b
    | .write dws => bar0WriteTlp o.toNat dws b
/-- DOORBELL_WRITE (R396). -/
def execDoorbellWrite (o : BitVec 12) (dwords : List (Word × BitVec 4)) (s : State) : Host.Outcome State Fault Refusal :=
  s.run (bar0WriteTlp (0x03FFF000 + o.toNat) dwords)
/-- DOORBELL_CLEAR (R396). -/
def execDoorbellClear (m : Master) (v : Word) (s : State) : Host.Outcome State Fault Refusal := s.run (writeReg m.val HIF_DB_STAT v 0)
/-- BAR2_TLP (R397). -/
def execBar2Tlp (a : BitVec 30) (x : Xact) (e : Ecc) (s : State) : Host.Outcome State Fault Refusal :=
  s.run fun b => match x with
    | .read n => if n = 0 then b else bar2Read a.toNat n e b
    | .write d => if d.isEmpty then b else bar2Write a.toNat d b
/-- MSIX_UNMASK (R398): a write of the vector's control DWORD with the mask bit clear. -/
def execMsixUnmask (v : Fin 8) (s : State) : Host.Outcome State Fault Refusal :=
  s.run (msixWrite (4 * v.val + 3) 0 0xF)
/-- PCIE_LINK_CHANGE (R394). -/
def execPcieLinkChange (up : Bool) (gen width : BitVec 2) (l1 bme : Bool) (s : State) : Host.Outcome State Fault Refusal :=
  s.run (linkChange up gen.toNat width.toNat l1 bme)

/-! ### The mailbox (R399–R404, R447) -/

/-- COMMAND_CLAIM (R401). -/
def execCommandClaim (s : State) : Host.Outcome State Fault Refusal := s.run mbClaim
/-- MAILBOX_TIMEOUT (R401). -/
def execMailboxTimeout (s : State) : Host.Outcome State Fault Refusal := s.run mbTimeout
/-- MAILBOX_CANCEL (R402). -/
def execMailboxCancel (work : Nat) (s : State) : Host.Outcome State Fault Refusal := s.run (mbSafePoint work)
/-- PING (R402). -/
def execPing (s : State) : Host.Outcome State Fault Refusal := s.run (mbExec 0x01 0x01 true mbPing)
/-- SELFTEST_REPORT (R447). -/
def execSelftestReport (s : State) : Host.Outcome State Fault Refusal := s.run (mbExec 0x02 0x02 false mbSelftest)
/-- WEFT_STATUS (R402). -/
def execWeftStatus (s : State) : Host.Outcome State Fault Refusal := s.run (mbExec 0x03 0x03 false mbWeftStatus)
/-- SAMPLE_LOAD (R402). -/
def execSampleLoad (s : State) : Host.Outcome State Fault Refusal :=
  s.run fun b => mbExec 0x10 0x10 false (loadSome ((mbTaken b 0x10 0x10).elim 0 (·.len)) none) b
/-- VOICE_QUERY (R140). -/
def execVoiceQuery (s : State) : Host.Outcome State Fault Refusal := s.run (mbExec 0x20 0x20 false (mbQuery 0))
/-- PART_QUERY (R140). -/
def execPartQuery (s : State) : Host.Outcome State Fault Refusal := s.run (mbExec 0x21 0x21 false (mbQuery 1))
/-- HARNESS_QUERY (R140). -/
def execHarnessQuery (s : State) : Host.Outcome State Fault Refusal := s.run (mbExec 0x22 0x22 false (mbQuery 2))
/-- STATS_SNAPSHOT (R402). -/
def execStatsSnapshot (s : State) : Host.Outcome State Fault Refusal := s.run (mbExec 0x30 0x30 false mbSnapshot)
/-- PATCH_APPLY (R403). -/
def execPatchApply (s : State) : Host.Outcome State Fault Refusal := s.run mbPatch
/-- FLASH_READ (R402). -/
def execFlashRead (s : State) : Host.Outcome State Fault Refusal := s.run (mbExec 0x50 0x50 true mbFlashRead)
/-- FLASH_PROGRAM (R402). -/
def execFlashProgram (fail : Option Nat) (s : State) : Host.Outcome State Fault Refusal :=
  s.run fun b => mbExec 0x51 0x51 true (flashSome ((mbTaken b 0x51 0x51).elim 0 (·.len)) none fail) b
/-- UNLOCK_CHALLENGE (R447). -/
def execUnlockChallenge (s : State) : Host.Outcome State Fault Refusal := s.run (mbExec 0x60 0x60 true mbChallenge)
/-- UNLOCK_RESPONSE (R447). -/
def execUnlockResponse (s : State) : Host.Outcome State Fault Refusal := s.run (mbExec 0x61 0x61 true mbResponse)
/-- RESET (R402). -/
def execReset (s : State) : Host.Outcome State Fault Refusal := s.run (mbExec 0x70 0x70 true mbReset)
/-- MAILBOX_RESET_EXPIRE (R402). -/
def execMailboxResetExpire (s : State) : Host.Outcome State Fault Refusal := s.run mbResetExpire
/-- BAD_OPCODE (R402). -/
def execBadOpcode (s : State) : Host.Outcome State Fault Refusal := s.run mbBadOpcode

end Sys2Proof.Machine
end

