-- ==== Sys2Proof/Machine/ExecMidi.lean ====
section
/-! DEFINITION. The commands of the MIDI 1.0 inputs (R66–R71): a whole message that has arrived at `t` on input `n`. -/

namespace Sys2Proof.Machine

/-- The velocity, pressure or value of 7 bits as 16 (R69). -/
def wide7 (v : BitVec 7) : Nat := scaleUp 7 16 v.toNat

/-- A MIDI 1.0 channel message of status nibble `st` on channel `ch` of group `g` (R68, R70, R73). A Note On with velocity 0 is a
Note Off with velocity 0x8000. -/
def channelMsg (g st ch d1 d2 : Nat) (b : Block) : Msg × Block :=
  match st with
  | 8 => (noteMsg 2 g ch d1 (scaleUp 7 16 d2) .none b, b)
  | 9 => if d2 = 0 then (noteMsg 2 g ch d1 0x8000 .none b, b) else (noteMsg 1 g ch d1 (scaleUp 7 16 d2) .none b, b)
  | 10 => (polyMsg g ch d1 (scaleUp 7 16 d2) b, b)
  | 11 => controlChange g ch d1 d2 b
  | 12 => (programMsg g ch d1 none b, b)
  | 13 => (pressureMsg g ch (scaleUp 7 16 d1) (scaleUp 7 24 d1) b, b)
  | 14 => (bendMsg g ch (scaleUp 14 16 (d2 * 128 + d1)) b, b)
  | _ => ({}, b)

/-- The channel message on MIDI input `n` at `t`. -/
def channelAt (n : Fin 4) (st : Nat) (ch : Fin 16) (d1 d2 : Nat) (t : Long) (s : State) : Host.Outcome State Fault Refusal :=
  s.at t (midiChannel n.val (st * 16 + ch.val) t.toNat (channelMsg n.val st ch.val d1 d2))

/-- MIDI_NOTE_OFF (R68): sent as 0x8n, or as 0x9n with velocity 0. -/
def execMidiNoteOff (n : Fin 4) (ch : Fin 16) (key vel : BitVec 7) (zero : Bool) (t : Long) (s : State) :
    Host.Outcome State Fault Refusal :=
  if zero then channelAt n 9 ch key.toNat 0 t s else channelAt n 8 ch key.toNat vel.toNat t s
/-- MIDI_NOTE_ON (R68). -/
def execMidiNoteOn (n : Fin 4) (ch : Fin 16) (key vel : BitVec 7) (t : Long) (s : State) : Host.Outcome State Fault Refusal :=
  channelAt n 9 ch key.toNat vel.toNat t s
/-- MIDI_POLY_PRESSURE (R68). -/
def execMidiPolyPressure (n : Fin 4) (ch : Fin 16) (key p : BitVec 7) (t : Long) (s : State) : Host.Outcome State Fault Refusal :=
  channelAt n 10 ch key.toNat p.toNat t s
/-- MIDI_CONTROL_CHANGE (R68, R70, R73). -/
def execMidiControlChange (n : Fin 4) (ch : Fin 16) (cc v : BitVec 7) (t : Long) (s : State) : Host.Outcome State Fault Refusal :=
  channelAt n 11 ch cc.toNat v.toNat t s
/-- MIDI_PROGRAM_CHANGE (R68). -/
def execMidiProgramChange (n : Fin 4) (ch : Fin 16) (p : BitVec 7) (t : Long) (s : State) : Host.Outcome State Fault Refusal :=
  channelAt n 12 ch p.toNat 0 t s
/-- MIDI_CHANNEL_PRESSURE (R68). -/
def execMidiChannelPressure (n : Fin 4) (ch : Fin 16) (p : BitVec 7) (t : Long) (s : State) : Host.Outcome State Fault Refusal :=
  channelAt n 13 ch p.toNat 0 t s
/-- MIDI_PITCH_BEND (R68). -/
def execMidiPitchBend (n : Fin 4) (ch : Fin 16) (lsb msb : BitVec 7) (t : Long) (s : State) : Host.Outcome State Fault Refusal :=
  channelAt n 14 ch lsb.toNat msb.toNat t s

/-- A SysEx message of source `n` enters the queue (R405), where the firmware discards it if it serves no such message (R148). -/
def midiSyx (n : Nat) (bytes : List Byte) (t : Nat) (b : Block) : Block :=
  if srcOn b n then syxReach (syxPush n bytes (midiSystem n t true [] b)) else b

/-- MIDI_SYSTEM_EXCLUSIVE (R68, R405). -/
def execMidiSystemExclusive (n : Fin 4) (bytes : List Byte) (t : Long) (s : State) : Host.Outcome State Fault Refusal :=
  s.at t (midiSyx n.val bytes t.toNat)
/-- MIDI_SONG_POSITION_POINTER (R68): LOCATE, data = position × 64. -/
def execMidiSongPositionPointer (n : Fin 4) (lsb msb : BitVec 7) (t : Long) (s : State) : Host.Outcome State Fault Refusal :=
  s.at t (midiSystem n.val t.toNat true [locateEv ((msb.toNat * 128 + lsb.toNat) * 64)])
/-- MIDI_TIMING_CLOCK (R68): a tempo pulse when TBU_TEMPO_CFG selects this input. -/
def execMidiTimingClock (n : Fin 4) (t next : Long) (s : State) : Host.Outcome State Fault Refusal :=
  s.at t fun b =>
    let b1 := midiSystem n.val t.toNat false [] b
    if srcOn b n.val && b.get TBU_TEMPO_CFG_midi == n.val then Machine.tempoEdge 2 t.toNat next.toNat none (pulseValue b1 2) b1 else b1
/-- MIDI_START (R68): LOCATE 0, then TRANSPORT run := 1. -/
def execMidiStart (n : Fin 4) (t : Long) (s : State) : Host.Outcome State Fault Refusal :=
  s.at t (midiSystem n.val t.toNat false [locateEv 0, transportEv 1])
/-- MIDI_CONTINUE (R68). -/
def execMidiContinue (n : Fin 4) (t : Long) (s : State) : Host.Outcome State Fault Refusal :=
  s.at t (midiSystem n.val t.toNat false [transportEv 1])
/-- MIDI_STOP (R68). -/
def execMidiStop (n : Fin 4) (t : Long) (s : State) : Host.Outcome State Fault Refusal :=
  s.at t (midiSystem n.val t.toNat false [transportEv 0])
/-- MIDI_ACTIVE_SENSING (R71). -/
def execMidiActiveSensing (n : Fin 4) (t : Long) (s : State) : Host.Outcome State Fault Refusal :=
  s.at t (activeSensing n.val t.toNat)
/-- MIDI_IGNORED_SYSTEM (R68): the system common ones (below 0xF8) clear running status (R67). -/
def execMidiIgnoredSystem (n : Fin 4) (byte : Byte) (t : Long) (s : State) : Host.Outcome State Fault Refusal :=
  s.at t (midiSystem n.val t.toNat (decide (byte.toNat < 0xF8)) [])
/-- MIDI_PARSE_ERROR (R67). -/
def execMidiParseError (n : Fin 4) (e : ParseError) (t : Long) (s : State) : Host.Outcome State Fault Refusal :=
  s.at t (midiError n.val t.toNat e)
/-- ACTIVE_SENSING_TIMEOUT (R71). -/
def execActiveSensingTimeout (n : Fin 4) (t : Long) (s : State) : Host.Outcome State Fault Refusal :=
  s.at t (senseTimeout n.val t.toNat)

/-! ### UMP (R74–R76) -/

/-- The channel group of UMP group `g` (R72, R73). -/
def umpGroup (g : Fin 16) : Nat := 4 + g.val

/-- UMP_JR_CLOCK (R76). -/
def execUmpJrClock (src : UmpSrc) (c : Half) (s : State) : Host.Outcome State Fault Refusal := s.run (Machine.umpJrClock src.num c.toNat)
/-- UMP_JR_TIMESTAMP (R76). -/
def execUmpJrTimestamp (src : UmpSrc) (g : Fin 16) (stamp : Half) (s : State) : Host.Outcome State Fault Refusal :=
  s.run (Machine.umpJrTimestamp src.num g.val stamp.toNat)

/-- The events of a system byte (R68): Song Position Pointer, Start, Continue, Stop. -/
def systemEvents (status d1 d2 : Nat) : List Ev :=
  match status with
  | 0xF2 => [locateEv ((d2 * 128 + d1) * 64)]
  | 0xFA => [locateEv 0, transportEv 1]
  | 0xFB => [transportEv 1]
  | 0xFC => [transportEv 0]
  | _ => []

/-- UMP_SYSTEM (R74): a byte that maps to no event is ignored. -/
def execUmpSystem (src : UmpSrc) (g : Fin 16) (status : Byte) (d1 d2 : BitVec 7) (t : Long) (s : State) :
    Host.Outcome State Fault Refusal :=
  s.at t fun b =>
    let evs := systemEvents status.toNat d1.toNat d2.toNat
    if evs.isEmpty then umpSkip src.num g.val b else umpMsg src.num g.val (fun a => ({ evs := evs }, a)) b

/-- UMP_MIDI1_CHANNEL_VOICE (R74). -/
def execUmpMidi1ChannelVoice (src : UmpSrc) (g : Fin 16) (status : BitVec 4) (ch : Fin 16) (d1 d2 : BitVec 7) (s : State) :
    Host.Outcome State Fault Refusal :=
  s.run (umpMsg src.num g.val (channelMsg (umpGroup g) status.toNat ch.val d1.toNat d2.toNat))

/-- UMP_DATA_SYSEX (R74, R405): the queue holds the message with its 0xF0 and 0xF7. -/
def execUmpDataSysex (src : UmpSrc) (g : Fin 16) (bytes : List Byte) (s : State) : Host.Outcome State Fault Refusal :=
  s.run fun b => if umpOn b src.num then syxReach (syxPush src.num ([0xF0] ++ bytes ++ [0xF7]) (umpSkip src.num g.val b)) else b

/-- UMP_UNSUPPORTED (R74): skipped, counted, REJ_FORMAT. A message of its group but the groupless type 0xF uses a JR Timestamp (R76). -/
def execUmpUnsupportedType (src : UmpSrc) (g : Fin 16) (mt : BitVec 4) (s : State) : Host.Outcome State Fault Refusal :=
  s.run fun b =>
    if umpOn b src.num then
      submit src.num true [] 5 false ((if mt = 0xF then b else umpSkip src.num g.val b).bump EFE_CNT_ump_unsup)
    else b

/-- A UMP message whose events follow from the channel alone. -/
def umpAt (src : UmpSrc) (g : Fin 16) (f : Block → Msg) (s : State) : Host.Outcome State Fault Refusal :=
  s.run (umpMsg src.num g.val fun b => (f b, b))

/-- UMP_NOTE_OFF (R75). -/
def execUmpNoteOff (src : UmpSrc) (g ch : Fin 16) (key : BitVec 7) (vel : Half) (s : State) : Host.Outcome State Fault Refusal :=
  umpAt src g (noteMsg 2 (umpGroup g) ch.val key.toNat vel.toNat .none) s
/-- UMP_NOTE_ON (R75): attribute type 3 sets the pitch. -/
def execUmpNoteOn (src : UmpSrc) (g ch : Fin 16) (key : BitVec 7) (vel : Half) (attrType : Byte) (attr : Half) (s : State) :
    Host.Outcome State Fault Refusal :=
  umpAt src g (noteMsg 1 (umpGroup g) ch.val key.toNat vel.toNat (if attrType = 3 then .pitch attr else .none)) s
/-- UMP_POLY_PRESSURE (R75). -/
def execUmpPolyPressure (src : UmpSrc) (g ch : Fin 16) (key : BitVec 7) (v : Word) (s : State) : Host.Outcome State Fault Refusal :=
  umpAt src g (polyMsg (umpGroup g) ch.val key.toNat (v.toNat / 2 ^ 16)) s

/-- A per-note controller (R75): PN_CONTROL n, or 128 + n for an assignable one; n above 127 gives REJ_FORMAT. -/
def perNoteControl (g c key n : Nat) (assignable : Bool) (v : Nat) (b : Block) : Msg :=
  if 127 < n then .reject 5
  else onChan b g c fun part _ => [keyEv 5 part key (v + (n + if assignable then 128 else 0) * 2 ^ 24) 0]

/-- UMP_PER_NOTE_CONTROLLER (R75). -/
def execUmpPerNoteController (src : UmpSrc) (g ch : Fin 16) (assignable : Bool) (key : BitVec 7) (index : Byte) (v : Word) (s : State) :
    Host.Outcome State Fault Refusal :=
  umpAt src g (perNoteControl (umpGroup g) ch.val key.toNat index.toNat assignable (v.toNat / 2 ^ 16)) s

/-- An RPN or NRPN with its value (R70, R75): it selects and enters at once. A refused message has no effect. -/
def umpRpn (g c : Nat) (nrpn : Bool) (bank index v : Nat) (b : Block) : Msg × Block :=
  let r : Rpn := { nrpn := nrpn, msb := bank, lsb := index, val := v / 2 ^ 18 }
  let (m, b1) := applyRpn g c (chanOf b g c) r b
  if m.code ≠ 0 then (m, b) else (m, setRpn (16 * g + c) r b1)

/-- UMP_RPN_NRPN (R75). -/
def execUmpRpnNrpn (src : UmpSrc) (g ch : Fin 16) (nrpn : Bool) (bank index : BitVec 7) (v : Word) (s : State) :
    Host.Outcome State Fault Refusal :=
  s.run (umpMsg src.num g.val (umpRpn (umpGroup g) ch.val nrpn bank.toNat index.toNat v.toNat))

/-- UMP_RELATIVE_RPN_NRPN (R75): REJ_FORMAT. -/
def execUmpRelativeRpnNrpn (src : UmpSrc) (g _ch : Fin 16) (_nrpn : Bool) (_bank _index : BitVec 7) (_v : Word) (s : State) :
    Host.Outcome State Fault Refusal := umpAt src g (fun _ => .reject 5) s

/-- UMP_PER_NOTE_PITCH_BEND (R75). -/
def execUmpPerNotePitchBend (src : UmpSrc) (g ch : Fin 16) (key : BitVec 7) (v : Word) (s : State) : Host.Outcome State Fault Refusal :=
  umpAt src g (fun b => onChan b (umpGroup g) ch.val fun part _ => [keyEv 7 part key.toNat (v.toNat / 2 ^ 16) 0]) s

/-- A control change of 32 bits (R73, R75): CONTROL, or PN_CONTROL on a member channel. -/
def umpControl (g c cc v : Nat) (b : Block) : Msg :=
  onChan b g c fun part mem =>
    if mem then [.mk' 5 0 0 part (v / 2 ^ 16 + memberId c * 65536 + cc * 2 ^ 24)] else [.mk' 4 0 0 part (v / 2 ^ 8 + cc * 2 ^ 24)]

/-- UMP_CONTROL_CHANGE (R75). -/
def execUmpControlChange (src : UmpSrc) (g ch : Fin 16) (cc : BitVec 7) (v : Word) (s : State) : Host.Outcome State Fault Refusal :=
  umpAt src g (umpControl (umpGroup g) ch.val cc.toNat v.toNat) s

/-- UMP_PROGRAM_CHANGE (R75): the bank bytes count when they are flagged valid. -/
def execUmpProgramChange (src : UmpSrc) (g ch : Fin 16) (p : BitVec 7) (bankValid : Bool) (bankMsb bankLsb : BitVec 7) (s : State) :
    Host.Outcome State Fault Refusal :=
  umpAt src g (programMsg (umpGroup g) ch.val p.toNat (if bankValid then some (bankMsb.toNat * 128 + bankLsb.toNat) else none)) s
/-- UMP_CHANNEL_PRESSURE (R75). -/
def execUmpChannelPressure (src : UmpSrc) (g ch : Fin 16) (v : Word) (s : State) : Host.Outcome State Fault Refusal :=
  umpAt src g (pressureMsg (umpGroup g) ch.val (v.toNat / 2 ^ 16) (v.toNat / 2 ^ 8)) s
/-- UMP_PITCH_BEND (R75). -/
def execUmpPitchBend (src : UmpSrc) (g ch : Fin 16) (v : Word) (s : State) : Host.Outcome State Fault Refusal :=
  umpAt src g (bendMsg (umpGroup g) ch.val (v.toNat / 2 ^ 16)) s
/-- UMP_PER_NOTE_MANAGEMENT (R75). -/
def execUmpPerNoteManagement (src : UmpSrc) (g ch : Fin 16) (key : BitVec 7) (detach reset : Bool) (s : State) :
    Host.Outcome State Fault Refusal :=
  umpAt src g (fun b => onChan b (umpGroup g) ch.val fun part _ => [.mk' 4 0 0 part 0 (.manage key.toNat reset detach)]) s
/-- UMP_STATUS_7 (R75): REJ_FORMAT. -/
def execUmpStatus7 (src : UmpSrc) (g _ch : Fin 16) (_key : BitVec 7) (s : State) : Host.Outcome State Fault Refusal :=
  umpAt src g (fun _ => .reject 5) s

end Sys2Proof.Machine
end

