-- ==== Sys2Proof/Machine/ExecOut.lean ====
section
/-! DEFINITION. The commands of the mix, the output chain, the serial audio ports, the CV outputs (chapters 10–12) and the DV32 port
(chapter 15). -/

namespace Sys2Proof.Machine

/-- LIVE_WRITE (R265). -/
def execLiveWrite (m : Master) (v : Word) (s : State) : Host.Outcome State Fault Refusal := s.run (writeReg m.val MIX_CTL v 0)
/-- LOOM_FADE_DONE (R265). -/
def execLoomFadeDone (l : Fin 4) (s : State) : Host.Outcome State Fault Refusal := s.run (Machine.loomFadeDone l.val)
/-- LANE_SET_REQUEST (R269, R271): lane `l`, or input lane `l` (128 and above: none). -/
def execLaneSetRequest (m : Master) (input : Bool) (l : Fin 256) (v : Word) (s : State) : Host.Outcome State Fault Refusal :=
  s.run fun b =>
    if !input then writeReg m.val (DCH_LCFG l.val) v 0 b
    else if l.val < 128 then writeReg m.val (DCH_ICFG l.val) v 0 b
    else b
/-- CROSSFADE_DONE (R269). -/
def execCrossfadeDone (input : Bool) (l : Fin 256) (s : State) : Host.Outcome State Fault Refusal :=
  s.run fun b => if !input then Machine.crossfadeDone l.val b else if l.val < 128 then inputFadeDone l.val b else b
/-- CROM_DATA_READ (R267). -/
def execCromDataRead (m : Master) (s : State) : Host.Outcome State Fault Refusal := s.run (readReg m.val DCH_CROM_DATA 0)

/-- SAP_FRAME_START (R277). -/
def execSapFrameStart (n : Fin 8) (t : Long) (bits : Half) (di : List Word) (under full : List (Fin 16)) (s : State) :
    Host.Outcome State Fault Refusal :=
  s.at t (Machine.sapFrameStart n.val t.toNat bits.toNat di (under.map (·.val)) (full.map (·.val)))
/-- SAP_CLOCK_LOST (R284). -/
def execSapClockLost (n : Fin 8) (s : State) : Host.Outcome State Fault Refusal := s.run (Machine.sapClockLost n.val)
/-- RESTART (R288): SAP_CTL written with restart set. -/
def execRestart (m : Master) (n : Fin 8) (en : Bool) (s : State) : Host.Outcome State Fault Refusal :=
  s.run (writeReg m.val (SAP_CTL n.val) (if en then 3 else 2) 0)
/-- SAP_ENABLE_WRITE (R291): SAP_CTL written with restart clear. -/
def execSapEnableWrite (m : Master) (n : Fin 8) (en : Bool) (s : State) : Host.Outcome State Fault Refusal :=
  s.run (writeReg m.val (SAP_CTL n.val) (if en then 1 else 0) 0)
/-- SAP_CFG_WRITE (R291). -/
def execSapCfgWrite (m : Master) (n : Fin 8) (v : Word) (s : State) : Host.Outcome State Fault Refusal :=
  s.run (writeReg m.val (SAP_CFG n.val) v 0)

/-- CV_PERIOD_BOUNDARY (R294). -/
def execCvPeriodBoundary (n : Fin 32) (s : State) : Host.Outcome State Fault Refusal := s.run (cvPeriod n.val)
/-- SLEW_UPDATE (R301). -/
def execSlewUpdate (n : Fin 32) (s : State) : Host.Outcome State Fault Refusal := s.run (cvSlew n.val)
/-- CV_CLR_N_ASSERT (R303). -/
def execCvClrNAssert (s : State) : Host.Outcome State Fault Refusal := s.run (cvClearPin true)
/-- CV_CLR_N_RELEASE (R303). -/
def execCvClrNRelease (s : State) : Host.Outcome State Fault Refusal := s.run (cvClearPin false)
/-- CVO_VAL_WRITE (R299). -/
def execCvoValWrite (m : Master) (n : Fin 32) (v : Word) (s : State) : Host.Outcome State Fault Refusal :=
  s.run (writeReg m.val (CVO_CH_VAL n.val) v 0)

/-! ### The DV32 port -/

/-- An access to instance `i`: a select of a disabled instance is ignored (R360). -/
def dvAccess (i : Nat) (f : Block → Block) (b : Block) : Block := if dvOn b i then f b else b
/-- A write to instance `i`: a disabled source 6 ignores its input (R51). -/
def dvWriteTo (i : Nat) (f : Block → Block) (b : Block) : Block := if srcOn b 6 then dvAccess i f b else b
/-- CTRL (R363). -/
def execCtrl (i : Fin 4) (v : Byte) (s : State) : Host.Outcome State Fault Refusal := s.run (dvWriteTo i.val (dvTimed i.val 0 v.toNat))
/-- DV32_TIMED_REGISTER_WRITE (R364): of a register whose writes are timed, CTRL and GCTRL apart. -/
def execDv32TimedRegisterWrite (i : Fin 4) (a : BitVec 6) (v : Byte) (s : State) : Host.Outcome State Fault Refusal :=
  s.run (dvWriteTo i.val fun b => if dvTimedAddr a.toNat then dvTimed i.val a.toNat v.toNat b else b)
/-- GCTRL (R363). -/
def execGctrl (i : Fin 4) (v : Byte) (s : State) : Host.Outcome State Fault Refusal := s.run (dvWriteTo i.val (dvGctrl i.val v.toNat))
/-- ENDF (R371). -/
def execEndf (i : Fin 4) (k : Fin 4) (v : Byte) (s : State) : Host.Outcome State Fault Refusal :=
  s.run (dvWriteTo i.val (dvCaptured (dvEndf i.val k.val v.toNat)))
/-- PAGE (R363). -/
def execPage (i : Fin 4) (v : Byte) (s : State) : Host.Outcome State Fault Refusal :=
  s.run (dvWriteTo i.val (dvCaptured (dvPage i.val v.toNat)))
/-- LEGACY_IGNORED_WRITE (R363). -/
def execLegacyIgnoredWrite (i : Fin 4) (a : BitVec 6) (_v : Byte) (s : State) : Host.Outcome State Fault Refusal :=
  s.run (dvWriteTo i.val fun b => if dvIgnoredAddr a.toNat then dvCaptured dvIgnored b else b)
/-- POS0 (R362): the legacy bridge answers with the low byte, and the shadow takes the others. -/
def execPos0 (i : Fin 4) (s : State) : Host.Outcome State Fault Refusal :=
  s.run (dvAccess i.val fun b => setResp 3 { data := [BitVec.ofNat 32 (dvRead b i.val 0x16)] } (dvPos0 i.val b))
/-- LEG_TBL_DATA_READ (R358). -/
def execLegTblDataRead (m : Master) (s : State) : Host.Outcome State Fault Refusal := s.run (readReg m.val LEG_TBL_DATA 0)

end Sys2Proof.Machine
end

