-- ==== Sys2Proof/Machine/ExecPower.lean ====
section
/-! DEFINITION. The commands of power and heat (chapter 17), reliability, security and JTAG (chapter 18). Those of the power die, the
TAP and the lockout act in reset too. -/

namespace Sys2Proof.Machine

/-- UVLO_FALL (R407). -/
def execUvloFall (s : State) : Host.Outcome State Fault Refusal := s.ok Machine.uvloFall
/-- OVER_VOLTAGE (R407). -/
def execOverVoltage (s : State) : Host.Outcome State Fault Refusal := s.ok Machine.overVoltage
/-- OVER_VOLTAGE_RELEASE (R407). -/
def execOverVoltageRelease (s : State) : Host.Outcome State Fault Refusal := s.ok Machine.overVoltageRelease
/-- RAIL_START_TIMEOUT (R410). -/
def execRailStartTimeout (s : State) : Host.Outcome State Fault Refusal := s.ok Machine.railStartTimeout
/-- RAIL_RETRY (R410). -/
def execRailRetry (s : State) : Host.Outcome State Fault Refusal := s.ok Machine.railRetry
/-- SWITCHING_LOCK (R412). -/
def execSwitchingLock (s : State) : Host.Outcome State Fault Refusal := s.run Machine.switchingLock
/-- CURRENT_LIMIT (R415). -/
def execCurrentLimit (s : State) : Host.Outcome State Fault Refusal := s.ok Machine.currentLimit
/-- PHASE_FAILURE (R416). -/
def execPhaseFailure (p : Fin 4) (s : State) : Host.Outcome State Fault Refusal := s.ok (Machine.phaseFailure p.val)
/-- BROWN_OUT (R417). -/
def execBrownOut (t : Long) (s : State) : Host.Outcome State Fault Refusal := s.ok fun b => Machine.brownOut t.toNat (advanceLive t.toNat b)
/-- VIN_GOOD (R417). -/
def execVinGood (t : Long) (s : State) : Host.Outcome State Fault Refusal := s.ok fun b => Machine.vinGood t.toNat (advanceLive t.toNat b)
/-- BROWN_OUT_RECOVERY (R417). -/
def execBrownOutRecovery (t : Long) (s : State) : Host.Outcome State Fault Refusal :=
  s.ok fun b => Machine.brownOutRecovery t.toNat (advanceLive t.toNat b)
/-- BROWN_OUT_SHUTDOWN (R417). -/
def execBrownOutShutdown (s : State) : Host.Outcome State Fault Refusal := s.ok Machine.brownOutShutdown
/-- BROWN_OUT_REPOWER (R417). -/
def execBrownOutRepower (s : State) : Host.Outcome State Fault Refusal := s.ok Machine.brownOutRepower
/-- THERMAL_SAMPLE (R418). -/
def execThermalSample (s0 s1 s2 s3 s4 s5 vin iin vcore : Half) (s : State) : Host.Outcome State Fault Refusal :=
  s.ok (Machine.thermalSample [s0, s1, s2, s3, s4] s5 vin.toNat iin.toNat vcore.toNat)
/-- T3_RESUME (R419). -/
def execT3Resume (s : State) : Host.Outcome State Fault Refusal := s.run Machine.t3Resume

/-- SAFE_STATE_AUTO_RESET (R432). -/
def execSafeStateAutoReset (s : State) : Host.Outcome State Fault Refusal := s.run Machine.safeStateAutoReset
/-- UNQUARANTINE (R430): a write of REL_CTL. -/
def execUnquarantine (m : Master) (v : Word) (s : State) : Host.Outcome State Fault Refusal := s.run (writeReg m.val REL_CTL v 0)
/-- CHALLENGE (R441): a write of SEC_UNLK. -/
def execChallenge (m : Master) (v : Word) (s : State) : Host.Outcome State Fault Refusal := s.run (writeReg m.val SEC_UNLK v 0)
/-- SUBMIT (R441): a write of SEC_UNLK. -/
def execSubmit (m : Master) (v : Word) (s : State) : Host.Outcome State Fault Refusal := s.run (writeReg m.val SEC_UNLK v 0)
/-- NONCE_EXPIRE (R442). -/
def execNonceExpire (s : State) : Host.Outcome State Fault Refusal := s.run dropNonce
/-- LOCKOUT_END (R442). -/
def execLockoutEnd (s : State) : Host.Outcome State Fault Refusal := s.ok (setSec fun x => { x with lockout := false })
/-- TRNG_HEALTH_FAIL (R438). -/
def execTrngHealthFail (s : State) : Host.Outcome State Fault Refusal := s.run trngFail
/-- TRNG_RECOVERY (R438). -/
def execTrngRecovery (s : State) : Host.Outcome State Fault Refusal := s.run trngRecover
/-- JTAG_INSTRUCTION_LOAD (R446). -/
def execJtagInstructionLoad (code : Byte) (s : State) : Host.Outcome State Fault Refusal := s.ok (jtagLoad code)
/-- TRST_N (R446). -/
def execTrstN (s : State) : Host.Outcome State Fault Refusal := s.ok Machine.trstN
/-- DRAM_ALERT (R431). -/
def execDramAlert (s : State) : Host.Outcome State Fault Refusal := s.run (safeEntry 4 0)

end Sys2Proof.Machine
end

