-- ==== Sys2Proof/Machine/ExecSlot.lean ====
section
/-! DEFINITION. The slot instructions of a shuttle as commands (chapter 09): slots M0, M1 and X take their instruction; the instruction
of slot C issues the bundle. -/

namespace Sys2Proof.Machine

/-- NOP (R235). -/
def execNop (s : Fin 160) (slot : Fin 4) (st : State) : Host.Outcome State Fault Refusal :=
  st.run (slotNop s.val slot.val)

/-- LDW (R238). -/
def execLdw (s : Fin 160) (m1 : Bool) (f : FmtA) (e : Ecc) (st : State) : Host.Outcome State Fault Refusal :=
  st.run (slotM s.val m1 (.load .word f e))

/-- LDH (R238). -/
def execLdh (s : Fin 160) (m1 : Bool) (f : FmtA) (e : Ecc) (st : State) : Host.Outcome State Fault Refusal :=
  st.run (slotM s.val m1 (.load .half f e))

/-- LDHU (R238). -/
def execLdhu (s : Fin 160) (m1 : Bool) (f : FmtA) (e : Ecc) (st : State) : Host.Outcome State Fault Refusal :=
  st.run (slotM s.val m1 (.load .halfU f e))

/-- LDB (R238). -/
def execLdb (s : Fin 160) (m1 : Bool) (f : FmtA) (e : Ecc) (st : State) : Host.Outcome State Fault Refusal :=
  st.run (slotM s.val m1 (.load .byte f e))

/-- LDZ (R238). -/
def execLdz (s : Fin 160) (m1 : Bool) (f : FmtA) (e : Ecc) (st : State) : Host.Outcome State Fault Refusal :=
  st.run (slotM s.val m1 (.load .pair f e))

/-- STW (R238). -/
def execStwEcc (s : Fin 160) (m1 : Bool) (f : FmtA) (e : Ecc) (st : State) : Host.Outcome State Fault Refusal :=
  st.run (slotM s.val m1 (.store .word f e))

/-- STH (R238). -/
def execSthEcc (s : Fin 160) (m1 : Bool) (f : FmtA) (e : Ecc) (st : State) : Host.Outcome State Fault Refusal :=
  st.run (slotM s.val m1 (.store .half f e))

/-- STB (R238). -/
def execStbEcc (s : Fin 160) (m1 : Bool) (f : FmtA) (e : Ecc) (st : State) : Host.Outcome State Fault Refusal :=
  st.run (slotM s.val m1 (.store .byte f e))

/-- STZ (R238). -/
def execStz (s : Fin 160) (m1 : Bool) (f : FmtA) (st : State) : Host.Outcome State Fault Refusal :=
  st.run (slotM s.val m1 (.store .pair f .clean))

/-- SRD (R240). -/
def execSrdEcc (s : Fin 160) (m1 : Bool) (d f : BitVec 5) (w inc : Bool) (e : Ecc) (st : State) : Host.Outcome State Fault Refusal :=
  st.run (slotM s.val m1 (.srd d f w inc e))

/-- LDL (R241). -/
def execLdlEcc (s : Fin 160) (m1 : Bool) (l : BitVec 5) (p : BitVec 4) (size : BitVec 2) (e : Ecc) (st : State) : Host.Outcome State Fault Refusal :=
  st.run (slotM s.val m1 (.ldl l p size e))

/-- STL (R241). -/
def execStlEcc (s : Fin 160) (m1 : Bool) (l : BitVec 5) (p : BitVec 4) (size : BitVec 2) (e : Ecc) (st : State) : Host.Outcome State Fault Refusal :=
  st.run (slotM s.val m1 (.stl l p size e))

/-- SND (R242). -/
def execSnd (s : Fin 160) (m1 : Bool) (v t : BitVec 5) (lane : BitVec 4) (inc : Bool) (st : State) : Host.Outcome State Fault Refusal :=
  st.run (slotM s.val m1 (.snd v t lane inc))

/-- PADD (R243). -/
def execPadd (s : Fin 160) (m1 : Bool) (k j : BitVec 4) (cls : Bool) (imm : BitVec 18) (st : State) : Host.Outcome State Fault Refusal :=
  st.run (slotM s.val m1 (.padd k j cls imm))

/-- PMOV (R243). -/
def execPmov (s : Fin 160) (m1 : Bool) (d : BitVec 5) (k : BitVec 4) (dir : BitVec 2) (st : State) : Host.Outcome State Fault Refusal :=
  st.run (slotM s.val m1 (.pmov d k dir))

/-- PLI (R243). -/
def execPli (s : Fin 160) (m1 : Bool) (k : BitVec 4) (cls : Bool) (imm : BitVec 22) (st : State) : Host.Outcome State Fault Refusal :=
  st.run (slotM s.val m1 (.pli k cls imm))

/-- CMAC (R244). -/
def execCmac (s : Fin 160) (pair acc neg conj : Bool) (zx zy : BitVec 4) (st : State) : Host.Outcome State Fault Refusal :=
  st.run (slotX s.val (.cmac pair acc neg conj zx zy))

/-- RMAC (R244). -/
def execRmac (s : Fin 160) (a : BitVec 2) (acc neg : Bool) (x y : BitVec 5) (st : State) : Host.Outcome State Fault Refusal :=
  st.run (slotX s.val (.rmac a acc neg x y))

/-- RMAC2 (R244). -/
def execRmac2 (s : Fin 160) (a b : BitVec 2) (negA negB acc : Bool) (x y u v : BitVec 5) (st : State) : Host.Outcome State Fault Refusal :=
  st.run (slotX s.val (.rmac2 a b negA negB acc x y u v))

/-- EXT (R244). -/
def execExt (s : Fin 160) (d : BitVec 5) (a : BitVec 2) (sh : BitVec 4) (z : Bool) (st : State) : Host.Outcome State Fault Refusal :=
  st.run (slotX s.val (.ext d a sh z))

/-- ACCSET (R244). -/
def execAccset (s : Fin 160) (a : BitVec 2) (x : BitVec 5) (st : State) : Host.Outcome State Fault Refusal :=
  st.run (slotX s.val (.accset a x))

/-- ADD (R245). -/
def execAdd (s : Fin 160) (d a b : BitVec 5) (st : State) : Host.Outcome State Fault Refusal :=
  st.run (slotC s.val (.alu .add d a b))

/-- SUB (R245). -/
def execSub (s : Fin 160) (d a b : BitVec 5) (st : State) : Host.Outcome State Fault Refusal :=
  st.run (slotC s.val (.alu .sub d a b))

/-- ADDS (R245). -/
def execAdds (s : Fin 160) (d a b : BitVec 5) (st : State) : Host.Outcome State Fault Refusal :=
  st.run (slotC s.val (.alu .adds d a b))

/-- SUBS (R245). -/
def execSubs (s : Fin 160) (d a b : BitVec 5) (st : State) : Host.Outcome State Fault Refusal :=
  st.run (slotC s.val (.alu .subs d a b))

/-- AND (R245). -/
def execAnd (s : Fin 160) (d a b : BitVec 5) (st : State) : Host.Outcome State Fault Refusal :=
  st.run (slotC s.val (.alu .and d a b))

/-- OR (R245). -/
def execOr (s : Fin 160) (d a b : BitVec 5) (st : State) : Host.Outcome State Fault Refusal :=
  st.run (slotC s.val (.alu .or d a b))

/-- XOR (R245). -/
def execXor (s : Fin 160) (d a b : BitVec 5) (st : State) : Host.Outcome State Fault Refusal :=
  st.run (slotC s.val (.alu .xor d a b))

/-- SHL (R245). -/
def execShl (s : Fin 160) (d a b : BitVec 5) (st : State) : Host.Outcome State Fault Refusal :=
  st.run (slotC s.val (.alu .shl d a b))

/-- SHR (R245). -/
def execShr (s : Fin 160) (d a b : BitVec 5) (st : State) : Host.Outcome State Fault Refusal :=
  st.run (slotC s.val (.alu .shr d a b))

/-- ASR (R245). -/
def execAsr (s : Fin 160) (d a b : BitVec 5) (st : State) : Host.Outcome State Fault Refusal :=
  st.run (slotC s.val (.alu .asr d a b))

/-- MIN (R245). -/
def execMin (s : Fin 160) (d a b : BitVec 5) (st : State) : Host.Outcome State Fault Refusal :=
  st.run (slotC s.val (.alu .min d a b))

/-- MAX (R245). -/
def execMax (s : Fin 160) (d a b : BitVec 5) (st : State) : Host.Outcome State Fault Refusal :=
  st.run (slotC s.val (.alu .max d a b))

/-- ABS (R245). -/
def execAbs (s : Fin 160) (d a b : BitVec 5) (st : State) : Host.Outcome State Fault Refusal :=
  st.run (slotC s.val (.alu .abs d a b))

/-- MUL16 (R245). -/
def execMul16 (s : Fin 160) (d a b : BitVec 5) (st : State) : Host.Outcome State Fault Refusal :=
  st.run (slotC s.val (.alu .mul16 d a b))

/-- CMP (R245). -/
def execCmp (s : Fin 160) (a b : BitVec 5) (st : State) : Host.Outcome State Fault Refusal :=
  st.run (slotC s.val (.cmp a b))

/-- MOV (R245). -/
def execMov (s : Fin 160) (d a : BitVec 5) (st : State) : Host.Outcome State Fault Refusal :=
  st.run (slotC s.val (.mov d a))

/-- ADDI (R246). -/
def execAddi (s : Fin 160) (d a : BitVec 5) (imm : BitVec 16) (st : State) : Host.Outcome State Fault Refusal :=
  st.run (slotC s.val (.addi d a imm))

/-- ANDI (R246). -/
def execAndi (s : Fin 160) (d a : BitVec 5) (imm : BitVec 16) (st : State) : Host.Outcome State Fault Refusal :=
  st.run (slotC s.val (.andi d a imm))

/-- ORI (R246). -/
def execOri (s : Fin 160) (d a : BitVec 5) (imm : BitVec 16) (st : State) : Host.Outcome State Fault Refusal :=
  st.run (slotC s.val (.ori d a imm))

/-- XORI (R246). -/
def execXori (s : Fin 160) (d a : BitVec 5) (imm : BitVec 16) (st : State) : Host.Outcome State Fault Refusal :=
  st.run (slotC s.val (.xori d a imm))

/-- SHI (R246). -/
def execShi (s : Fin 160) (d a : BitVec 5) (kind : BitVec 2) (amount : BitVec 5) (st : State) : Host.Outcome State Fault Refusal :=
  st.run (slotC s.val (.shi d a kind amount))

/-- CMPI (R246). -/
def execCmpi (s : Fin 160) (a : BitVec 5) (imm : BitVec 16) (st : State) : Host.Outcome State Fault Refusal :=
  st.run (slotC s.val (.cmpi a imm))

/-- LDI (R246). -/
def execLdi (s : Fin 160) (d : BitVec 5) (imm : BitVec 21) (st : State) : Host.Outcome State Fault Refusal :=
  st.run (slotC s.val (.ldi d imm))

/-- LDHI (R246). -/
def execLdhi (s : Fin 160) (d : BitVec 5) (imm : BitVec 16) (st : State) : Host.Outcome State Fault Refusal :=
  st.run (slotC s.val (.ldhi d imm))

/-- SEL (R246). -/
def execSel (s : Fin 160) (d a b : BitVec 5) (cond : BitVec 4) (st : State) : Host.Outcome State Fault Refusal :=
  st.run (slotC s.val (.sel d a b cond))

/-- EXP2 (R221). -/
def execExp2 (s : Fin 160) (d x : BitVec 5) (st : State) : Host.Outcome State Fault Refusal :=
  st.run (slotC s.val (.shp .exp2 d x))

/-- SIN (R221). -/
def execSin (s : Fin 160) (d x : BitVec 5) (st : State) : Host.Outcome State Fault Refusal :=
  st.run (slotC s.val (.shp .sin d x))

/-- TANH (R221). -/
def execTanh (s : Fin 160) (d x : BitVec 5) (st : State) : Host.Outcome State Fault Refusal :=
  st.run (slotC s.val (.shp .tanh d x))

/-- SCLIP (R221). -/
def execSclip (s : Fin 160) (d x : BitVec 5) (st : State) : Host.Outcome State Fault Refusal :=
  st.run (slotC s.val (.shp .sclip d x))

/-- BLEP (R221). -/
def execBlep (s : Fin 160) (d x : BitVec 5) (st : State) : Host.Outcome State Fault Refusal :=
  st.run (slotC s.val (.shp .blep d x))

/-- BLAMP (R221). -/
def execBlamp (s : Fin 160) (d x : BitVec 5) (st : State) : Host.Outcome State Fault Refusal :=
  st.run (slotC s.val (.shp .blamp d x))

/-- WIN (R221). -/
def execWin (s : Fin 160) (d x : BitVec 5) (st : State) : Host.Outcome State Fault Refusal :=
  st.run (slotC s.val (.shp .win d x))

/-- SHP_RESERVED (R248). -/
def execShpReserved (s : Fin 160) (d x : BitVec 5) (st : State) : Host.Outcome State Fault Refusal :=
  st.run (slotC s.val (.shp .reserved d x))

/-- MOVX (R247). -/
def execMovx (s : Fin 160) (dst src : BitVec 5) (dcls scls : BitVec 4) (st : State) : Host.Outcome State Fault Refusal :=
  st.run (slotC s.val (.movx dst src dcls scls))

/-- SETBL (R246). -/
def execSetbl (s : Fin 160) (k : BitVec 3) (len : Bool) (imm : BitVec 22) (st : State) : Host.Outcome State Fault Refusal :=
  st.run (slotC s.val (.setbl k len imm))

/-- BR (R250). -/
def execBr (s : Fin 160) (cond : BitVec 4) (target : BitVec 13) (st : State) : Host.Outcome State Fault Refusal :=
  st.run (slotC s.val (.br cond target))

/-- CALL (R250). -/
def execCall (s : Fin 160) (d : BitVec 5) (target : BitVec 13) (st : State) : Host.Outcome State Fault Refusal :=
  st.run (slotC s.val (.call d target))

/-- BRD (R250). -/
def execBrd (s : Fin 160) (a : BitVec 5) (st : State) : Host.Outcome State Fault Refusal :=
  st.run (slotC s.val (.brd a))

/-- REP (R251). -/
def execRep (s : Fin 160) (n : BitVec 11) (st : State) : Host.Outcome State Fault Refusal :=
  st.run (slotC s.val (.rep n))

/-- REPD (R251). -/
def execRepd (s : Fin 160) (a : BitVec 5) (st : State) : Host.Outcome State Fault Refusal :=
  st.run (slotC s.val (.repd a))

/-- LOOP (R252). -/
def execLoop (s : Fin 160) (n : BitVec 16) (off : BitVec 10) (st : State) : Host.Outcome State Fault Refusal :=
  st.run (slotC s.val (.loop n off))

/-- LOOPD (R252). -/
def execLoopd (s : Fin 160) (a : BitVec 5) (off : BitVec 10) (st : State) : Host.Outcome State Fault Refusal :=
  st.run (slotC s.val (.loopd a off))

/-- WAITL (R217). -/
def execWaitl (s : Fin 160) (n : BitVec 3) (st : State) : Host.Outcome State Fault Refusal :=
  st.run (slotC s.val (.waitl n))

/-- DONE (R230). -/
def execDone (s : Fin 160) (e : Bool) (st : State) : Host.Outcome State Fault Refusal :=
  st.run (slotC s.val (.done e))

/-- DRAW (R229). -/
def execDraw (s : Fin 160) (st : State) : Host.Outcome State Fault Refusal :=
  st.run (slotC s.val .draw)

/-- RTE (R253). -/
def execRte (s : Fin 160) (st : State) : Host.Outcome State Fault Refusal :=
  st.run (slotC s.val .rte)

end Sys2Proof.Machine
end

