-- ==== Sys2Proof/Machine/ExecTime.lean ====
section
/-! DEFINITION. The commands of the time base unit (chapter 02). -/

namespace Sys2Proof.Machine

/-- REFERENCE_FRAME_EDGE (R30). -/
def execReferenceFrameEdge (t : Long) (s : State) : Host.Outcome State Fault Refusal := s.run (Machine.referenceFrameEdge t.toNat)
/-- HOLDOVER_ENTRY (R30). -/
def execHoldoverEntry (t : Long) (s : State) : Host.Outcome State Fault Refusal := s.run (Machine.holdoverEntry t.toNat)
/-- HOLDOVER_FRAME (R30). -/
def execHoldoverFrame (t : Long) (s : State) : Host.Outcome State Fault Refusal := s.run (Machine.holdoverFrame t.toNat)
/-- HOLDOVER_TIMEOUT (R30). -/
def execHoldoverTimeout (t : Long) (s : State) : Host.Outcome State Fault Refusal := s.run (Machine.holdoverTimeout t.toNat)
/-- REF_CFG_WRITE (R29). -/
def execRefCfgWrite (m : Master) (v : Word) (s : State) : Host.Outcome State Fault Refusal := s.run (writeReg m.val TBU_REF_CFG v 0)

/-- TEMPO_EDGE (R36): an edge of TEMPO_IN at `t`, before the reference frame edge `next`. -/
def execTempoEdge (t next : Long) (s : State) : Host.Outcome State Fault Refusal :=
  s.run fun b => Machine.tempoEdge 1 t.toNat next.toNat none (pulseValue b 1) b
/-- TEMPO_TIMEOUT (R38). -/
def execTempoTimeout (s : State) : Host.Outcome State Fault Refusal := s.run Machine.tempoTimeout

/-- COMPARE_ARM (R43): a write of the high word of TBU_CMPn_VAL. -/
def execCompareArm (m : Master) (n : Fin 16) (v : Word) (s : State) : Host.Outcome State Fault Refusal :=
  s.run (writeReg m.val (TBU_CMP_VAL n.val + 4) v 0)
/-- COMPARE_FIRE (R43). -/
def execCompareFire (n : Fin 16) (s : State) : Host.Outcome State Fault Refusal := s.run (Machine.compareFire n.val)
/-- COMPARE_CFG_WRITE (R43). -/
def execCompareCfgWrite (m : Master) (n : Fin 16) (v : Word) (s : State) : Host.Outcome State Fault Refusal :=
  s.run (writeReg m.val (TBU_CMP_CFG n.val) v 0)

/-- CAPTURE_EDGE (R45). -/
def execCaptureEdge (n : Fin 8) (s : State) : Host.Outcome State Fault Refusal := s.run (Machine.captureEdge n.val)
/-- CAPTURE_READ (R45, R46): with an edge in the same cycle the capture takes its place behind what the read leaves. -/
def execCaptureRead (m : Master) (n : Fin 8) (edge : Bool) (s : State) : Host.Outcome State Fault Refusal :=
  s.run fun b =>
    let b1 := readReg m.val (TBU_CAP_VAL n.val) 0 b
    if !edge || !captureHasSource b n.val then b1
    else if accessMade m.val (TBU_CAP_VAL n.val) b then
      { captureTakeWith n.val (counterOf b (b.get (TBU_CAP_CFG_cnt n.val))) b with bus := b1.bus }
    else Machine.captureEdge n.val b1

/-- TIMER_UNDERFLOW (R47). -/
def execTimerUnderflow (n : Fin 8) (s : State) : Host.Outcome State Fault Refusal := s.run (Machine.timerUnderflow n.val)
/-- TIMER_RELOAD_WRITE (R47). -/
def execTimerReloadWrite (m : Master) (n : Fin 8) (v : Word) (s : State) : Host.Outcome State Fault Refusal :=
  s.run (writeReg m.val (TBU_TMR_RLD n.val) v 0)

/-- TEMPO (R35): the front presented TEMPO. -/
def execTempo (s : State) : Host.Outcome State Fault Refusal := s.run tempoEvent
/-- LOCATE (R41): the front presented LOCATE. -/
def execLocate (s : State) : Host.Outcome State Fault Refusal := s.run locateEvent
/-- TRANSPORT (R35): the front presented TRANSPORT. -/
def execTransport (s : State) : Host.Outcome State Fault Refusal := s.run transportEvent
/-- MARK (R79): the front presented MARK. -/
def execMark (s : State) : Host.Outcome State Fault Refusal := s.run markEvent

end Sys2Proof.Machine
end

