-- ==== Sys2Proof/Machine/ExecWeft.lean ====
section
/-! DEFINITION. The commands of the weft link (chapter 14). -/

namespace Sys2Proof.Machine

/-- PORT_UP (R336). -/
def execPortUp (p : Fin 2) (swap : Bool) (inv : BitVec 4) (s : State) : Host.Outcome State Fault Refusal :=
  s.run (Machine.portUp p.val swap inv.toNat)
/-- PORT_DOWN (R336). -/
def execPortDown (p : Fin 2) (s : State) : Host.Outcome State Fault Refusal := s.run (Machine.portDown p.val)
/-- FAULT_MARKER (R336): the receiver treats its port as DOWN. -/
def execFaultMarker (p : Fin 2) (s : State) : Host.Outcome State Fault Refusal := s.run (Machine.portDown p.val)
/-- REENUM (R338). -/
def execReenum (m : Master) (s : State) : Host.Outcome State Fault Refusal := s.run (writeReg m.val WFT_CTL 1 0)

/-- A node table of an ENUM or ENUM_DONE frame: serials with hop delays. -/
def nodeTable (t : List (Long × Half)) : List (Nat × Nat) := t.map fun x => (x.1.toNat, x.2.toNat)

/-- ENUM (R338). -/
def execEnumFrame (h : WHdr) (root : Long) (table : List (Long × Half)) (tooMany : Bool) (s : State) : Host.Outcome State Fault Refusal :=
  s.run (enumFrame h root.toNat (nodeTable table) tooMany)
/-- ENUM_DONE (R338). -/
def execEnumDoneFrame (h : WHdr) (table : List (Long × Half)) (lout : Half) (wrapped : Bool) (s : State) : Host.Outcome State Fault Refusal :=
  s.run (enumDoneFrame h (nodeTable table) lout.toNat wrapped)
/-- ENUM_TIMEOUT (R338). -/
def execEnumTimeout (s : State) : Host.Outcome State Fault Refusal := s.run Machine.enumTimeout
/-- PROBE_MARKER (R339). -/
def execProbeMarker (n : BitVec 52) (s : State) : Host.Outcome State Fault Refusal := s.run (Machine.probeMarker n.toNat)
/-- ECHO_MARKER (R339). -/
def execEchoMarker (p : Fin 2) (trip : Word) (s : State) : Host.Outcome State Fault Refusal :=
  s.run (Machine.echoMarker p.val trip.toNat)
/-- TIME_MARKER (R342). -/
def execTimeMarker (v : BitVec 52) (t : Long) (s : State) : Host.Outcome State Fault Refusal := s.run (timeMarkerEdge v.toNat t.toNat)
/-- BEAT_MARKER (R343). -/
def execBeatMarker (v : BitVec 52) (t next : Long) (s : State) : Host.Outcome State Fault Refusal :=
  s.at t (Machine.beatMarker v.toNat t.toNat next.toNat)
/-- RESERVED_MARKER (R341). -/
def execReservedMarker (kind : BitVec 4) (s : State) : Host.Outcome State Fault Refusal := s.run (Machine.reservedMarker kind.toNat)

/-- AUDIO_LAP_START (R345). -/
def execAudioLapStart (s : State) : Host.Outcome State Fault Refusal := s.run lapStart
/-- AUDIO_FRAME (R345): with bad internal parity the engine enters the chip safe state (R431), in which the frame is forwarded without
adding. -/
def execAudioFrame (h : WHdr) (lap2 : Bool) (pick : Half) (seg : Fin 32) (ws : List Word) (parity : Bool) (s : State) :
    Host.Outcome State Fault Refusal :=
  s.run fun b => Machine.audioFrame h lap2 pick.toNat seg.val ws (if parity then safeEntry 5 0 b else b)
/-- EVENT_FRAME (R348). -/
def execEventFrame (h : WHdr) (events : List (BitVec 128)) (s : State) : Host.Outcome State Fault Refusal :=
  s.run (onFrame 1 h (takeEvents events))
/-- PASS_FRAME (R138). -/
def execPassFrame (h : WHdr) (p : PassMsg) (s : State) : Host.Outcome State Fault Refusal := s.run (onFrame 2 h (passArrives p))
/-- PASS_ANSWER (R139): a kind other than PLACED and EXHAUSTED is discarded. -/
def execPassAnswerFrame (h : WHdr) (tag : Half) (kind layers : Byte) (s : State) : Host.Outcome State Fault Refusal :=
  s.run (onFrame 2 h fun b => if kind = 1 ∨ kind = 2 then passAnswered tag.toNat (kind == 1) layers.toNat b else b)

/-- TUNNEL_START (R349): WFT_TUN_CTL written with start set. -/
def execTunnelStart (m : Master) (v : Word) (s : State) : Host.Outcome State Fault Refusal :=
  s.run (writeReg m.val WFT_TUN_CTL (v ||| 0x800) 0)
/-- TUNNEL_ABORT (R349): WFT_TUN_CTL written with abort set. -/
def execTunnelAbort (m : Master) (v : Word) (s : State) : Host.Outcome State Fault Refusal :=
  s.run (writeReg m.val WFT_TUN_CTL (v ||| 0x1000) 0)
/-- TUNNEL_REQUEST_FRAME (R349). -/
def execTunnelRequestFrame (h : WHdr) (tag : Half) (write : Bool) (o : BitVec 26) (data : Word) (s : State) :
    Host.Outcome State Fault Refusal := s.run (onFrame 3 h (tunnelServe h.src.val tag.toNat write o.toNat data.toNat))
/-- TUNNEL_RESPONSE (R349). -/
def execTunnelResponse (h : WHdr) (tag : Half) (err : Bool) (data : Word) (s : State) : Host.Outcome State Fault Refusal :=
  s.run (onFrame 3 h (tunResponse tag.toNat err data.toNat))
/-- TUNNEL_TIMEOUT (R349). -/
def execTunnelTimeout (s : State) : Host.Outcome State Fault Refusal := s.run tunTimeout

/-- UNWRAP (R353): WFT_CTL written with unwrap set. -/
def execUnwrap (m : Master) (s : State) : Host.Outcome State Fault Refusal := s.run (writeReg m.val WFT_CTL 2 0)
/-- AUTO_UNWRAP (R353). -/
def execAutoUnwrap (s : State) : Host.Outcome State Fault Refusal := s.run Machine.autoUnwrap
/-- UNWRAP_COMMAND (R353). -/
def execUnwrapCommand (h : WHdr) (pick : Long) (s : State) : Host.Outcome State Fault Refusal :=
  s.run (onFrame 3 h (Machine.unwrapCommand pick.toNat))

/-- BOOT_FRAME (R354). -/
def execBootFrame (h : WHdr) (block count : Half) (bytes : List Byte) (last : Bool) (s : State) : Host.Outcome State Fault Refusal :=
  s.run (onFrame 4 h (Machine.bootFrame block.toNat count.toNat bytes last))
/-- BOOT_RESEND_REQUEST (R354). -/
def execBootResendRequest (h : WHdr) (blocks : List Half) (s : State) : Host.Outcome State Fault Refusal :=
  s.run (onFrame 3 h (bootResend (blocks.map (·.toNat))))
/-- RESERVED_CLASS_FRAME (R340). -/
def execReservedFrame (h : WHdr) (s : State) : Host.Outcome State Fault Refusal := s.run (badFrame h)

end Sys2Proof.Machine
end

