-- ==== Sys2Proof/Machine/Plain.lean ====
section
/-! DEFINITION. Short names for the plain form of commands that carry more: slot commands whose words have no ECC error, frames that come
on the primary leg of their way with a good CRC, a pick without housekeeping requests. Each is an abbreviation of the command and of its
meaning. -/

namespace Sys2Proof

abbrev Instr.umpUnsupported (src : UmpSrc) (mt : BitVec 4) : Instr := .umpUnsupportedType src 0 mt
abbrev Instr.cardCreate : Instr := .cardCreateFor []
abbrev Instr.stw (s : Fin 160) (m1 : Bool) (f : Machine.FmtA) : Instr := .stwEcc s m1 f .clean
abbrev Instr.sth (s : Fin 160) (m1 : Bool) (f : Machine.FmtA) : Instr := .sthEcc s m1 f .clean
abbrev Instr.stb (s : Fin 160) (m1 : Bool) (f : Machine.FmtA) : Instr := .stbEcc s m1 f .clean
abbrev Instr.srd (s : Fin 160) (m1 : Bool) (d f : BitVec 5) (w inc : Bool) : Instr := .srdEcc s m1 d f w inc .clean
abbrev Instr.ldl (s : Fin 160) (m1 : Bool) (l : BitVec 5) (p : BitVec 4) (size : BitVec 2) : Instr := .ldlEcc s m1 l p size .clean
abbrev Instr.stl (s : Fin 160) (m1 : Bool) (l : BitVec 5) (p : BitVec 4) (size : BitVec 2) : Instr := .stlEcc s m1 l p size .clean

/-- The header of a broadcast of the root that has all its hops left. -/
abbrev WHdr.ofRoot (secondary wrapped : Bool) : WHdr := ⟨0, 0, true, wrapped, 1023, true, secondary⟩

abbrev Instr.enum (root : Long) (table : List (Long × Half)) (tooMany secondary wrapped : Bool) : Instr :=
  .enumFrame (WHdr.ofRoot secondary wrapped) root table tooMany
abbrev Instr.enumDone (table : List (Long × Half)) (lout : Half) (wrapped : Bool) : Instr :=
  .enumDoneFrame (WHdr.ofRoot false wrapped) table lout wrapped
abbrev Instr.passAnswer (h : WHdr) (tag : Half) (kind : Byte) : Instr := .passAnswerFrame h tag kind 0
/-- Lean's compiler builds no constructor of so high a number; the kernel does. -/
noncomputable abbrev Instr.reservedClassFrame : Instr := .reservedFrame (WHdr.ofRoot false false)

namespace Machine

abbrev execUmpUnsupported (src : UmpSrc) (mt : BitVec 4) := execUmpUnsupportedType src 0 mt
abbrev execCardCreate := execCardCreateFor []
abbrev execStw (s : Fin 160) (m1 : Bool) (f : FmtA) := execStwEcc s m1 f .clean
abbrev execSth (s : Fin 160) (m1 : Bool) (f : FmtA) := execSthEcc s m1 f .clean
abbrev execStb (s : Fin 160) (m1 : Bool) (f : FmtA) := execStbEcc s m1 f .clean
abbrev execSrd (s : Fin 160) (m1 : Bool) (d f : BitVec 5) (w inc : Bool) := execSrdEcc s m1 d f w inc .clean
abbrev execLdl (s : Fin 160) (m1 : Bool) (l : BitVec 5) (p : BitVec 4) (size : BitVec 2) := execLdlEcc s m1 l p size .clean
abbrev execStl (s : Fin 160) (m1 : Bool) (l : BitVec 5) (p : BitVec 4) (size : BitVec 2) := execStlEcc s m1 l p size .clean
abbrev execEnum (root : Long) (table : List (Long × Half)) (tooMany secondary wrapped : Bool) :=
  execEnumFrame (WHdr.ofRoot secondary wrapped) root table tooMany
abbrev execEnumDone (table : List (Long × Half)) (lout : Half) (wrapped : Bool) :=
  execEnumDoneFrame (WHdr.ofRoot false wrapped) table lout wrapped
abbrev execPassAnswer (h : WHdr) (tag : Half) (kind : Byte) := execPassAnswerFrame h tag kind 0
abbrev execReservedClassFrame := execReservedFrame (WHdr.ofRoot false false)

end Machine

end Sys2Proof
end

