-- ==== Sys2Proof/Machine/Dispatch.lean ====
section
/-! DEFINITION. One arm per command, in the order of the table. -/

namespace Sys2Proof.Machine

/-- What a command does to the state but for the queue. -/
def exec (i : Instr) (s : State) : Host.Outcome State Fault Refusal :=
  match i with
  | .matrixTransaction m host a id x e hw also parity => Sys2Proof.Machine.execMatrixTransaction m host a id x e hw also parity s
  | .registerWrite m a v hw => Sys2Proof.Machine.execRegisterWrite m a v hw s
  | .rcFieldRead m a hw => Sys2Proof.Machine.execRcFieldRead m a hw s
  | .wideLowRead m a => Sys2Proof.Machine.execWideLowRead m a s
  | .wideLowWrite m a v => Sys2Proof.Machine.execWideLowWrite m a v s
  | .wideHighWrite m a v => Sys2Proof.Machine.execWideHighWrite m a v s
  | .captureRegisterRead m r => Sys2Proof.Machine.execCaptureRegisterRead m r s
  | .referenceFrameEdge t => Sys2Proof.Machine.execReferenceFrameEdge t s
  | .holdoverEntry t => Sys2Proof.Machine.execHoldoverEntry t s
  | .holdoverFrame t => Sys2Proof.Machine.execHoldoverFrame t s
  | .holdoverTimeout t => Sys2Proof.Machine.execHoldoverTimeout t s
  | .refCfgWrite m v => Sys2Proof.Machine.execRefCfgWrite m v s
  | .tempoEdge t next => Sys2Proof.Machine.execTempoEdge t next s
  | .tempoTimeout => Sys2Proof.Machine.execTempoTimeout s
  | .compareArm m n v => Sys2Proof.Machine.execCompareArm m n v s
  | .compareFire n => Sys2Proof.Machine.execCompareFire n s
  | .compareCfgWrite m n v => Sys2Proof.Machine.execCompareCfgWrite m n v s
  | .captureEdge n => Sys2Proof.Machine.execCaptureEdge n s
  | .captureRead m n edge => Sys2Proof.Machine.execCaptureRead m n edge s
  | .timerUnderflow n => Sys2Proof.Machine.execTimerUnderflow n s
  | .timerReloadWrite m n v => Sys2Proof.Machine.execTimerReloadWrite m n v s
  | .eventEntry => Sys2Proof.Machine.execEventEntry s
  | .statusFifoRead m src => Sys2Proof.Machine.execStatusFifoRead m src s
  | .markRead m => Sys2Proof.Machine.execMarkRead m s
  | .noteOn => Sys2Proof.Machine.execNoteOn s
  | .booking => Sys2Proof.Machine.execBooking s
  | .noteOff => Sys2Proof.Machine.execNoteOff s
  | .polyPressure => Sys2Proof.Machine.execPolyPressure s
  | .control => Sys2Proof.Machine.execControl s
  | .pnControl => Sys2Proof.Machine.execPnControl s
  | .pitchBend => Sys2Proof.Machine.execPitchBend s
  | .pnBend => Sys2Proof.Machine.execPnBend s
  | .program => Sys2Proof.Machine.execProgram s
  | .param => Sys2Proof.Machine.execParam s
  | .kill => Sys2Proof.Machine.execKill s
  | .allOff => Sys2Proof.Machine.execAllOff s
  | .busParam => Sys2Proof.Machine.execBusParam s
  | .busParamDeferredWrite l bus => Sys2Proof.Machine.execBusParamDeferredWrite l bus s
  | .cvSet => Sys2Proof.Machine.execCvSet s
  | .tempo => Sys2Proof.Machine.execTempo s
  | .locate => Sys2Proof.Machine.execLocate s
  | .transport => Sys2Proof.Machine.execTransport s
  | .mark => Sys2Proof.Machine.execMark s
  | .pedal => Sys2Proof.Machine.execPedal s
  | .tune => Sys2Proof.Machine.execTune s
  | .midiNoteOff n ch key vel zero t => Sys2Proof.Machine.execMidiNoteOff n ch key vel zero t s
  | .midiNoteOn n ch key vel t => Sys2Proof.Machine.execMidiNoteOn n ch key vel t s
  | .midiPolyPressure n ch key p t => Sys2Proof.Machine.execMidiPolyPressure n ch key p t s
  | .midiControlChange n ch cc v t => Sys2Proof.Machine.execMidiControlChange n ch cc v t s
  | .midiProgramChange n ch p t => Sys2Proof.Machine.execMidiProgramChange n ch p t s
  | .midiChannelPressure n ch p t => Sys2Proof.Machine.execMidiChannelPressure n ch p t s
  | .midiPitchBend n ch lsb msb t => Sys2Proof.Machine.execMidiPitchBend n ch lsb msb t s
  | .midiSystemExclusive n bytes t => Sys2Proof.Machine.execMidiSystemExclusive n bytes t s
  | .midiSongPositionPointer n lsb msb t => Sys2Proof.Machine.execMidiSongPositionPointer n lsb msb t s
  | .midiTimingClock n t next => Sys2Proof.Machine.execMidiTimingClock n t next s
  | .midiStart n t => Sys2Proof.Machine.execMidiStart n t s
  | .midiContinue n t => Sys2Proof.Machine.execMidiContinue n t s
  | .midiStop n t => Sys2Proof.Machine.execMidiStop n t s
  | .midiActiveSensing n t => Sys2Proof.Machine.execMidiActiveSensing n t s
  | .midiIgnoredSystem n byte t => Sys2Proof.Machine.execMidiIgnoredSystem n byte t s
  | .midiParseError n e t => Sys2Proof.Machine.execMidiParseError n e t s
  | .activeSensingTimeout n t => Sys2Proof.Machine.execActiveSensingTimeout n t s
  | .umpJrClock src c => Sys2Proof.Machine.execUmpJrClock src c s
  | .umpJrTimestamp src g k0 => Sys2Proof.Machine.execUmpJrTimestamp src g k0 s
  | .umpSystem src g status d1 d2 t => Sys2Proof.Machine.execUmpSystem src g status d1 d2 t s
  | .umpMidi1ChannelVoice src g status ch d1 d2 => Sys2Proof.Machine.execUmpMidi1ChannelVoice src g status ch d1 d2 s
  | .umpDataSysex src g bytes => Sys2Proof.Machine.execUmpDataSysex src g bytes s
  | .umpUnsupportedType src g mt => Sys2Proof.Machine.execUmpUnsupportedType src g mt s
  | .umpNoteOff src g ch key vel => Sys2Proof.Machine.execUmpNoteOff src g ch key vel s
  | .umpNoteOn src g ch key vel attrType attr => Sys2Proof.Machine.execUmpNoteOn src g ch key vel attrType attr s
  | .umpPolyPressure src g ch key v => Sys2Proof.Machine.execUmpPolyPressure src g ch key v s
  | .umpPerNoteController src g ch assignable key index v => Sys2Proof.Machine.execUmpPerNoteController src g ch assignable key index v s
  | .umpRpnNrpn src g ch nrpn bank index v => Sys2Proof.Machine.execUmpRpnNrpn src g ch nrpn bank index v s
  | .umpRelativeRpnNrpn src g ch nrpn bank index v => Sys2Proof.Machine.execUmpRelativeRpnNrpn src g ch nrpn bank index v s
  | .umpPerNotePitchBend src g ch key v => Sys2Proof.Machine.execUmpPerNotePitchBend src g ch key v s
  | .umpControlChange src g ch cc v => Sys2Proof.Machine.execUmpControlChange src g ch cc v s
  | .umpProgramChange src g ch p bankValid bankMsb bankLsb => Sys2Proof.Machine.execUmpProgramChange src g ch p bankValid bankMsb bankLsb s
  | .umpChannelPressure src g ch v => Sys2Proof.Machine.execUmpChannelPressure src g ch v s
  | .umpPitchBend src g ch v => Sys2Proof.Machine.execUmpPitchBend src g ch v s
  | .umpPerNoteManagement src g ch key detach reset => Sys2Proof.Machine.execUmpPerNoteManagement src g ch key detach reset s
  | .umpStatus7 src g ch key => Sys2Proof.Machine.execUmpStatus7 src g ch key s
  | .gpioEdge pin level t => Sys2Proof.Machine.execGpioEdge pin level t s
  | .gpioDebounceExpire b t => Sys2Proof.Machine.execGpioDebounceExpire b t s
  | .mpEvent e => Sys2Proof.Machine.execMpEvent e s
  | .mpeWrite m g v => Sys2Proof.Machine.execMpeWrite m g v s
  | .cardCreateFor hk => Sys2Proof.Machine.execCardCreateFor hk s
  | .cardSelect h t parity => Sys2Proof.Machine.execCardSelect h t parity s
  | .dlrCancel m v t => Sys2Proof.Machine.execDlrCancel m v t s
  | .cancelAtPermittedPoint k0 t => Sys2Proof.Machine.execCancelAtPermittedPoint k0 t s
  | .snapshotRequest m => Sys2Proof.Machine.execSnapshotRequest m s
  | .snapshotCancel m => Sys2Proof.Machine.execSnapshotCancel m s
  | .snapshotDone => Sys2Proof.Machine.execSnapshotDone s
  | .queryCommand m v => Sys2Proof.Machine.execQueryCommand m v s
  | .templateCopyDone v => Sys2Proof.Machine.execTemplateCopyDone v s
  | .windowArrival v => Sys2Proof.Machine.execWindowArrival v s
  | .mtsBulkDump => Sys2Proof.Machine.execMtsBulkDump s
  | .mtsSingleNoteChange => Sys2Proof.Machine.execMtsSingleNoteChange s
  | .mtsBulkDumpRequest => Sys2Proof.Machine.execMtsBulkDumpRequest s
  | .nop k0 slot => Sys2Proof.Machine.execNop k0 slot s
  | .ldw k0 m1 f e => Sys2Proof.Machine.execLdw k0 m1 f e s
  | .ldh k0 m1 f e => Sys2Proof.Machine.execLdh k0 m1 f e s
  | .ldhu k0 m1 f e => Sys2Proof.Machine.execLdhu k0 m1 f e s
  | .ldb k0 m1 f e => Sys2Proof.Machine.execLdb k0 m1 f e s
  | .ldz k0 m1 f e => Sys2Proof.Machine.execLdz k0 m1 f e s
  | .stwEcc k0 m1 f e => Sys2Proof.Machine.execStwEcc k0 m1 f e s
  | .sthEcc k0 m1 f e => Sys2Proof.Machine.execSthEcc k0 m1 f e s
  | .stbEcc k0 m1 f e => Sys2Proof.Machine.execStbEcc k0 m1 f e s
  | .stz k0 m1 f => Sys2Proof.Machine.execStz k0 m1 f s
  | .srdEcc k0 m1 d f w inc e => Sys2Proof.Machine.execSrdEcc k0 m1 d f w inc e s
  | .ldlEcc k0 m1 l p size e => Sys2Proof.Machine.execLdlEcc k0 m1 l p size e s
  | .stlEcc k0 m1 l p size e => Sys2Proof.Machine.execStlEcc k0 m1 l p size e s
  | .ldlStlComplete k0 => Sys2Proof.Machine.execLdlStlComplete k0 s
  | .snd k0 m1 v t lane inc => Sys2Proof.Machine.execSnd k0 m1 v t lane inc s
  | .padd k0 m1 k j cls imm => Sys2Proof.Machine.execPadd k0 m1 k j cls imm s
  | .pmov k0 m1 d k dir => Sys2Proof.Machine.execPmov k0 m1 d k dir s
  | .pli k0 m1 k cls imm => Sys2Proof.Machine.execPli k0 m1 k cls imm s
  | .cmac k0 pair acc neg conj zx zy => Sys2Proof.Machine.execCmac k0 pair acc neg conj zx zy s
  | .rmac k0 a acc neg x y => Sys2Proof.Machine.execRmac k0 a acc neg x y s
  | .rmac2 k0 a b negA negB acc x y u v => Sys2Proof.Machine.execRmac2 k0 a b negA negB acc x y u v s
  | .ext k0 d a sh z => Sys2Proof.Machine.execExt k0 d a sh z s
  | .accset k0 a x => Sys2Proof.Machine.execAccset k0 a x s
  | .add k0 d a b => Sys2Proof.Machine.execAdd k0 d a b s
  | .sub k0 d a b => Sys2Proof.Machine.execSub k0 d a b s
  | .adds k0 d a b => Sys2Proof.Machine.execAdds k0 d a b s
  | .subs k0 d a b => Sys2Proof.Machine.execSubs k0 d a b s
  | .and k0 d a b => Sys2Proof.Machine.execAnd k0 d a b s
  | .or k0 d a b => Sys2Proof.Machine.execOr k0 d a b s
  | .xor k0 d a b => Sys2Proof.Machine.execXor k0 d a b s
  | .shl k0 d a b => Sys2Proof.Machine.execShl k0 d a b s
  | .shr k0 d a b => Sys2Proof.Machine.execShr k0 d a b s
  | .asr k0 d a b => Sys2Proof.Machine.execAsr k0 d a b s
  | .min k0 d a b => Sys2Proof.Machine.execMin k0 d a b s
  | .max k0 d a b => Sys2Proof.Machine.execMax k0 d a b s
  | .abs k0 d a b => Sys2Proof.Machine.execAbs k0 d a b s
  | .mul16 k0 d a b => Sys2Proof.Machine.execMul16 k0 d a b s
  | .cmp k0 a b => Sys2Proof.Machine.execCmp k0 a b s
  | .mov k0 d a => Sys2Proof.Machine.execMov k0 d a s
  | .addi k0 d a imm => Sys2Proof.Machine.execAddi k0 d a imm s
  | .andi k0 d a imm => Sys2Proof.Machine.execAndi k0 d a imm s
  | .ori k0 d a imm => Sys2Proof.Machine.execOri k0 d a imm s
  | .xori k0 d a imm => Sys2Proof.Machine.execXori k0 d a imm s
  | .shi k0 d a kind amount => Sys2Proof.Machine.execShi k0 d a kind amount s
  | .cmpi k0 a imm => Sys2Proof.Machine.execCmpi k0 a imm s
  | .ldi k0 d imm => Sys2Proof.Machine.execLdi k0 d imm s
  | .ldhi k0 d imm => Sys2Proof.Machine.execLdhi k0 d imm s
  | .sel k0 d a b cond => Sys2Proof.Machine.execSel k0 d a b cond s
  | .exp2 k0 d x => Sys2Proof.Machine.execExp2 k0 d x s
  | .sin k0 d x => Sys2Proof.Machine.execSin k0 d x s
  | .tanh k0 d x => Sys2Proof.Machine.execTanh k0 d x s
  | .sclip k0 d x => Sys2Proof.Machine.execSclip k0 d x s
  | .blep k0 d x => Sys2Proof.Machine.execBlep k0 d x s
  | .blamp k0 d x => Sys2Proof.Machine.execBlamp k0 d x s
  | .win k0 d x => Sys2Proof.Machine.execWin k0 d x s
  | .shpReserved k0 d x => Sys2Proof.Machine.execShpReserved k0 d x s
  | .movx k0 dst src dcls scls => Sys2Proof.Machine.execMovx k0 dst src dcls scls s
  | .setbl k0 k len imm => Sys2Proof.Machine.execSetbl k0 k len imm s
  | .br k0 cond target => Sys2Proof.Machine.execBr k0 cond target s
  | .call k0 d target => Sys2Proof.Machine.execCall k0 d target s
  | .brd k0 a => Sys2Proof.Machine.execBrd k0 a s
  | .rep k0 n => Sys2Proof.Machine.execRep k0 n s
  | .repd k0 a => Sys2Proof.Machine.execRepd k0 a s
  | .loop k0 n off => Sys2Proof.Machine.execLoop k0 n off s
  | .loopd k0 a off => Sys2Proof.Machine.execLoopd k0 a off s
  | .waitl k0 n => Sys2Proof.Machine.execWaitl k0 n s
  | .done k0 e => Sys2Proof.Machine.execDone k0 e s
  | .draw k0 => Sys2Proof.Machine.execDraw k0 s
  | .rte k0 => Sys2Proof.Machine.execRte k0 s
  | .illegalBundle k0 => Sys2Proof.Machine.execIllegalBundle k0 s
  | .registerFileParityError k0 => Sys2Proof.Machine.execRegisterFileParityError k0 s
  | .doneAccept k0 t pass => Sys2Proof.Machine.execDoneAccept k0 t pass s
  | .sendDrainEnd k0 bank => Sys2Proof.Machine.execSendDrainEnd k0 bank s
  | .fenceExpire k0 t => Sys2Proof.Machine.execFenceExpire k0 t s
  | .fencedCompletion k0 t => Sys2Proof.Machine.execFencedCompletion k0 t s
  | .faultTaken k0 t fetch => Sys2Proof.Machine.execFaultTaken k0 t fetch s
  | .handlerOverrun k0 => Sys2Proof.Machine.execHandlerOverrun k0 s
  | .tapRequest m v => Sys2Proof.Machine.execTapRequest m v s
  | .tapTaken k0 => Sys2Proof.Machine.execTapTaken k0 s
  | .liveWrite m v => Sys2Proof.Machine.execLiveWrite m v s
  | .loomFadeDone l => Sys2Proof.Machine.execLoomFadeDone l s
  | .laneSetRequest m input l v => Sys2Proof.Machine.execLaneSetRequest m input l v s
  | .crossfadeDone input l => Sys2Proof.Machine.execCrossfadeDone input l s
  | .cromDataRead m => Sys2Proof.Machine.execCromDataRead m s
  | .sapFrameStart n t bits di under full => Sys2Proof.Machine.execSapFrameStart n t bits di under full s
  | .sapClockLost n => Sys2Proof.Machine.execSapClockLost n s
  | .restart m n en => Sys2Proof.Machine.execRestart m n en s
  | .sapEnableWrite m n en => Sys2Proof.Machine.execSapEnableWrite m n en s
  | .sapCfgWrite m n v => Sys2Proof.Machine.execSapCfgWrite m n v s
  | .cvPeriodBoundary n => Sys2Proof.Machine.execCvPeriodBoundary n s
  | .slewUpdate n => Sys2Proof.Machine.execSlewUpdate n s
  | .cvClrNAssert => Sys2Proof.Machine.execCvClrNAssert s
  | .cvClrNRelease => Sys2Proof.Machine.execCvClrNRelease s
  | .cvoValWrite m n v => Sys2Proof.Machine.execCvoValWrite m n v s
  | .bankHandover m n v idle => Sys2Proof.Machine.execBankHandover m n v idle s
  | .handoverComplete n => Sys2Proof.Machine.execHandoverComplete n s
  | .scrubWord a e => Sys2Proof.Machine.execScrubWord a e s
  | .scrubPassLate => Sys2Proof.Machine.execScrubPassLate s
  | .remapWrite m v => Sys2Proof.Machine.execRemapWrite m v s
  | .dmaStart m c v => Sys2Proof.Machine.execDmaStart m c v s
  | .dmaAbort m c v => Sys2Proof.Machine.execDmaAbort m c v s
  | .dmaCompletion c n e => Sys2Proof.Machine.execDmaCompletion c n e s
  | .drainDone m => Sys2Proof.Machine.execDrainDone m s
  | .portUp p swap inv => Sys2Proof.Machine.execPortUp p swap inv s
  | .portDown p => Sys2Proof.Machine.execPortDown p s
  | .faultMarker p => Sys2Proof.Machine.execFaultMarker p s
  | .reenum m => Sys2Proof.Machine.execReenum m s
  | .enumFrame h root table tooMany => Sys2Proof.Machine.execEnumFrame h root table tooMany s
  | .enumDoneFrame h table lout wrapped => Sys2Proof.Machine.execEnumDoneFrame h table lout wrapped s
  | .enumTimeout => Sys2Proof.Machine.execEnumTimeout s
  | .probeMarker n => Sys2Proof.Machine.execProbeMarker n s
  | .echoMarker p trip => Sys2Proof.Machine.execEchoMarker p trip s
  | .timeMarker v t => Sys2Proof.Machine.execTimeMarker v t s
  | .beatMarker v t next => Sys2Proof.Machine.execBeatMarker v t next s
  | .reservedMarker kind => Sys2Proof.Machine.execReservedMarker kind s
  | .audioLapStart => Sys2Proof.Machine.execAudioLapStart s
  | .audioFrame h lap2 pick seg ws parity => Sys2Proof.Machine.execAudioFrame h lap2 pick seg ws parity s
  | .eventFrame h events => Sys2Proof.Machine.execEventFrame h events s
  | .passFrame h p => Sys2Proof.Machine.execPassFrame h p s
  | .passAnswerFrame h tag kind layers => Sys2Proof.Machine.execPassAnswerFrame h tag kind layers s
  | .tunnelStart m v => Sys2Proof.Machine.execTunnelStart m v s
  | .tunnelAbort m v => Sys2Proof.Machine.execTunnelAbort m v s
  | .tunnelRequestFrame h tag write o data => Sys2Proof.Machine.execTunnelRequestFrame h tag write o data s
  | .tunnelResponse h tag err data => Sys2Proof.Machine.execTunnelResponse h tag err data s
  | .tunnelTimeout => Sys2Proof.Machine.execTunnelTimeout s
  | .unwrap m => Sys2Proof.Machine.execUnwrap m s
  | .autoUnwrap => Sys2Proof.Machine.execAutoUnwrap s
  | .unwrapCommand h pick => Sys2Proof.Machine.execUnwrapCommand h pick s
  | .bootFrame h block count bytes last => Sys2Proof.Machine.execBootFrame h block count bytes last s
  | .bootResendRequest h blocks => Sys2Proof.Machine.execBootResendRequest h blocks s
  | .ctrl k1 v => Sys2Proof.Machine.execCtrl k1 v s
  | .dv32TimedRegisterWrite k1 a v => Sys2Proof.Machine.execDv32TimedRegisterWrite k1 a v s
  | .gctrl k1 v => Sys2Proof.Machine.execGctrl k1 v s
  | .endf k1 k v => Sys2Proof.Machine.execEndf k1 k v s
  | .page k1 v => Sys2Proof.Machine.execPage k1 v s
  | .legacyIgnoredWrite k1 a v => Sys2Proof.Machine.execLegacyIgnoredWrite k1 a v s
  | .pos0 k1 => Sys2Proof.Machine.execPos0 k1 s
  | .legTblDataRead m => Sys2Proof.Machine.execLegTblDataRead m s
  | .powerOn flash size sfdp vin iin => Sys2Proof.Machine.execPowerOn flash size sfdp vin iin s
  | .rstN => Sys2Proof.Machine.execRstN s
  | .computeResetRelease r => Sys2Proof.Machine.execComputeResetRelease r s
  | .bootLenWrite m v => Sys2Proof.Machine.execBootLenWrite m v s
  | .softwareChipReset m v => Sys2Proof.Machine.execSoftwareChipReset m v s
  | .mpReset m v n => Sys2Proof.Machine.execMpReset m v n s
  | .pcieReset n => Sys2Proof.Machine.execPcieReset n s
  | .watchdogExpire n => Sys2Proof.Machine.execWatchdogExpire n s
  | .kick m v => Sys2Proof.Machine.execKick m v s
  | .cfgLock m v => Sys2Proof.Machine.execCfgLock m v s
  | .write a words part => Sys2Proof.Machine.execWrite a words part s
  | .read a n late e => Sys2Proof.Machine.execRead a n late e s
  | .status => Sys2Proof.Machine.execStatus s
  | .errClr => Sys2Proof.Machine.execErrClr s
  | .eventPush events part => Sys2Proof.Machine.execEventPush events part s
  | .spiBadCommand => Sys2Proof.Machine.execSpiBadCommand s
  | .bar0Tlp o x => Sys2Proof.Machine.execBar0Tlp o x s
  | .doorbellWrite o dwords => Sys2Proof.Machine.execDoorbellWrite o dwords s
  | .doorbellClear m v => Sys2Proof.Machine.execDoorbellClear m v s
  | .bar2Tlp a x e => Sys2Proof.Machine.execBar2Tlp a x e s
  | .msixUnmask v => Sys2Proof.Machine.execMsixUnmask v s
  | .commandClaim => Sys2Proof.Machine.execCommandClaim s
  | .mailboxTimeout => Sys2Proof.Machine.execMailboxTimeout s
  | .mailboxCancel work => Sys2Proof.Machine.execMailboxCancel work s
  | .ping => Sys2Proof.Machine.execPing s
  | .selftestReport => Sys2Proof.Machine.execSelftestReport s
  | .weftStatus => Sys2Proof.Machine.execWeftStatus s
  | .sampleLoad => Sys2Proof.Machine.execSampleLoad s
  | .voiceQuery => Sys2Proof.Machine.execVoiceQuery s
  | .partQuery => Sys2Proof.Machine.execPartQuery s
  | .harnessQuery => Sys2Proof.Machine.execHarnessQuery s
  | .statsSnapshot => Sys2Proof.Machine.execStatsSnapshot s
  | .patchApply => Sys2Proof.Machine.execPatchApply s
  | .flashRead => Sys2Proof.Machine.execFlashRead s
  | .flashProgram fail => Sys2Proof.Machine.execFlashProgram fail s
  | .unlockChallenge => Sys2Proof.Machine.execUnlockChallenge s
  | .unlockResponse => Sys2Proof.Machine.execUnlockResponse s
  | .reset => Sys2Proof.Machine.execReset s
  | .mailboxResetExpire => Sys2Proof.Machine.execMailboxResetExpire s
  | .badOpcode => Sys2Proof.Machine.execBadOpcode s
  | .uvloFall => Sys2Proof.Machine.execUvloFall s
  | .overVoltage => Sys2Proof.Machine.execOverVoltage s
  | .railStartTimeout => Sys2Proof.Machine.execRailStartTimeout s
  | .switchingLock => Sys2Proof.Machine.execSwitchingLock s
  | .currentLimit => Sys2Proof.Machine.execCurrentLimit s
  | .phaseFailure p => Sys2Proof.Machine.execPhaseFailure p s
  | .brownOut t => Sys2Proof.Machine.execBrownOut t s
  | .brownOutRecovery t => Sys2Proof.Machine.execBrownOutRecovery t s
  | .brownOutShutdown => Sys2Proof.Machine.execBrownOutShutdown s
  | .brownOutRepower => Sys2Proof.Machine.execBrownOutRepower s
  | .thermalSample s0 s1 s2 s3 s4 s5 vin iin vcore => Sys2Proof.Machine.execThermalSample s0 s1 s2 s3 s4 s5 vin iin vcore s
  | .t3Resume => Sys2Proof.Machine.execT3Resume s
  | .safeStateAutoReset => Sys2Proof.Machine.execSafeStateAutoReset s
  | .unquarantine m v => Sys2Proof.Machine.execUnquarantine m v s
  | .challenge m v => Sys2Proof.Machine.execChallenge m v s
  | .submit m v => Sys2Proof.Machine.execSubmit m v s
  | .nonceExpire => Sys2Proof.Machine.execNonceExpire s
  | .lockoutEnd => Sys2Proof.Machine.execLockoutEnd s
  | .trngHealthFail => Sys2Proof.Machine.execTrngHealthFail s
  | .jtagInstructionLoad code => Sys2Proof.Machine.execJtagInstructionLoad code s
  | .trstN => Sys2Proof.Machine.execTrstN s
  | .dramAlert => Sys2Proof.Machine.execDramAlert s
  | .overVoltageRelease => Sys2Proof.Machine.execOverVoltageRelease s
  | .vinGood t => Sys2Proof.Machine.execVinGood t s
  | .railRetry => Sys2Proof.Machine.execRailRetry s
  | .trngRecovery => Sys2Proof.Machine.execTrngRecovery s
  | .pcieLinkChange up gen width l1 bme => Sys2Proof.Machine.execPcieLinkChange up gen width l1 bme s
  | .reservedFrame h => Sys2Proof.Machine.execReservedFrame h s

end Sys2Proof.Machine
end

