-- ==== Sys2Proof/WellFormed.lean ====
section
/-! DEFINITION. The well-formed commands: operands that the row's own words allow. A command that is not well-formed names no event of
the spec. -/

namespace Sys2Proof

/-- Whether an address is a multiple of `n`. -/
def aligned (a : BitVec 40) (n : Nat) : Bool := a.toNat % n == 0

/-- A transaction of 1 to 256 bytes (R329: 1 to 16 beats of 128 bits). -/
def Xact.wf : Xact → Bool
  | .read n => decide (1 ≤ n ∧ n ≤ 256)
  | .write d => decide (1 ≤ d.length ∧ d.length ≤ 256)

/-- A TLP of at least one DWORD. -/
def Tlp.wf : Tlp → Bool
  | .read e => decide (1 ≤ e.length)
  | .write d => decide (1 ≤ d.length)

/-- A whole SysEx message (R68): 0xF0, data bytes, 0xF7. -/
def wholeSyx (l : List Byte) : Bool :=
  l.head? == some 0xF0 && l.getLast? == some 0xF7 && (l.drop 1).dropLast.all (fun x => decide (x.toNat < 0x80))

/-- The DV32 addresses whose writes are timed, CTRL and GCTRL apart (R363). -/
def timedLegacy (a : Nat) : Bool := decide (1 ≤ a ∧ a ≤ 0x15) || a == 0x21 || a == 0x22
/-- The DV32 addresses that are read-only or reserved (R363). -/
def ignoredLegacy (a : Nat) : Bool := decide (0x16 ≤ a ∧ a ≤ 0x1F) || a == 0x23 || decide (0x28 ≤ a ∧ a ≤ 0x3E)

/-- Whether a command is well-formed. -/
def Instr.wf (i : Instr) : Bool :=
  match i with
  | .matrixTransaction _ _ _ _ x _ _ also _ => x.wf && also.all (fun o => decide (o.2.2.length ≤ 256))
  | .registerWrite _ a _ _ => aligned a 4
  | .rcFieldRead _ a _ => aligned a 4
  | .wideLowRead _ a => aligned a 8
  | .wideLowWrite _ a _ => aligned a 8
  | .wideHighWrite _ a _ => a.toNat % 8 == 4
  | .captureRegisterRead _ _ => true
  | .referenceFrameEdge _ => true
  | .holdoverEntry _ => true
  | .holdoverFrame _ => true
  | .holdoverTimeout _ => true
  | .refCfgWrite _ _ => true
  | .tempoEdge _ _ => true
  | .tempoTimeout => true
  | .compareArm _ _ _ => true
  | .compareFire _ => true
  | .compareCfgWrite _ _ _ => true
  | .captureEdge _ => true
  | .captureRead _ _ _ => true
  | .timerUnderflow _ => true
  | .timerReloadWrite _ _ _ => true
  | .eventEntry => true
  | .statusFifoRead _ _ => true
  | .markRead _ => true
  | .noteOn => true
  | .booking => true
  | .noteOff => true
  | .polyPressure => true
  | .control => true
  | .pnControl => true
  | .pitchBend => true
  | .pnBend => true
  | .program => true
  | .param => true
  | .kill => true
  | .allOff => true
  | .busParam => true
  | .busParamDeferredWrite _ _ => true
  | .cvSet => true
  | .tempo => true
  | .locate => true
  | .transport => true
  | .mark => true
  | .pedal => true
  | .tune => true
  | .midiNoteOff _ _ _ _ _ _ => true
  | .midiNoteOn _ _ _ vel _ => vel != 0
  | .midiPolyPressure _ _ _ _ _ => true
  | .midiControlChange _ _ _ _ _ => true
  | .midiProgramChange _ _ _ _ => true
  | .midiChannelPressure _ _ _ _ => true
  | .midiPitchBend _ _ _ _ _ => true
  | .midiSystemExclusive _ bytes _ => wholeSyx bytes
  | .midiSongPositionPointer _ _ _ _ => true
  | .midiTimingClock _ _ _ => true
  | .midiStart _ _ => true
  | .midiContinue _ _ => true
  | .midiStop _ _ => true
  | .midiActiveSensing _ _ => true
  | .midiIgnoredSystem _ byte _ => [0xF1, 0xF3, 0xF6, 0xFF].contains byte.toNat
  | .midiParseError _ _ _ => true
  | .activeSensingTimeout _ _ => true
  | .umpJrClock _ _ => true
  | .umpJrTimestamp _ _ _ => true
  | .umpSystem _ _ st _ _ _ => decide (0xF1 ≤ st.toNat)
  | .umpMidi1ChannelVoice _ _ st _ _ _ => decide (8 ≤ st.toNat ∧ st.toNat ≤ 14)
  | .umpDataSysex _ _ bytes => bytes.all (fun x => decide (x.toNat < 0x80))
  | .umpUnsupportedType _ _ mt => decide (4 < mt.toNat)
  | .umpNoteOff _ _ _ _ _ => true
  | .umpNoteOn _ _ _ _ _ _ _ => true
  | .umpPolyPressure _ _ _ _ _ => true
  | .umpPerNoteController _ _ _ _ _ _ _ => true
  | .umpRpnNrpn _ _ _ _ _ _ _ => true
  | .umpRelativeRpnNrpn _ _ _ _ _ _ _ => true
  | .umpPerNotePitchBend _ _ _ _ _ => true
  | .umpControlChange _ _ _ _ _ => true
  | .umpProgramChange _ _ _ _ _ _ _ => true
  | .umpChannelPressure _ _ _ _ => true
  | .umpPitchBend _ _ _ _ => true
  | .umpPerNoteManagement _ _ _ _ _ _ => true
  | .umpStatus7 _ _ _ _ => true
  | .gpioEdge _ _ _ => true
  | .gpioDebounceExpire _ _ => true
  | .mpEvent _ => true
  | .mpeWrite _ _ _ => true
  | .cardCreateFor hk => hk.all fun q => decide (q.cost.toNat ≤ 4096)
  | .cardSelect _ _ _ => true
  | .dlrCancel _ _ _ => true
  | .cancelAtPermittedPoint _ _ => true
  | .snapshotRequest _ => true
  | .snapshotCancel _ => true
  | .snapshotDone => true
  | .queryCommand _ _ => true
  | .templateCopyDone _ => true
  | .windowArrival _ => true
  | .mtsBulkDump => true
  | .mtsSingleNoteChange => true
  | .mtsBulkDumpRequest => true
  | .nop _ _ => true
  | .ldw _ _ f e => (Machine.MOp.load .word f e).ok
  | .ldh _ _ f e => (Machine.MOp.load .half f e).ok
  | .ldhu _ _ f e => (Machine.MOp.load .halfU f e).ok
  | .ldb _ _ f e => (Machine.MOp.load .byte f e).ok
  | .ldz _ _ f e => (Machine.MOp.load .pair f e).ok
  | .stwEcc _ _ f e => (Machine.MOp.store .word f e).ok
  | .sthEcc _ _ f e => (Machine.MOp.store .half f e).ok
  | .stbEcc _ _ f e => (Machine.MOp.store .byte f e).ok
  | .stz _ _ f => (Machine.MOp.store .pair f .clean).ok
  | .srdEcc _ _ _ _ _ _ _ => true
  | .ldlEcc _ _ l p size e => (Machine.MOp.ldl l p size e).ok
  | .stlEcc _ _ l p size e => (Machine.MOp.stl l p size e).ok
  | .ldlStlComplete _ => true
  | .snd _ _ _ _ _ _ => true
  | .padd _ _ _ _ _ _ => true
  | .pmov _ _ _ _ _ => true
  | .pli _ _ _ _ _ => true
  | .cmac _ _ _ _ _ _ _ => true
  | .rmac _ _ _ _ _ _ => true
  | .rmac2 _ a b negA negB acc x y u v => (Machine.XOp.rmac2 a b negA negB acc x y u v).ok
  | .ext _ d a sh z => (Machine.XOp.ext d a sh z).ok
  | .accset _ _ _ => true
  | .add _ _ _ _ => true
  | .sub _ _ _ _ => true
  | .adds _ _ _ _ => true
  | .subs _ _ _ _ => true
  | .and _ _ _ _ => true
  | .or _ _ _ _ => true
  | .xor _ _ _ _ => true
  | .shl _ _ _ _ => true
  | .shr _ _ _ _ => true
  | .asr _ _ _ _ => true
  | .min _ _ _ _ => true
  | .max _ _ _ _ => true
  | .abs _ _ _ _ => true
  | .mul16 _ _ _ _ => true
  | .cmp _ _ _ => true
  | .mov _ _ _ => true
  | .addi _ _ _ _ => true
  | .andi _ _ _ _ => true
  | .ori _ _ _ _ => true
  | .xori _ _ _ _ => true
  | .shi _ d a kind amount => (Machine.COp.shi d a kind amount).ok
  | .cmpi _ _ _ => true
  | .ldi _ _ _ => true
  | .ldhi _ _ _ => true
  | .sel _ _ _ _ _ => true
  | .exp2 _ _ _ => true
  | .sin _ _ _ => true
  | .tanh _ _ _ => true
  | .sclip _ _ _ => true
  | .blep _ _ _ => true
  | .blamp _ _ _ => true
  | .win _ _ _ => true
  | .shpReserved _ _ _ => true
  | .movx _ dst src dcls scls => (Machine.COp.movx dst src dcls scls).ok
  | .setbl _ _ _ _ => true
  | .br _ cond target => (Machine.COp.br cond target).ok
  | .call _ d target => (Machine.COp.call d target).ok
  | .brd _ _ => true
  | .rep _ n => (Machine.COp.rep n).ok
  | .repd _ _ => true
  | .loop _ _ _ => true
  | .loopd _ _ _ => true
  | .waitl _ _ => true
  | .done _ _ => true
  | .draw _ => true
  | .rte _ => true
  | .illegalBundle _ => true
  | .registerFileParityError _ => true
  | .doneAccept _ _ _ => true
  | .sendDrainEnd _ _ => true
  | .fenceExpire _ _ => true
  | .fencedCompletion _ _ => true
  | .faultTaken _ _ _ => true
  | .handlerOverrun _ => true
  | .tapRequest _ _ => true
  | .tapTaken _ => true
  | .liveWrite _ _ => true
  | .loomFadeDone _ => true
  | .laneSetRequest _ input l _ => !input || decide (l.val < 128)
  | .crossfadeDone input l => !input || decide (l.val < 128)
  | .cromDataRead _ => true
  | .sapFrameStart _ _ _ di under full => decide (di.length ≤ 16) && decide (under.length ≤ 16) && decide (full.length ≤ 16)
  | .sapClockLost _ => true
  | .restart _ _ _ => true
  | .sapEnableWrite _ _ _ => true
  | .sapCfgWrite _ _ _ => true
  | .cvPeriodBoundary _ => true
  | .slewUpdate _ => true
  | .cvClrNAssert => true
  | .cvClrNRelease => true
  | .cvoValWrite _ _ _ => true
  | .bankHandover _ _ _ _ => true
  | .handoverComplete _ => true
  | .scrubWord _ _ => true
  | .scrubPassLate => true
  | .remapWrite _ _ => true
  | .dmaStart _ _ v => v.getLsbD 0
  | .dmaAbort _ _ v => v.getLsbD 1
  | .dmaCompletion _ _ _ => true
  | .drainDone _ => true
  | .portUp _ _ _ => true
  | .portDown _ => true
  | .faultMarker _ => true
  | .reenum _ => true
  | .enumFrame _ _ table _ => decide (table.length ≤ 1024)
  | .enumDoneFrame _ table _ _ => decide (1 ≤ table.length ∧ table.length ≤ 1024)
  | .enumTimeout => true
  | .probeMarker _ => true
  | .echoMarker _ _ => true
  | .timeMarker _ _ => true
  | .beatMarker _ _ _ => true
  | .reservedMarker kind => kind == 0 || decide (6 ≤ kind.toNat)
  | .audioLapStart => true
  | .audioFrame _ _ _ _ ws _ => decide (ws.length ≤ 1024)
  | .eventFrame _ events => decide (1 ≤ events.length ∧ events.length ≤ 16)
  | .passFrame _ _ => true
  | .passAnswerFrame _ _ _ _ => true
  | .tunnelStart _ v => v.getLsbD 11
  | .tunnelAbort _ v => v.getLsbD 12
  | .tunnelRequestFrame _ _ _ o _ => o.toNat % 4 == 0
  | .tunnelResponse _ _ _ _ => true
  | .tunnelTimeout => true
  | .unwrap _ => true
  | .autoUnwrap => true
  | .unwrapCommand _ _ => true
  | .bootFrame _ _ _ bytes _ => decide (bytes.length ≤ 4096)
  | .bootResendRequest _ _ => true
  | .ctrl _ _ => true
  | .dv32TimedRegisterWrite _ a _ => timedLegacy a.toNat
  | .gctrl _ _ => true
  | .endf _ _ _ => true
  | .page _ _ => true
  | .legacyIgnoredWrite _ a _ => ignoredLegacy a.toNat
  | .pos0 _ => true
  | .legTblDataRead _ => true
  | .powerOn _ _ _ _ _ => true
  | .rstN => true
  | .computeResetRelease r => decide (r.bist.Nodup)
  | .bootLenWrite _ _ => true
  | .softwareChipReset _ v => v.getLsbD 0
  | .mpReset _ v _ => v.getLsbD 1
  | .pcieReset _ => true
  | .watchdogExpire _ => true
  | .kick _ _ => true
  | .cfgLock _ v => v.getLsbD 1
  | .write a _ _ => aligned a 4
  | .read a n _ _ => aligned a 4 && decide (0 < n)
  | .status => true
  | .errClr => true
  | .eventPush _ _ => true
  | .spiBadCommand => true
  | .bar0Tlp o x => o.toNat % 4 == 0 && x.wf
  | .doorbellWrite o dwords => o.toNat % 4 == 0 && decide (1 ≤ dwords.length ∧ o.toNat + 4 * dwords.length ≤ 4096)
  | .doorbellClear _ v => v.getLsbD 9
  | .bar2Tlp _ x _ => x.wf
  | .msixUnmask _ => true
  | .commandClaim => true
  | .mailboxTimeout => true
  | .mailboxCancel _ => true
  | .ping => true
  | .selftestReport => true
  | .weftStatus => true
  | .sampleLoad => true
  | .voiceQuery => true
  | .partQuery => true
  | .harnessQuery => true
  | .statsSnapshot => true
  | .patchApply => true
  | .flashRead => true
  | .flashProgram _ => true
  | .unlockChallenge => true
  | .unlockResponse => true
  | .reset => true
  | .mailboxResetExpire => true
  | .badOpcode => true
  | .uvloFall => true
  | .overVoltage => true
  | .railStartTimeout => true
  | .switchingLock => true
  | .currentLimit => true
  | .phaseFailure _ => true
  | .brownOut _ => true
  | .brownOutRecovery _ => true
  | .brownOutShutdown => true
  | .brownOutRepower => true
  | .thermalSample _ _ _ _ _ _ _ _ _ => true
  | .t3Resume => true
  | .safeStateAutoReset => true
  | .unquarantine _ _ => true
  | .challenge _ v => v.getLsbD 8
  | .submit _ v => v.getLsbD 9
  | .nonceExpire => true
  | .lockoutEnd => true
  | .trngHealthFail => true
  | .jtagInstructionLoad _ => true
  | .trstN => true
  | .dramAlert => true
  | .overVoltageRelease => true
  | .vinGood _ => true
  | .railRetry => true
  | .trngRecovery => true
  | .pcieLinkChange _ _ _ _ _ => true
  | .reservedFrame _ => true

end Sys2Proof
end

