-- ==== Sys2Proof/Safety.lean ====
section
/-! DEFINITION. What counts as a safe run, and the terms in which claims are made: a state that every step keeps, a state in which a
command acts, and what a command leaves alone. -/

namespace Sys2Proof.Machine

/-! ### Safe runs -/

/-- The memory is in canonical form (every address once, rising, and no byte listed that an unlisted one reads as). -/
def State.memOk (s : State) : Bool := Memory.wf s.blk.mem

/-- Every command waiting is well-formed. -/
def State.queueOk (s : State) : Bool := s.pending.all Instr.wf

/-- A run of `n` steps in which no step faults or is refused, and every state on the way keeps the memory's form. -/
def safeFor : Nat → State → Prop
  | 0, s => s.memOk = true
  | n + 1, s => s.memOk = true ∧ ∃ t, step s = .next t ∧ safeFor n t

/-! ### Terms of the claims -/

/-- The compute die runs: it is not held in reset. -/
def State.live (s : State) : Prop := s.blk.sys.held = false

/-- No reset and no push boot that a register write asked for is still to be performed. -/
def Block.quiet (b : Block) : Prop := b.sys.reqChip = false ∧ b.sys.reqMp = false ∧ b.sys.reqBoot = false

/-- What every command leaves behind it: nothing is still to be performed, CVO_STAT.safe shows whether a safe state holds the picks
(R304), and the groups of MSI-X vectors seen raised are those that are raised (R398). -/
def State.settled (s : State) : Prop :=
  s.blk.quiet ∧ s.blk.get CVO_STAT_safe = (if s.blk.tbu.holds.isEmpty then 0 else 1) ∧ s.blk.sys.msixWas = msixOrs s.blk

/-- Master `m` may make a register access to the address `a` now: it reaches the block (R328), it does not drain (R332), and debug has
its scope open. -/
def State.grants (s : State) (m a : Nat) : Prop := accessMade m a s.blk = true

/-- Memory reads as it did, at every address. -/
def sameMemory (s t : State) : Prop := ∀ a, Memory.byte t.blk.mem a = Memory.byte s.blk.mem a

/-- Every field of every register reads as it did, but for those of the listed registers. -/
def sameRegsBut (l : List Nat) (s t : State) : Prop := ∀ a, a ∉ l → t.blk.rd a = s.blk.rd a

/-- The commands that act while the compute die is held in reset: those of the power die, the TAP, the lockout and the resets. -/
def actsInReset : Instr → Bool
  | .powerOn .. | .rstN | .computeResetRelease _ | .uvloFall | .overVoltage | .overVoltageRelease | .railStartTimeout | .railRetry
  | .currentLimit | .phaseFailure _ | .brownOut _ | .vinGood _ | .brownOutRecovery _ | .brownOutShutdown | .brownOutRepower
  | .thermalSample .. | .lockoutEnd | .jtagInstructionLoad _ | .trstN => true
  | _ => false

/-- The effect of a register write by master `m`: the register's own, and the empty response. -/
def wrote (m : Nat) (f : Block → Block) (b : Block) : Block := setResp m {} (f b)

/-- The effect of a register read by master `m` that answers `x`: what reading does, and the response. -/
def answered (m : Nat) (x : Word) (f : Block → Block) (b : Block) : Block := setResp m { data := [x] } (f b)

/-- The released event in front is `x`, of opcode `op`. -/
def State.front (s : State) (op : Nat) (x : Timed) (rest : List Timed) : Prop := s.blk.efe.released = x :: rest ∧ x.ev.op = op

/-- The block without the released event in front. -/
def Block.popped (b : Block) (rest : List Timed) : Block := { b with efe := { b.efe with released := rest } }

/-- The presented event in front is `x`, of opcode `op`, and its frame has been presented. -/
def State.presents (s : State) (op : Nat) (x : Timed) (rest : List Timed) : Prop :=
  s.blk.efe.present = x :: rest ∧ x.ev.op = op ∧ x.frame.getD 0 ≤ s.blk.sample

/-- The block without the presented event in front. -/
def Block.presented (b : Block) (rest : List Timed) : Block := { b with efe := { b.efe with present := rest } }

/-- A released event changes part `p` to `x` and mirrors `ms`, and nothing else of the machine but CVO_STAT's view of it. -/
def State.partDone (s : State) (p : Nat) (x : Part) (ms : List Mirror) (t : State) : Prop :=
  t.blk.part p = x ∧ (∀ q, q ≠ p → t.blk.part q = s.blk.part q) ∧
  t.blk.alc = { s.blk.alc with parts := t.blk.alc.parts, mirror := s.blk.alc.mirror ++ ms } ∧
  t.blk.mem = s.blk.mem ∧ t.blk.dlr = s.blk.dlr ∧ sameRegsBut [CVO_STAT] s t

/-- Voice `v` with its release asked for at an offset of the pick in progress (R127). -/
def Block.releasedVoice (b : Block) (v o : Nat) : Voice :=
  ({ b.voice v with st := .released, relFrame := b.pickNo * b.pick + b.lOut + o } : Voice).ask releaseCmd o b

/-- Note `k`, which was `nt`, is in release with a release velocity: its sounding voices are released at an offset of the pick in
progress, every other voice and every other note is as before, and so are the memory and the cards. -/
def State.noteEnded (s : State) (k : Nat) (nt : Note) (vel o : Nat) (t : State) : Prop :=
  t.blk.note k = some { nt with released := true, relVel := vel, sustained := false } ∧
  (∀ j, j ≠ k → t.blk.note j = s.blk.note j) ∧
  (∀ v, t.blk.voice v =
    if v ∈ (noteVoices s.blk k).map (·.1) ∧ (s.blk.voice v).st = .sounding then s.blk.releasedVoice v o else s.blk.voice v) ∧
  t.blk.mem = s.blk.mem ∧ t.blk.dlr = s.blk.dlr ∧ sameRegsBut [CVO_STAT] s t

/-- The firmware has claimed the mailbox command `m`, runs, and has no cancel of it to heed. -/
def State.serves (s : State) (op : Nat) (m : MbCmd) : Prop :=
  s.blk.sys.mb = some m ∧ m.claimed = true ∧ m.op = op ∧ m.cancel = false ∧ s.blk.sys.mpDown = false ∧ s.blk.on SYS_STAT_recovery = false

/-- The mailbox command `m` has completed with a status and a result, in the slot that did not hold the last one (R399, R400). -/
def State.mbDone (s : State) (m : MbCmd) (status : Nat) (result : List Byte) (t : State) : Prop :=
  let slot := 1 - s.blk.get XCH_MB_STAT_slot
  let a := mbResultBase slot
  t.blk.sys.mb = none ∧ t.blk.get XCH_MB_STAT_busy = 0 ∧ t.blk.get XCH_MB_STAT_ready = 1 ∧ t.blk.get XCH_MB_STAT_slot = slot ∧
  t.blk.get XCH_MB_STAT_seq = m.seq % 65536 ∧ t.blk.get XCH_IRQ_STAT_ready = 1 ∧ Memory.num t.blk.mem a 2 = m.seq % 65536 ∧
  Memory.num t.blk.mem (a + 2) 2 = m.op % 65536 ∧ Memory.num t.blk.mem (a + 4) 2 = status ∧
  Memory.num t.blk.mem (a + 8) 4 = result.length % 2 ^ 32 ∧
  (∀ i, i < result.length → Memory.byte t.blk.mem (a + 64 + i) = result.getD i 0) ∧
  (∀ x, x < a ∨ a + 64 + result.length ≤ x → x < 0x100000000 → Memory.byte t.blk.mem x = Memory.byte s.blk.mem x)

/-- Shuttle `h` issues bundles: it runs a card or a handler, and DONE has not issued. -/
def State.issues (s : State) (h : Nat) : Prop := issuing s.blk h = true

/-- Shuttle `h` as its next bundle reads it (R219). -/
def State.atIssue (s : State) (h : Nat) : Shuttle := (s.blk.shuttle h).startBundle (s.blk.shuttle h).bundle

/-- Shuttle `h` runs a card, issues, and no event is due at the boundary before its next bundle (R225–R228). -/
def State.bundles (s : State) (h : Nat) : Prop :=
  s.live ∧ s.blk.quiet ∧ s.issues h ∧ shtState s.blk h = 1 ∧ eventDue h s.blk = false

/-- A bundle of shuttle `h` has issued: it leaves the shuttle as `x`, ready for the next one, and the memory as `mem`; SHT_SPC shows the
bundle's index, and the rest of the machine is as before. -/
def State.bundleDone (s : State) (h : Nat) (x : Shuttle) (mem : List Host.Cell) (t : State) : Prop :=
  t.blk.shuttle h = { x with bundle := x.bundle + 1, m0 := .nop, m1 := .nop, x := .nop } ∧
  (∀ k, k ≠ h → t.blk.shuttle k = s.blk.shuttle k) ∧ t.blk.mem = mem ∧ sameRegsBut [CVO_STAT, SHT_SPC h] s t ∧
  t.blk.get (SHT_SPC_bundle h) = (s.atIssue h).pc % 8192 ∧ t.blk.alc = s.blk.alc ∧ t.blk.dlr = s.blk.dlr ∧ t.blk.efe = s.blk.efe ∧
  t.blk.tbu = s.blk.tbu ∧ t.pending = s.pending

/-- A render card of voice `v` is ready but for its windows (R159). -/
def windowsWait (b : Block) (v : Nat) : Bool := b.dlr.cards.any fun c => c.flow == v && c.render && c.st == .ready && !windowsIn b c

/-- An instruction of slot M as its word spells it: what the ECC check will find is no part of an encoding. -/
def unmarked : MOp → MOp
  | .load k f _ => .load k f .clean
  | .store k f _ => .store k f .clean
  | .srd d f w inc _ => .srd d f w inc .clean
  | .ldl l p size _ => .ldl l p size .clean
  | .stl l p size _ => .stl l p size .clean
  | op => op

end Sys2Proof.Machine
end

