-- ==== Sys2Proof/Certificates/Slice0/Obligations.lean ====
section
/-! DEFINITION. The statements for the provers: what the commands do, from the numbered rules of spec/. `s.on f` is the state after a
command whose effect on the block is `f`, with what follows every command (`finish`); FollowsACommand says what that is. -/

section
open Sys2Proof Sys2Proof.Machine

/-! ### The step -/

/-- A step takes the command at the front of the queue and runs it on the state with the rest. -/
def Obligations.StepTakesFront : Prop :=
  ∀ (c : Instr) (rest : List Instr) (s : State), step { s with pending := c :: rest } = exec c { s with pending := rest }

/-- On an empty queue one cycle of the clock passes while the compute die runs, and nothing happens in reset: the model's choice
(notes/assumptions/13.md). -/
def Obligations.IdleIsOneCycle : Prop :=
  ∀ s : State, s.pending = [] →
    (s.live → step s = .next (s.on fun b => advanceTo (b.now + 1) b)) ∧ (¬ s.live → step s = .next s)

/-- Every command answers a next state, and leaves the commands that wait as they are. -/
def Obligations.EveryCommandAnswers : Prop :=
  ∀ (c : Instr) (s : State), ∃ t, exec c s = .next t ∧ t.pending = s.pending

/-- While the compute die is held in reset, every command but those of the power die, the TAP, the lockout and the resets leaves the
state as it is: the model's choice (notes/assumptions/15.md). -/
def Obligations.HeldTakesNothing : Prop :=
  ∀ (c : Instr) (s : State), ¬ s.live → actsInReset c = false → exec c s = .next s

/-- Every step keeps a settled state settled: no reset or push boot that was asked for is left undone, CVO_STAT.safe shows whether a safe
state holds the picks (R304), and the MSI-X groups seen raised are those that are raised (R398). -/
def Obligations.SettledKept : Prop :=
  ∀ s t : State, s.settled → step s = .next t → t.settled

/-- After reset the state is settled, and its memory is in canonical form. -/
def Obligations.SettledAtReset : Prop := State.reset.settled ∧ State.reset.memOk = true ∧ State.reset.queueOk = true

/-- What follows an effect that asks for no reset and no push boot: the queue, the memory, every register but CVO_STAT, and every part of
the state but the MSI-X bookkeeping are as the effect left them. -/
def Obligations.FollowsACommand : Prop :=
  ∀ (s : State) (f : Block → Block), (f s.blk).quiet →
    (s.on f).pending = s.pending ∧ (s.on f).blk.mem = (f s.blk).mem ∧ (∀ a, a ≠ CVO_STAT → (s.on f).blk.rd a = (f s.blk).rd a) ∧
    (s.on f).blk.get CVO_STAT_applied = (f s.blk).get CVO_STAT_applied ∧
    (s.on f).blk.get CVO_STAT_clr_pin = (f s.blk).get CVO_STAT_clr_pin ∧
    (s.on f).blk = { f s.blk with regs := (s.on f).blk.regs, sys := (s.on f).blk.sys } ∧
    (s.on f).blk.sys = { (f s.blk).sys with
      msixPend := (s.on f).blk.sys.msixPend, msixWas := (s.on f).blk.sys.msixWas, msixTx := (s.on f).blk.sys.msixTx }

/-! ### Memory -/

/-- Bytes written from an address read back from there, and every other address reads as before; a number of `n` bytes written
little-endian reads back, modulo its width (R8). -/
def Obligations.MemoryReadsBack : Prop :=
  (∀ (m : List Host.Cell) (a : Nat) (l : List Byte) (x : Nat),
    Memory.byte (Memory.setBytes m a l) x = if a ≤ x ∧ x < a + l.length then l.getD (x - a) 0 else Memory.byte m x) ∧
  (∀ (m : List Host.Cell) (a n v : Nat), Memory.num (Memory.setNum m a n v) a n = v % 256 ^ n)

/-! ### Encodings of the slots (chapter 09) -/

/-- Decode of encode is the instruction, for every well-formed one of slots M0 and M1, of slot X and of slot C. -/
def Obligations.SlotRoundTrip : Prop :=
  (∀ op : MOp, op.ok → decodeM (encodeM op) = some (unmarked op)) ∧ (∀ op : XOp, op.ok → decodeX (encodeX op) = some op) ∧
  (∀ op : COp, op.ok → decodeC (encodeC op) = some op)

/-- The 128 bits of a bundle of well-formed instructions decode to its four slots (R235), and no other bundle has them. -/
def Obligations.BundleRoundTrip : Prop :=
  ∀ b : Bundle, b.m0.ok → b.m1.ok → b.x.ok → b.c.ok →
    decodeBundle (encodeBundle b) = some { b with m0 := unmarked b.m0, m1 := unmarked b.m1 } ∧
    ∀ w, decodeBundle w = some { b with m0 := unmarked b.m0, m1 := unmarked b.m1 } → w = encodeBundle b

/-- The words of the worked program decode to the instructions that it names (chapter 09). -/
def Obligations.WorkedWords : Prop :=
  decodeM 0x68201000#32 = some (.snd 0 16 0 true) ∧ decodeX 0x08080000#32 = some (.cmac false false false false 1 0) ∧
  decodeC 0x580F0007#32 = some (.loopd 15 7) ∧ decodeX 0x20008000#32 = some (.ext 0 0 0 true) ∧ decodeM 0#32 = some .nop ∧
  decodeX 0#32 = some .nop ∧ decodeC 0#32 = some .nop

/-! ### Register access (chapter 00) -/

/-- R3: an access of another width or alignment inside a block's 64 KiB, that its master reaches, receives an error response and has no
other effect. -/
def Obligations.BadAccessRefused : Prop :=
  ∀ (m : Master) (host : Bool) (a : BitVec 40) (id : BitVec 4) (x : Xact) (e : Ecc) (hw : Word) (s : State),
    s.live → s.grants m.val a.toNat → 0x40000000 ≤ a.toNat → a.toNat < 0x44000000 → (regBlock (regBlockBase a.toNat)).isSome →
    x.wf → a.toNat / 4096 = (a.toNat + Xact.bytes x - 1) / 4096 → (Xact.bytes x ≠ 4 ∨ a.toNat % 4 ≠ 0) →
    exec (.matrixTransaction m host a id x e hw none false) s =
      .next (s.on (setResp m.val { data := if (Xact.data x).isNone then [0] else [], err := true }))

/-- R4: an aligned word of a block at an offset that no register occupies reads zero and ignores writes, without an error response. -/
def Obligations.UnoccupiedOffset : Prop :=
  ∀ (m : Master) (a : BitVec 40) (v hw : Word) (s : State),
    s.live → s.grants m.val a.toNat → 0x40000000 ≤ a.toNat → a.toNat < 0x44000000 → a.toNat % 4 = 0 →
    (regBlock (regBlockBase a.toNat)).isSome → regAt a.toNat = none →
    exec (.rcFieldRead m a hw) s = .next (s.on (setResp m.val { data := [0] })) ∧
    exec (.registerWrite m a v hw) s = .next (s.on (setResp m.val {}))

/-- R5, R6: a register whose writes have no effect of their own (those of PWR_ILIM and PWR_GOV wait for the next boundary, R414). A written bit is plain (RW, WO, and RWL until cfg_lock is set), clears
with 1 (W1C, but a bit that hardware sets in the same cycle stays set), sets with 1 (W1S), or stays; no other register changes. A read
returns the bits that are not write-only, and clears those that are RC, but for those that hardware sets in the same cycle. -/
def Obligations.AccessCodes : Prop :=
  (∀ (m : Master) (a : BitVec 40) (v hw : Word) (h : RegHit) (s : State), s.live → s.grants m.val a.toNat → 0x40000000 ≤ a.toNat →
    a.toNat < 0x44000000 → a.toNat % 4 = 0 → regAt a.toNat = some h → ¬ h.desc.wide →
    (writeSingle m.val h.key v hw s.blk = none → writeElement h.key v h s.blk = none →
      exec (.registerWrite m a v hw) s = .next (s.on (wrote m.val fun b =>
        writeCodes h v.toNat hw.toNat (if h.key = PWR_ILIM ∨ h.key = PWR_GOV then noteGovWrite b else b)))) ∧
    (h.key ∉ [EFE_MARK, DCH_CROM_DATA, LEG_TBL_DATA, SEC_TRNG] → (∀ n : Fin 16, h.key ≠ EFE_SRC_STAT n.val) →
      let d := h.desc
      exec (.rcFieldRead m a hw) s = .next (s.on (answered m.val
        (shownValue s.blk h.key (s.blk.rd h.key) &&& BitVec.ofNat 64 (d.rw ||| d.rwl ||| d.w1c ||| d.w1s ||| d.rc ||| d.ro)).lo
        (clearRc h hw.toNat))))) ∧
  (∀ (h : RegHit) (v hw : Word) (b : Block) (i : Fin 32),
    let d := h.desc
    let plain := d.wo ||| (if b.on SYS_CTL_cfg_lock then d.rw else d.rw ||| d.rwl)
    let was := (b.num h.key).testBit i.val
    plain &&& d.w1c = 0 → plain &&& d.w1s = 0 → d.w1c &&& d.w1s = 0 →
    ((writeCodes h v.toNat hw.toNat b).num h.key).testBit i.val =
      (if plain.testBit i.val then v.toNat.testBit i.val
       else if d.w1c.testBit i.val then hw.toNat.testBit i.val || (was && !v.toNat.testBit i.val)
       else if d.w1s.testBit i.val then was || v.toNat.testBit i.val
       else was) ∧
    ((clearRc h hw.toNat b).num h.key).testBit i.val = (if d.rc.testBit i.val then hw.toNat.testBit i.val else was) ∧
    (∀ k, k ≠ h.key → (writeCodes h v.toNat hw.toNat b).rd k = b.rd k ∧ (clearRc h hw.toNat b).rd k = b.rd k))

/-- R7: the two halves of a 64-bit register. A read of the low word returns it and latches the high word of the same value; a read of
the high word returns the master's read shadow; a write of the low word stages it; a write of the high word commits both. Reads keep
every write shadow, writes every read shadow, and no master changes another's. -/
def Obligations.WideRegisters : Prop :=
  (∀ m, rdShadow State.reset.blk m = 0 ∧ wrShadow State.reset.blk m = 0) ∧
  ∀ (m : Master) (a : BitVec 40) (lo hi : RegHit) (v : Word) (s : State),
    s.live → s.grants m.val a.toNat → s.grants m.val (a.toNat + 4) → 0x40000000 ≤ a.toNat → a.toNat + 4 < 0x44000000 → a.toNat % 8 = 0 →
    (regBlock (regBlockBase a.toNat)).isSome → regAt a.toNat = some lo → regAt (a.toNat + 4) = some hi → lo.desc.wide → ¬ lo.high →
    hi.desc = lo.desc → hi.idx = lo.idx → hi.high → regBlockBase (a.toNat + 4) = regBlockBase a.toNat →
    (¬ (∃ n : Fin 8, lo.key = TBU_CAP_VAL n.val) →
      let x := shownValue s.blk lo.key (s.blk.rd lo.key)
      exec (.wideLowRead m a) s = .next (s.on (answered m.val x.lo (setRdShadow m.val x.hi)))) ∧
    exec (.rcFieldRead m (a + 4) 0) s = .next (s.on (answered m.val (rdShadow s.blk m.val) id)) ∧
    exec (.wideLowWrite m a v) s = .next (s.on (wrote m.val (setWrShadow m.val v))) ∧
    exec (.wideHighWrite m (a + 4) v) s = .next (s.on (wrote m.val (writePair lo (Long.mk v (wrShadow s.blk m.val))))) ∧
    (∀ k x, rdShadow (setRdShadow m.val x s.blk) k = (if k = m.val then x else rdShadow s.blk k) ∧
      wrShadow (setRdShadow m.val x s.blk) k = wrShadow s.blk k ∧
      wrShadow (setWrShadow m.val x s.blk) k = (if k = m.val then x else wrShadow s.blk k) ∧
      rdShadow (setWrShadow m.val x s.blk) k = rdShadow s.blk k)

/-! ### The time base unit (chapter 02) -/

/-- R30: an edge that follows the previous edge by less than half a nominal frame period is ignored and counted; nothing else changes
but the time. -/
def Obligations.GlitchIgnored : Prop :=
  ∀ (t : Long) (s : State) (last : Nat),
    let b := advanceTo t.toNat s.blk
    s.live → (b.tbu.running ∨ b.tbu.drain.isSome) → (b.tbu.running ∨ b.get TBU_REF_STAT_state ≠ 3) → b.tbu.sel.src ≠ 3 →
    b.tbu.edgeT = some last → 2 * since last t.toNat * nominalFs b < 1000000000 →
    exec (.referenceFrameEdge t) s = .next (s.on fun c => (advanceTo t.toNat c).bump TBU_REF_CNT_glitches)

/-- R35: TBU_TEMPO is clamped to 20–400 BPM, by a register write and by a TEMPO event; a TRANSPORT event sets or clears run; and with the
internal tempo run = 0 holds BEAT_POS. -/
def Obligations.TempoClamped : Prop :=
  (∀ (m : Master) (v hw : Word) (s : State), s.live → s.grants m.val TBU_TEMPO →
    exec (.registerWrite m (BitVec.ofNat 40 TBU_TEMPO) v hw) s =
      .next (s.on (wrote m.val fun b => b.setNum TBU_TEMPO (min (max v.toInt 0x140000) 0x1900000).toNat))) ∧
  (∀ (s : State) (x : Timed) (rest : List Timed), s.live → s.presents 0x0E x rest →
    exec .tempo s = .next (s.on fun b => (b.presented rest).setNum TBU_TEMPO (min (max x.ev.data.toInt 0x140000) 0x1900000).toNat)) ∧
  (∀ (s : State) (x : Timed) (rest : List Timed), s.live → s.presents 0x10 x rest →
    exec .transport s = .next (s.on fun b => (b.presented rest).put TBU_TEMPO_CFG_run (x.ev.data.toNat % 2))) ∧
  (∀ b : Block, b.get TBU_TEMPO_CFG_src = 0 → b.get TBU_TEMPO_CFG_run = 0 → beatRate b = 0)

/-- R41: at its presentation frame a LOCATE sets BEAT_POS to its target, lifts the clamp and stores the target; the loop keeps ρ_i, and
the next edge carries the beat value BEAT_POS. -/
def Obligations.LocateTakesEffect : Prop :=
  ∀ (s : State) (x : Timed) (rest : List Timed), s.live → s.presents 0x0F x rest → s.blk.quiet →
    ∃ t, exec .locate s = .next t ∧ t.blk.num TBU_BEAT = x.ev.data.toNat * 65536 ∧ t.blk.num TBU_LOC_TGT = x.ev.data.toNat * 65536 ∧
      t.blk.tbu.clamp = none ∧ t.blk.tbu.rhoI = s.blk.tbu.rhoI ∧ t.blk.tbu.rebase = true ∧ t.blk.efe.present = rest ∧
      t.blk.mem = s.blk.mem ∧ t.blk.alc = s.blk.alc ∧ t.blk.dlr = s.blk.dlr ∧ t.blk.sht = s.blk.sht

/-- R43: a write of the high word of TBU_CMPn_VAL arms compare n, but for a counter already at or beyond the value: then past is set and
the unit stays disarmed. A value that the armed unit has just reached fires first (R44). An armed compare whose counter has reached its value
sets its interrupt bit and disarms; another does nothing. -/
def Obligations.CompareUnits : Prop :=
  (∀ (m : Master) (n : Fin 16) (v : Word) (s : State), s.live → s.grants m.val (TBU_CMP_VAL n.val + 4) →
    let x := Long.mk v (wrShadow s.blk m.val)
    exec (.compareArm m n v) s = .next (s.on (wrote m.val fun b =>
      let b1 := (Machine.compareFire n.val b).wr (TBU_CMP_VAL n.val) x
      if x ≤ counterOf b1 (b1.get (TBU_CMP_CFG_cnt n.val)) then (b1.setBit TBU_CMP_STAT_past n.val).put (TBU_CMP_CFG_armed n.val) 0
      else b1.put (TBU_CMP_CFG_armed n.val) 1))) ∧
  (∀ (n : Fin 16) (s : State), s.live →
    exec (.compareFire n) s = .next (s.on fun b =>
      if b.on (TBU_CMP_CFG_armed n.val) ∧ b.rd (TBU_CMP_VAL n.val) ≤ counterOf b (b.get (TBU_CMP_CFG_cnt n.val)) then
        (b.setBit TBU_IRQ_STAT_cmp n.val).put (TBU_CMP_CFG_armed n.val) 0
      else b))

/-- R45, R46: an active edge enters TBU_CAPn_VAL when that is empty, else the pending buffer, else it replaces the pending value and is
counted. A read returns the value, latches its high word, and takes in the pending value. -/
def Obligations.CaptureUnits : Prop :=
  (∀ (n : Fin 8) (s : State), s.live → captureHasSource s.blk n.val →
    let x := counterOf s.blk (s.blk.get (TBU_CAP_CFG_cnt n.val))
    exec (.captureEdge n) s = .next (s.on fun b =>
      if ¬ b.on (TBU_CAP_STAT_full n.val) then
        ((b.wr (TBU_CAP_VAL n.val) x).put (TBU_CAP_STAT_full n.val) 1).setBit TBU_IRQ_STAT_cap n.val
      else if ¬ b.on (TBU_CAP_STAT_pend n.val) then (setCapPending n.val x b).put (TBU_CAP_STAT_pend n.val) 1
      else (setCapPending n.val x b).bump (TBU_CAP_STAT_overrun n.val))) ∧
  (∀ (m : Master) (n : Fin 8) (s : State), s.live → s.grants m.val (TBU_CAP_VAL n.val) → s.blk.on (TBU_CAP_STAT_pend n.val) →
    let x := s.blk.rd (TBU_CAP_VAL n.val)
    exec (.captureRead m n false) s = .next (s.on (answered m.val x.lo fun b =>
      (setCapPending n.val 0 ((((setRdShadow m.val x.hi b).wr (TBU_CAP_VAL n.val) (capPending b n.val)).put
        (TBU_CAP_STAT_full n.val) 1).put (TBU_CAP_STAT_pend n.val) 0)).setBit TBU_IRQ_STAT_cap n.val)))

/-- R47, R48: on the tick after reaching 0 an enabled timer sets its interrupt bit, and reloads with mode = 1, stops with mode = 0; at the
underflow of a chained pair, which is the odd timer's, both halves do by its mode. A write of TBU_TMRn_RLD with en = 0 also loads the count. -/
def Obligations.Timers : Prop :=
  (∀ (n : Fin 8) (s : State), s.live → n.val ∈ s.blk.tbu.tmrDue → s.blk.on (TBU_TMR_CFG_en n.val) →
    let due (b : Block) : Block :=
      ({ b with tbu := { b.tbu with tmrDue := b.tbu.tmrDue.filter (· != n.val) } }).setBit TBU_IRQ_STAT_tmr n.val
    let ends (k : Nat) (b : Block) : Block :=
      if s.blk.on (TBU_TMR_CFG_mode n.val) then b.setNum (TBU_TMR_VAL k) (b.num (TBU_TMR_RLD k)) else b.put (TBU_TMR_CFG_en k) 0
    (¬ (n.val % 2 = 1 ∧ timerPaired s.blk (n.val - 1)) →
      exec (.timerUnderflow n) s = .next (s.on fun b => ends n.val (due b))) ∧
    (n.val % 2 = 1 → timerPaired s.blk (n.val - 1) →
      exec (.timerUnderflow n) s = .next (s.on fun b => ends (n.val - 1) (ends n.val (due b))))) ∧
  (∀ (m : Master) (n : Fin 8) (v : Word) (s : State), s.live → s.grants m.val (TBU_TMR_RLD n.val) →
    exec (.timerReloadWrite m n v) s = .next (s.on (wrote m.val fun b =>
      if b.on (TBU_TMR_CFG_en n.val) then b.setNum (TBU_TMR_RLD n.val) v.toNat
      else (b.setNum (TBU_TMR_RLD n.val) v.toNat).setNum (TBU_TMR_VAL n.val) v.toNat)))

/-! ### Events (chapter 03) -/

/-- R51: a MIDI input or a UMP source whose bit in EFE_CTL.en is 0 ignores its input: no number, no status, nothing waits. -/
def Obligations.DisabledSourceIgnores : Prop :=
  (∀ (n : Fin 4) (t : Long) (s : State), s.live → ¬ srcOn s.blk n.val →
    (∀ c ∈ ([.midiActiveSensing n t, .midiStart n t, .midiContinue n t, .midiStop n t] : List Instr),
      exec c s = .next (s.on (advanceTo t.toNat))) ∧
    (∀ ch key vel zero, exec (.midiNoteOff n ch key vel zero t) s = .next (s.on (advanceTo t.toNat))) ∧
    (∀ ch key vel, exec (.midiNoteOn n ch key vel t) s = .next (s.on (advanceTo t.toNat))) ∧
    (∀ ch cc v, exec (.midiControlChange n ch cc v t) s = .next (s.on (advanceTo t.toNat))) ∧
    (∀ e, exec (.midiParseError n e t) s = .next (s.on (advanceTo t.toNat))) ∧
    (∀ bytes, exec (.midiSystemExclusive n bytes t) s = .next (s.on (advanceTo t.toNat)))) ∧
  (∀ (src : UmpSrc) (s : State), s.live → ¬ umpOn s.blk src.num →
    (∀ g ch key vel, exec (.umpNoteOff src g ch key vel) s = .next (s.on id)) ∧
    (∀ g ch key vel ty at', exec (.umpNoteOn src g ch key vel ty at') s = .next (s.on id)) ∧
    (∀ c, exec (.umpJrClock src c) s = .next (s.on id)) ∧ (∀ g mt, exec (.umpUnsupportedType src g mt) s = .next (s.on id)))

/-- R64, R79: a read of EFE_SRCs_STAT returns the oldest entry and removes it, and 0 of an empty FIFO. A presented MARK writes its tag to
the 16-entry mark FIFO, or is lost and counted when that is full; a read of EFE_MARK returns and removes the oldest tag. -/
def Obligations.StatusAndMarks : Prop :=
  (∀ (m : Master) (src : Fin 16) (s : State), s.live → s.grants m.val (EFE_SRC_STAT src.val) →
    (statusFifo s.blk src.val = [] → exec (.statusFifoRead m src) s = .next (s.on (answered m.val 0 id))) ∧
    (∀ n code q, statusFifo s.blk src.val = (n, code) :: q →
      exec (.statusFifoRead m src) s = .next (s.on (answered m.val (BitVec.ofNat 32 (n % 65536 + code * 65536 + 2 ^ 20)) fun b =>
        { b with efe := { b.efe with status := FMap.set (fun _ => []) b.efe.status src.val q } })))) ∧
  ((∀ (s : State) (x : Timed) (rest : List Timed), s.live → s.presents 0x11 x rest →
    exec .mark s = .next (s.on fun b =>
      if b.efe.marks.length < 16 then
        ({ b.presented rest with efe := { b.efe with present := rest, marks := b.efe.marks ++ [x.ev.data] } }).flag EFE_IRQ_STAT_mark
      else ((b.presented rest).bump EFE_MARK_STAT_ovf).flag EFE_IRQ_STAT_mark_ovf)) ∧
  (∀ (m : Master) (s : State), s.live → s.grants m.val EFE_MARK →
    exec (.markRead m) s = .next (s.on (answered m.val (s.blk.efe.marks.headD 0) fun b =>
      { b with efe := { b.efe with marks := b.efe.marks.tail } }))))

/-- R67: a discarded item of an enabled input that has seen a status byte is counted in EFE_SRCs_CNT.parse; all but the undefined
real-time bytes clear running status. It takes no number, and no event waits for it. -/
def Obligations.ParseErrorsCounted : Prop :=
  ∀ (n : Fin 4) (e : ParseError) (t : Long) (s : State), s.live → s.blk.quiet → srcOn s.blk n.val → n.val ∈ s.blk.efe.synced →
    ∃ r, exec (.midiParseError n e t) s = .next r ∧
      r.blk.get (EFE_SRC_CNT_parse n.val) = min 65535 (s.blk.get (EFE_SRC_CNT_parse n.val) + 1) ∧
      FMap.get (fun _ => 0) r.blk.efe.running n.val =
        (if e = .undefinedRealTime then FMap.get (fun _ => 0) s.blk.efe.running n.val else 0) ∧
      r.blk.efe.waiting = s.blk.efe.waiting ∧ r.blk.efe.status = s.blk.efe.status ∧
      (∀ k : Fin 16, r.blk.get (EFE_SRC_SEQ_nxt k.val) = s.blk.get (EFE_SRC_SEQ_nxt k.val)) ∧
      r.blk.mem = s.blk.mem ∧ r.blk.alc = s.blk.alc

/-! ### Notes and voices (chapter 05) -/

/-- Every released event acts when it stands in front with its opcode: it leaves the queue of released events, and its own effect
follows. What that effect is, of every kind: a NOTE_ON of one matching layer and one voice starts it in the lowest free slot of the harness
with the most slack (R115, R119); a NOTE_OFF puts its note into release, or a pedal keeps it (R127, R129); per-note values reach the voices
that they address (R56, R203); an event for one voice brings it an event-apply card (R55, R82), or is stale (R57); controllers, bend,
pedals and tuning change their part (R58, R129, R147); KILL fades (R105), ALL_OFF releases (R131); BUS_PARAM writes its halfword, or waits for
the bus card in service (R261); CV_SET joins its channel's block (R297). -/
def Obligations.ReleasedEventsAct : Prop :=
  (∀ (s : State) (x : Timed) (rest : List Timed), s.live →
    (s.front 1 x rest → exec .noteOn s = .next (s.on fun b => Machine.noteOn x (b.popped rest))) ∧
    (s.front 2 x rest → exec .noteOff s = .next (s.on fun b => Machine.noteOff x (b.popped rest))) ∧
    (s.front 3 x rest → exec .polyPressure s = .next (s.on fun b => perNoteEvent 3 x (b.popped rest))) ∧
    (s.front 4 x rest → exec .control s = .next (s.on fun b => Machine.control x (b.popped rest))) ∧
    (s.front 5 x rest → exec .pnControl s = .next (s.on fun b => perNoteEvent 5 x (b.popped rest))) ∧
    (s.front 6 x rest → exec .pitchBend s = .next (s.on fun b => Machine.pitchBend x (b.popped rest))) ∧
    (s.front 7 x rest → exec .pnBend s = .next (s.on fun b => perNoteEvent 7 x (b.popped rest))) ∧
    (s.front 9 x rest → exec .param s = .next (s.on fun b => Machine.param x (b.popped rest))) ∧
    (s.front 0x0A x rest → exec .kill s = .next (s.on fun b => Machine.kill x (b.popped rest))) ∧
    (s.front 0x0B x rest → exec .allOff s = .next (s.on fun b => Machine.allOff x (b.popped rest))) ∧
    (s.front 0x0C x rest → exec .busParam s = .next (s.on fun b => Machine.busParam x (b.popped rest))) ∧
    (s.front 0x0D x rest → exec .cvSet s = .next (s.on fun b => Machine.cvSet x (b.popped rest))) ∧
    (s.front 0x12 x rest → exec .pedal s = .next (s.on fun b => Machine.pedal x (b.popped rest))) ∧
    (s.front 0x13 x rest → exec .tune s = .next (s.on fun b => Machine.tune x (b.popped rest)))) ∧
  (∀ (s : State) (x : Timed) (rest : List Timed), s.live → s.blk.quiet →
    let b := s.blk
    let p := x.ev.part
    let o := x.offset
    let pt := b.part p
    let i := x.ev.index
    let acts (op : Nat) (c : Instr) (f : State → Prop) : Prop :=
      s.front op x rest → ∃ t, exec c s = .next t ∧ t.blk.efe = { b.efe with released := rest, units := t.blk.efe.units } ∧ f t
    let othersAs (f : State → Prop) (v : Nat) (t : State) : Prop := f t ∧ (∀ u, u ≠ v → t.blk.voice u = b.voice u) ∧ t.blk.mem = b.mem
    -- NOTE_ON: one layer, one voice
    (∀ j ly c, (∀ q ∈ b.alc.pooled, q.ev.stamp ≠ x.stamp) → pt.mode = 0 → pt.retrig = 0 → x.ev.bits 23 16 = 0 →
      matching b p x.ev.key (x.ev.bits 15 0) = [(j, ly)] → ly.unison = 1 → admissionOpen b = true → admitCost b ly.prog = some c →
      b.alc.started < 256 →
      let g : Group := { note := b.alc.nextNote, ix := j, ly := ly, pick := b.pickNo, offset := o, cost := c
                         bytes := b.tmplBytes ly.prog ly.template, book := false }
      let room (h : Nat) : Prop := h < 32 ∧ fits b g h = true ∧ b.get VAL_CFG_slot_rsv < (freeSlots b h).length
      (∃ h, room h) → acts 1 .noteOn fun t => ∃ h k, room h ∧ (freeSlots b h).head? = some k ∧
        (∀ h', room h' → capA b h' - (admitted b h' : Nat) ≤ capA b h - (admitted b h : Nat)) ∧
        othersAs (fun t =>
          let y := t.blk.voice (256 * h + k)
          y.st = .sounding ∧ y.note = b.alc.nextNote ∧ y.part = p ∧ y.key = x.ev.key ∧ y.layer = j ∧ y.template = ly.template ∧
          y.prog = ly.prog ∧ y.startFrame = x.frame.getD 0 ∧ y.startPick = b.pickNo ∧ y.offset = o ∧ y.cost = c ∧ y.charged = true)
          (256 * h + k) t ∧
        t.blk.note b.alc.nextNote = some (noteOf x) ∧ t.blk.alc.started = b.alc.started + 1 ∧
        unitsUsed t.blk b.pickNo h = unitsUsed b b.pickNo h + 1 ∧ ∃ a, t.blk.dlr.applies = b.dlr.applies ++ [a] ∧ a.voice = 256 * h + k ∧ a.op = 1 ∧ a.init = true ∧ a.offset = o ∧
          a.data = BitVec.ofNat 32 (x.ev.bits 15 0)) ∧
    -- NOTE_OFF: to a note, and to one voice
    (∀ k nt, x.ev.kind ≠ 1 → pt.mode = 0 → findNote b p x.ev.key (x.ev.bits 23 16) = some k → b.note k = some nt → nt.released = false →
      (pedalHolds b nt = false → acts 2 .noteOff fun t => s.noteEnded k nt (x.ev.bits 15 0) o t) ∧
      (pedalHolds b nt = true → acts 2 .noteOff fun t =>
        t.blk.note k = some { nt with released := true, relVel := x.ev.bits 15 0, sustained := true } ∧
        t.blk.alc = { b.alc with notes := t.blk.alc.notes } ∧ t.blk.mem = b.mem)) ∧
    (x.ev.kind = 1 → (b.voice i).st = .sounding → acts 2 .noteOff (othersAs (fun t =>
      (t.blk.voice i).st = .released ∧ (t.blk.voice i).relFrame = b.pickNo * b.pick + b.lOut + o ∧
      t.blk.dlr.applies = b.dlr.applies ++ [{ voice := i, op := 2, data := x.ev.data, offset := o, cmd := (b.voice i).cmdNo }]) i)) ∧
    -- per-note values: to a note's voices
    (x.ev.kind ≠ 1 →
      let dest := (addressed b p x.ev.key (x.ev.bits 23 16)).map (·.1)
      let val := x.ev.bits 15 0
      let bare (y : Voice) : Voice := { y with undo := [], pressure := 0, pnBend := 0 }
      acts 3 .polyPressure (fun t => t.blk.mem = b.mem ∧ ∀ v, bare (t.blk.voice v) = bare (b.voice v) ∧
        (t.blk.voice v).pnBend = (b.voice v).pnBend ∧ (t.blk.voice v).pressure = if v ∈ dest then val else (b.voice v).pressure) ∧
      acts 7 .pnBend (fun t => t.blk.mem = b.mem ∧ ∀ v, bare (t.blk.voice v) = bare (b.voice v) ∧
        (t.blk.voice v).pressure = (b.voice v).pressure ∧ (t.blk.voice v).pnBend = if v ∈ dest then val else (b.voice v).pnBend) ∧
      ∀ v y, addressed b p x.ev.key (x.ev.bits 23 16) = [(v, y)] → acts 5 .pnControl fun t =>
        (∀ j, j < 4 → Memory.num t.blk.mem (ctxBase v + 0x3F4 + 2 * j) 2 =
          if Memory.num b.mem (ctxBase v + 0x3F0 + j) 1 = x.ev.bits 31 24 ∧ x.ev.bits 31 24 ≠ 255 then val
          else Memory.num b.mem (ctxBase v + 0x3F4 + 2 * j) 2) ∧
        (∀ a, a < ctxBase v + 0x3F4 ∨ ctxBase v + 0x3FC ≤ a → Memory.byte t.blk.mem a = Memory.byte b.mem a) ∧
        ∀ u, bare (t.blk.voice u) = bare (b.voice u)) ∧
    -- an event for one voice
    (let card (op : Nat) (ignore : Bool) (t : State) : Prop := t.blk.alc = b.alc ∧ t.blk.mem = b.mem ∧ sameRegsBut [CVO_STAT] s t ∧
      t.blk.dlr = { b.dlr with applies := b.dlr.applies ++
        [{ voice := i, op := op, data := x.ev.data, offset := o, ignore := ignore, cmd := (b.voice i).cmdNo }] }
     let lost (t : State) : Prop := t.blk.alc = b.alc ∧ t.blk.mem = b.mem ∧ t.blk.dlr = b.dlr ∧
      t.blk.get EFE_CNT_stale = min EFE_CNT_stale.max (b.get EFE_CNT_stale + 1)
     ((b.voice i).st ≠ .free → acts 9 .param (card 9 false) ∧ (x.ev.kind = 1 →
       acts 3 .polyPressure (card 3 (b.voice i).detached) ∧ acts 5 .pnControl (card 5 (b.voice i).detached) ∧
       acts 7 .pnBend (card 7 (b.voice i).detached))) ∧
     ((b.voice i).st = .free → acts 9 .param lost ∧ (x.ev.kind = 1 → acts 2 .noteOff lost ∧ acts 3 .polyPressure lost ∧
       acts 5 .pnControl lost ∧ acts 7 .pnBend lost ∧ acts 0x0A .kill lost))) ∧
    -- changes of the part
    (x.ev.ext = .none → acts 4 .control (s.partDone p
      { pt with ctl := FMap.set (fun _ => 0) pt.ctl (x.ev.bits 31 24) (x.ev.bits 23 0) }
      [{ part := p, field := .ctl (x.ev.bits 31 24), value := (x.ev.bits 23 0 : Nat), offset := o }])) ∧
    acts 6 .pitchBend (s.partDone p { pt with bend := x.ev.bits 15 0 }
      [{ part := p, field := .bend, value := (x.ev.bits 15 0 : Nat), offset := o }]) ∧
    (let depth := x.ev.bits 31 16
     let moved (y : Part) (f : MirrorField) : State → Prop := s.partDone p y [{ part := p, field := f, value := depth, offset := o }]
     (x.ev.bits 1 0 = 0 → ¬ (0x8000 ≤ pt.sustain ∧ depth < 0x8000) → acts 0x12 .pedal (moved { pt with sustain := depth } .sustain)) ∧
     (x.ev.bits 1 0 = 1 → (0x8000 ≤ pt.sostenuto ↔ 0x8000 ≤ depth) → acts 0x12 .pedal (moved { pt with sostenuto := depth } .sostenuto)) ∧
     (x.ev.bits 1 0 = 2 → acts 0x12 .pedal (moved { pt with soft := depth } .soft)) ∧
     -- the pedal that kept a note goes up
     (∀ k nt, x.ev.bits 1 0 = 0 → 0x8000 ≤ pt.sustain → depth < 0x8000 → partNotes b p = [(k, nt)] → b.note k = some nt →
       nt.sustained = true → nt.latched = false →
       acts 0x12 .pedal (fun t => (t.blk.part p).sustain = depth ∧ s.noteEnded k nt nt.relVel o t))) ∧
    (let fine := (BitVec.ofNat 16 (x.ev.bits 31 16)).toInt
     let fined : Mirror := { part := p, field := .fine, value := fine, offset := o }
     (x.ev.oflags % 4 = 1 → acts 0x13 .tune (s.partDone p { pt with tuning := x.ev.bits 3 0 } [])) ∧
     (x.ev.oflags % 4 = 2 → acts 0x13 .tune (s.partDone p { pt with fine := fine } [fined])) ∧
     (x.ev.oflags % 4 = 3 → acts 0x13 .tune (s.partDone p { pt with tuning := x.ev.bits 3 0, fine := fine } [fined]))) ∧
    -- KILL and ALL_OFF
    (let fades (v : Nat) (t : State) : Prop := (t.blk.voice v).st = .fading ∧
      (t.blk.voice v).fadeLen = killFade b v (x.ev.bits 9 0) ∧ (t.blk.voice v).fadePos = 0 ∧ (t.blk.voice v).fadePick = b.pickNo
     let plays (v : Nat) : Prop := (b.voice v).st = .sounding ∨ (b.voice v).st = .released
     (x.ev.kind = 1 → plays i → (b.voice i).next = none → acts 0x0A .kill (othersAs (fades i) i)) ∧
     (x.ev.kind = 2 ∨ x.ev.kind = 3 → (∀ v, (b.voice v).next = none ∧ (b.voice v).st ≠ .booked) →
       let dest := ((voicesOf b).filter fun kv => x.ev.kind == 3 || kv.2.part == p).map (·.1)
       acts 0x0A .kill fun t => t.blk.mem = b.mem ∧
         ∀ v, (v ∈ dest → plays v → fades v t) ∧ (v ∉ dest → t.blk.voice v = b.voice v)) ∧
     (∀ k nt, x.ev.kind ≠ 3 → partNotes b p = [(k, nt)] → b.note k = some nt → nt.booked = false → nt.released = false →
       noteFading b k = false → (x.ev.oflags % 2 = 1 ∨ pedalHolds b nt = false) →
       acts 0x0B .allOff fun t => s.noteEnded k nt 0x8000 o t ∧ (t.blk.part p).keys = [])) ∧
    -- the mix and the CV channels
    (∀ l e, l < 4 → entryFor b l i = some e → (∀ l', l' < 4 → l' ≠ l → entryFor b l' i = none) →
      (busInService b l i = false → acts 0x0C .busParam fun t => t.blk.mix = b.mix ∧
        t.blk.mem = Memory.setNum b.mem (loomBase l + parBase b l e.ix + x.ev.bits 9 0) 2 (x.ev.bits 31 16)) ∧
      (busInService b l i = true → acts 0x0C .busParam fun t => t.blk.mem = b.mem ∧
        t.blk.mix = { b.mix with deferred := b.mix.deferred ++ [(l, i, x.ev.bits 9 0, x.ev.bits 31 16)] })) ∧
    (let n := i % 32
     let e : CvEntry := { frame := b.pickNo * b.pick + b.lOut + o, src := 0, value := BitVec.ofNat 32 (x.ev.bits 15 0)
                          bypass := x.ev.oflags % 2 == 1, good := true }
     cvSrc b n = 0 → b.on (CVO_CH_CFG_en n) → acts 0x0D .cvSet fun t =>
       cvChan t.blk n = { cvChan b n with entries := ((cvChan b n).entries.filter fun y => !(y.frame == e.frame && y.src == 0)) ++ [e] } ∧
       (∀ k, k ≠ n → cvChan t.blk k = cvChan b k) ∧ t.blk.mem = b.mem ∧ sameRegsBut [CVO_STAT] s t))

/-- R116: a PROGRAM event changes the program of its part alone; every voice keeps its layers and templates, and all else stays. -/
def Obligations.ProgramChangesPart : Prop :=
  ∀ (s : State) (x : Timed) (rest : List Timed), s.live → s.front 8 x rest → s.blk.quiet →
    ∃ t, exec .program s = .next t ∧ (t.blk.part x.ev.part).program = x.ev.bits 11 0 ∧
      t.blk.part x.ev.part = { s.blk.part x.ev.part with program := x.ev.bits 11 0 } ∧
      (∀ p, p ≠ x.ev.part → t.blk.part p = s.blk.part p) ∧ (∀ v, t.blk.voice v = s.blk.voice v) ∧ t.blk.alc.notes = s.blk.alc.notes ∧
      t.blk.efe.released = rest ∧ t.blk.mem = s.blk.mem ∧ (∀ a, a ≠ CVO_STAT → t.blk.rd a = s.blk.rd a)

/-! ### The Dealer and queries (chapters 04, 05) -/

/-- R106, R108, R109, R140: a snapshot request clears ready and sets pending, and is ignored while pending; a cancel before the boundary drops
the request, and a later one says that it came late. DLR_CANCEL ends a housekeeping card that is not in service CANCELLED, and marks one in
service with the cycle of the cancel; of a flow that is no housekeeping flow it answers NOT_FOUND; one written while busy is ignored and sets
ovr. A write of VAL_QRY_CMD starts a query and clears done; one while busy is ignored and sets ovr. -/
def Obligations.DealerRegisters : Prop :=
  (∀ (m : Master) (s : State), s.live → s.grants m.val DLR_SNAP_CTL → s.blk.quiet →
    (s.blk.on DLR_SNAP_STAT_pending → exec (.snapshotRequest m) s = .next (s.on (wrote m.val id))) ∧
    (¬ s.blk.on DLR_SNAP_STAT_pending → ∃ t, exec (.snapshotRequest m) s = .next t ∧ t.blk.get DLR_SNAP_STAT_pending = 1 ∧
      t.blk.get DLR_SNAP_CTL_req = 1 ∧ t.blk.get DLR_SNAP_STAT_ready = 0 ∧
      t.blk.get DLR_SNAP_STAT_seq = s.blk.get DLR_SNAP_STAT_seq ∧ t.blk.mem = s.blk.mem ∧
      t.blk.dlr = { s.blk.dlr with snapT := s.blk.now }) ∧
    (s.blk.on DLR_SNAP_STAT_pending → s.blk.dlr.snap = none →
      exec (.snapshotCancel m) s = .next (s.on (wrote m.val fun b =>
        let b1 := (b.put DLR_SNAP_STAT_pending 0).put DLR_SNAP_CTL_req 0
        { b1 with dlr := { b1.dlr with snapDrop := if b.dlr.snapT = b.now then none else some b.now } }))) ∧
    (s.blk.dlr.snap ≠ none → exec (.snapshotCancel m) s = .next (s.on (wrote m.val fun b => b.put DLR_SNAP_STAT_abort_late 1)))) ∧
  (∀ (m : Master) (v : Word) (t : Long) (s : State), s.live →
    s.grants m.val DLR_CANCEL →
    (s.blk.on DLR_CANCEL_STAT_busy →
      exec (.dlrCancel m v t) s = .next (s.on (wrote m.val fun b => (advanceTo t.toNat b).put DLR_CANCEL_STAT_ovr 1))) ∧
    (¬ s.blk.on DLR_CANCEL_STAT_busy → (v.toNat % 16384 < 8448 ∨ 8512 ≤ v.toNat % 16384) →
      exec (.dlrCancel m v t) s = .next (s.on (wrote m.val fun b =>
        ((((advanceTo t.toNat b).put DLR_CANCEL_STAT_flow (v.toNat % 16384)).put DLR_CANCEL_STAT_result 3).put DLR_CANCEL_STAT_busy 0).put
          DLR_IRQ_STAT_cancel_done 1))) ∧
    (∀ c, ¬ s.blk.on DLR_CANCEL_STAT_busy → 8448 ≤ v.toNat % 16384 → v.toNat % 16384 < 8512 →
      (advanceTo t.toNat s.blk).dlr.cards.find? (fun x => x.flow == v.toNat % 16384) = some c →
      (∀ h, c.st = .inService h → exec (.dlrCancel m v t) s = .next (s.on (wrote m.val fun b =>
        let b1 := ((advanceTo t.toNat b).put DLR_CANCEL_STAT_flow (v.toNat % 16384)).put DLR_CANCEL_STAT_busy 1
        { b1 with dlr := { b1.dlr with
          cards := b1.dlr.cards.map fun x => if x.no = c.no then { c with cancel := some (advanceTo t.toNat b).now } else x } }))) ∧
      ((∀ h, c.st ≠ .inService h) → s.blk.quiet → ∃ u, exec (.dlrCancel m v t) s = .next u ∧ u.blk.get DLR_CANCEL_STAT_result = 1 ∧
        u.blk.get DLR_CANCEL_STAT_busy = 0 ∧ u.blk.get DLR_IRQ_STAT_cancel_done = 1 ∧ (∀ x ∈ u.blk.dlr.cards, x.no ≠ c.no) ∧
        u.blk.mem = s.blk.mem ∧ u.blk.alc = s.blk.alc))) ∧
  (∀ (m : Master) (v : Word) (s : State), s.live → s.grants m.val VAL_QRY_CMD →
    (s.blk.on VAL_QRY_STAT_busy → exec (.queryCommand m v) s = .next (s.on (wrote m.val fun b => b.put VAL_QRY_STAT_ovr 1))) ∧
    (¬ s.blk.on VAL_QRY_STAT_busy → exec (.queryCommand m v) s = .next (s.on (wrote m.val fun b =>
      let b1 := (b.put VAL_QRY_STAT_busy 1).put VAL_QRY_STAT_done 0
      { b1 with alc := { b1.alc with query := some (v.toNat / 65536 % 4, v.toNat % 16384) } }))))

/-! ### Shuttles (chapters 08, 09) -/

/-- The instruction of slot M0, M1 or X of a shuttle that issues is given to its next bundle, and nothing else happens before slot C
issues it (R235): every load, store, stream read, loom transfer, send and pointer instruction, and every multiply-accumulate. And what one
of them does when NOP in slot C issues it: a load or store of the private set (R239), a pointer instruction (R243), and slot X (R208, R209,
R244), with the distance of every result (R219). -/
def Obligations.SlotsGiven : Prop :=
  (∀ (h : Fin 160) (s : State), s.live → s.issues h.val →
    let give (m1 : Bool) (op : MOp) : Host.Outcome State Fault Refusal := .next (s.on fun b =>
      b.setShuttle h.val (if m1 then { b.shuttle h.val with m1 := op } else { b.shuttle h.val with m0 := op }))
    let giveX (op : XOp) : Host.Outcome State Fault Refusal := .next (s.on fun b => b.setShuttle h.val { b.shuttle h.val with x := op })
    (∀ m1 f e, exec (.ldw h m1 f e) s = give m1 (.load .word f e) ∧ exec (.ldh h m1 f e) s = give m1 (.load .half f e) ∧
      exec (.ldhu h m1 f e) s = give m1 (.load .halfU f e) ∧ exec (.ldb h m1 f e) s = give m1 (.load .byte f e) ∧
      exec (.ldz h m1 f e) s = give m1 (.load .pair f e) ∧ exec (.stwEcc h m1 f e) s = give m1 (.store .word f e) ∧
      exec (.sthEcc h m1 f e) s = give m1 (.store .half f e) ∧ exec (.stbEcc h m1 f e) s = give m1 (.store .byte f e) ∧
      exec (.stz h m1 f) s = give m1 (.store .pair f .clean)) ∧
    (∀ m1 d f w inc e, exec (.srdEcc h m1 d f w inc e) s = give m1 (.srd d f w inc e)) ∧
    (∀ m1 l p z e, exec (.ldlEcc h m1 l p z e) s = give m1 (.ldl l p z e) ∧ exec (.stlEcc h m1 l p z e) s = give m1 (.stl l p z e)) ∧
    (∀ m1 v t lane inc, exec (.snd h m1 v t lane inc) s = give m1 (.snd v t lane inc)) ∧
    (∀ m1 k j cls imm, exec (.padd h m1 k j cls imm) s = give m1 (.padd k j cls imm)) ∧
    (∀ m1 d k dir, exec (.pmov h m1 d k dir) s = give m1 (.pmov d k dir)) ∧
    (∀ m1 k cls imm, exec (.pli h m1 k cls imm) s = give m1 (.pli k cls imm)) ∧
    exec (.nop h 0) s = give false .nop ∧ exec (.nop h 1) s = give true .nop ∧ exec (.nop h 2) s = giveX .nop ∧
    (∀ pair acc neg conj zx zy, exec (.cmac h pair acc neg conj zx zy) s = giveX (.cmac pair acc neg conj zx zy)) ∧
    (∀ a acc neg x y, exec (.rmac h a acc neg x y) s = giveX (.rmac a acc neg x y)) ∧
    (∀ a a' na na' acc x y u v, exec (.rmac2 h a a' na na' acc x y u v) s = giveX (.rmac2 a a' na na' acc x y u v)) ∧
    (∀ d a sh z, exec (.ext h d a sh z) s = giveX (.ext d a sh z)) ∧ (∀ a x, exec (.accset h a x) s = giveX (.accset a x))) ∧
  (∀ (h : Fin 160) (s : State), s.bundles h.val → let sh := s.atIssue h.val
    64 ≤ sh.pc →
    let after (x : Shuttle) (mem : List Host.Cell) : Prop := ∃ t, exec (.nop h 3) s = .next t ∧ s.bundleDone h.val x.onward mem t
    let writes (l : List Flight) : Prop := after { sh with flights := sh.flights ++ l } s.blk.mem
    -- one instruction in slot M1 or M0, whose writes rank so
    (∀ (m1 : Bool) (op : MOp), (if m1 then sh.m1 else sh.m0) = op → (if m1 then sh.m0 else sh.m1) = .nop → sh.x = .nop → op.ok →
      let rank := if m1 then 1 else 0
      let post (f : FmtA) (n : Nat) : List Flight := ((f.posted sh n).map fun p => laterW sh rank 1 1 f.p.toNat p).toList
      let at' (f : FmtA) : Nat := privBase h.val + ((f.addr sh).toNat - 0x180000)
      let inSet (f : FmtA) (n : Nat) : Prop := (f.addr sh).toNat % n = 0 ∧ 0x180000 ≤ (f.addr sh).toNat ∧ (f.addr sh).toNat < 0x184000
      let mem (f : FmtA) (n : Nat) : Nat := Memory.num s.blk.mem (at' f) n
      let loads (f : FmtA) (n : Nat) (v : Word) : Prop := writes (post f n ++ [laterW sh rank 3 0 f.d.toNat v])
      let stores (f : FmtA) (n : Nat) (l : List Byte) : Prop :=
        after { sh with flights := sh.flights ++ post f n } (Memory.setBytes s.blk.mem (at' f) l)
      (∀ f, sh.xfers = [] → inSet f 4 → op = .load .word f .clean → loads f 4 (BitVec.ofNat 32 (mem f 4))) ∧
      (∀ f, sh.xfers = [] → inSet f 2 → op = .load .half f .clean → loads f 2 ((BitVec.ofNat 16 (mem f 2)).signExtend 32)) ∧
      (∀ f, sh.xfers = [] → inSet f 2 → op = .load .halfU f .clean → loads f 2 (BitVec.ofNat 32 (mem f 2))) ∧
      (∀ f, sh.xfers = [] → inSet f 1 → op = .load .byte f .clean → loads f 1 (BitVec.ofNat 32 (mem f 1))) ∧
      (∀ f, sh.xfers = [] → inSet f 8 → op = .load .pair f .clean →
        writes (post f 8 ++ [laterW sh rank 3 0 f.d.toNat (BitVec.ofNat 32 (mem f 4)),
          laterW sh rank 3 0 (f.d.toNat + 1) (BitVec.ofNat 32 (Memory.num s.blk.mem (at' f + 4) 4))])) ∧
      (∀ f, inSet f 4 → op = .store .word f .clean → stores f 4 (leBytes 4 (sh.rd f.d.toNat).toNat)) ∧
      (∀ f, inSet f 2 → op = .store .half f .clean → stores f 2 (leBytes 2 (sh.rd f.d.toNat).toNat)) ∧
      (∀ f, inSet f 1 → op = .store .byte f .clean → stores f 1 (leBytes 1 (sh.rd f.d.toNat).toNat)) ∧
      (∀ f, inSet f 8 → op = .store .pair f .clean →
        stores f 8 (leBytes 4 (sh.rd f.d.toNat).toNat ++ leBytes 4 (sh.rd (f.d.toNat + 1)).toNat)) ∧
      (∀ k j cls imm, op = .padd k j cls imm →
        writes [laterW sh rank 1 (if cls then 2 else 1) k.toNat ((if cls then sh.mod j.toNat else sh.ptr j.toNat) + imm.signExtend 32)]) ∧
      (∀ d k dir, op = .pmov d k dir → writes [match dir.toNat with
        | 0 => laterW sh rank 1 1 k.toNat (sh.rd d.toNat)
        | 1 => laterW sh rank 1 2 k.toNat (sh.rd d.toNat)
        | 2 => laterW sh rank 1 0 d.toNat (sh.ptr k.toNat)
        | _ => laterW sh rank 1 0 d.toNat (sh.mod k.toNat)]) ∧
      (∀ k cls imm, op = .pli k cls imm →
        writes [laterW sh rank 1 (if cls then 2 else 1) k.toNat (if cls then imm.signExtend 32 else imm.setWidth 32)])) ∧
    -- one instruction in slot X
    (sh.m0 = .nop → sh.m1 = .nop → sh.x.ok →
      let sum (a : Nat) (acc : Bool) (p : Int) : List Flight :=
        let v := (if acc then (sh.accum a).toInt else 0) + p
        [later sh 2 1 17 a (accSat v), later sh 2 4 16 a (accSat v)] ++
          (if v < -(2 ^ 71) ∨ 2 ^ 71 ≤ v then [laterW sh 2 1 19 0 32] else [])
      (∀ a acc neg x y, sh.x = .rmac a acc neg x y →
        writes (sum a.toNat acc ((if neg then -1 else 1) * mulQ (sh.rd x.toNat) (sh.rd y.toNat)))) ∧
      (∀ a b na nb acc x y u v, sh.x = .rmac2 a b na nb acc x y u v →
        writes (sum a.toNat acc ((if na then -1 else 1) * mulQ (sh.rd x.toNat) (sh.rd y.toNat)) ++
          sum b.toNat acc ((if nb then -1 else 1) * mulQ (sh.rd u.toNat) (sh.rd v.toNat)))) ∧
      (∀ pair acc neg conj zx zy, sh.x = .cmac pair acc neg conj zx zy →
        let r (k : Nat) : Word := sh.rd k
        let cross := if conj then -1 else 1
        let sg := if neg then -1 else 1
        writes (sum (if pair then 2 else 0) acc (sg * (mulQ (r (2 * zx.toNat)) (r (2 * zy.toNat)) -
            cross * mulQ (r (2 * zx.toNat + 1)) (r (2 * zy.toNat + 1)))) ++
          sum (if pair then 3 else 1) acc (sg * (mulQ (r (2 * zx.toNat + 1)) (r (2 * zy.toNat)) +
            cross * mulQ (r (2 * zx.toNat)) (r (2 * zy.toNat + 1)))))) ∧
      (∀ d a k, sh.x = .ext d a k false →
        let v := extractExact (sh.extr a.toNat) k.toNat
        writes ([laterW sh 2 4 0 d.toNat (sat32 v)] ++ (if v < -(2 ^ 31) ∨ 2 ^ 31 ≤ v then [laterW sh 2 1 19 0 16] else []))) ∧
      (∀ a x, sh.x = .accset a x →
        let v : Acc := BitVec.ofInt 72 ((sh.rd x.toNat).toInt * 2 ^ 32)
        writes [later sh 2 1 17 a.toNat v, later sh 2 4 16 a.toNat v])))

/-- The instruction of slot C issues the bundle with the slots given, or faults where that is illegal (R254): every ALU, immediate, shaper
and move instruction, every branch, loop and wait, DONE, DRAW and RTE. Where the other slots are empty and R254 has nothing against it, its
own effect follows (R245–R253): the result and the flags that it writes, or where the shuttle goes on. -/
def Obligations.SlotCIssues : Prop :=
  (∀ (h : Fin 160) (s : State) (c : COp), s.live → s.issues h.val → eventDue h.val s.blk = false →
    let legal := bundleLegal (shtState s.blk h.val) ((s.blk.shuttle h.val).startBundle (s.blk.shuttle h.val).bundle) c
    let issued : Host.Outcome State Fault Refusal := .next (s.on (if legal then issueLegal h.val c else issueIllegal h.val))
    (c = .nop → exec (.nop h 3) s = issued) ∧
    (∀ d a b, (c = .alu .add d a b → exec (.add h d a b) s = issued) ∧ (c = .alu .sub d a b → exec (.sub h d a b) s = issued) ∧
      (c = .alu .adds d a b → exec (.adds h d a b) s = issued) ∧ (c = .alu .subs d a b → exec (.subs h d a b) s = issued) ∧
      (c = .alu .and d a b → exec (.and h d a b) s = issued) ∧ (c = .alu .or d a b → exec (.or h d a b) s = issued) ∧
      (c = .alu .xor d a b → exec (.xor h d a b) s = issued) ∧ (c = .alu .shl d a b → exec (.shl h d a b) s = issued) ∧
      (c = .alu .shr d a b → exec (.shr h d a b) s = issued) ∧ (c = .alu .asr d a b → exec (.asr h d a b) s = issued) ∧
      (c = .alu .min d a b → exec (.min h d a b) s = issued) ∧ (c = .alu .max d a b → exec (.max h d a b) s = issued) ∧
      (c = .alu .abs d a b → exec (.abs h d a b) s = issued) ∧ (c = .alu .mul16 d a b → exec (.mul16 h d a b) s = issued)) ∧
    (∀ a b, c = .cmp a b → exec (.cmp h a b) s = issued) ∧ (∀ d a, c = .mov d a → exec (.mov h d a) s = issued) ∧
    (∀ d a i, (c = .addi d a i → exec (.addi h d a i) s = issued) ∧ (c = .andi d a i → exec (.andi h d a i) s = issued) ∧
      (c = .ori d a i → exec (.ori h d a i) s = issued) ∧ (c = .xori d a i → exec (.xori h d a i) s = issued)) ∧
    (∀ d a k n, c = .shi d a k n → exec (.shi h d a k n) s = issued) ∧ (∀ a i, c = .cmpi a i → exec (.cmpi h a i) s = issued) ∧
    (∀ d i, c = .ldi d i → exec (.ldi h d i) s = issued) ∧ (∀ d i, c = .ldhi d i → exec (.ldhi h d i) s = issued) ∧
    (∀ d a b k, c = .sel d a b k → exec (.sel h d a b k) s = issued) ∧
    (∀ d x, (c = .shp .exp2 d x → exec (.exp2 h d x) s = issued) ∧ (c = .shp .sin d x → exec (.sin h d x) s = issued) ∧
      (c = .shp .tanh d x → exec (.tanh h d x) s = issued) ∧ (c = .shp .sclip d x → exec (.sclip h d x) s = issued) ∧
      (c = .shp .blep d x → exec (.blep h d x) s = issued) ∧ (c = .shp .blamp d x → exec (.blamp h d x) s = issued) ∧
      (c = .shp .win d x → exec (.win h d x) s = issued) ∧ (c = .shp .reserved d x → exec (.shpReserved h d x) s = issued)) ∧
    (∀ dst src dc sc, c = .movx dst src dc sc → exec (.movx h dst src dc sc) s = issued) ∧
    (∀ k len i, c = .setbl k len i → exec (.setbl h k len i) s = issued) ∧ (∀ k t, c = .br k t → exec (.br h k t) s = issued) ∧
    (∀ d t, c = .call d t → exec (.call h d t) s = issued) ∧ (∀ a, c = .brd a → exec (.brd h a) s = issued) ∧
    (∀ n, c = .rep n → exec (.rep h n) s = issued) ∧ (∀ a, c = .repd a → exec (.repd h a) s = issued) ∧
    (∀ n o, c = .loop n o → exec (.loop h n o) s = issued) ∧ (∀ a o, c = .loopd a o → exec (.loopd h a o) s = issued) ∧
    (∀ n, c = .waitl n → exec (.waitl h n) s = issued) ∧ (∀ e, c = .done e → exec (.done h e) s = issued) ∧
    (c = .draw → exec (.draw h) s = issued) ∧ (c = .rte → exec (.rte h) s = issued)) ∧
  (∀ (h : Fin 160) (s : State), s.bundles h.val → let sh := s.atIssue h.val
    sh.m0 = .nop → sh.m1 = .nop → sh.x = .nop → 64 ≤ sh.pc →
    let after (i : Instr) (x : Shuttle) : Prop := ∃ t, exec i s = .next t ∧ s.bundleDone h.val x s.blk.mem t
    let writes (i : Instr) (l : List Flight) : Prop := after i ({ sh with flights := sh.flights ++ l } : Shuttle).onward
    let D (k : BitVec 5) : Word := sh.rd k.toNat
    let flags (r : AluOut) : Flight := laterW sh 3 1 18 0 (BitVec.ofNat 32 (r.mask * 16 + r.flags))
    let word (d : BitVec 5) (v : Word) : List Flight := [laterW sh 3 1 0 d.toNat v]
    let res (d : BitVec 5) (r : AluOut) : List Flight := word d r.val ++ [flags r]
    -- what a delay slot, a repeated bundle and the end of a body may not hold
    let free := sh.slotsLeft = 0 ∧ sh.rep = none
    let inside := free ∧ sh.isLoopEnd sh.pc = false
    writes (.nop h 3) [] ∧
    (∀ d a b, writes (.add h d a b) (res d (aluOut .add (D a) (D b))) ∧ writes (.sub h d a b) (res d (aluOut .sub (D a) (D b))) ∧
      writes (.adds h d a b) (res d (aluOut .adds (D a) (D b))) ∧ writes (.subs h d a b) (res d (aluOut .subs (D a) (D b))) ∧
      writes (.and h d a b) (res d (aluOut .and (D a) (D b))) ∧ writes (.or h d a b) (res d (aluOut .or (D a) (D b))) ∧
      writes (.xor h d a b) (res d (aluOut .xor (D a) (D b))) ∧ writes (.shl h d a b) (res d (aluOut .shl (D a) (D b))) ∧
      writes (.shr h d a b) (res d (aluOut .shr (D a) (D b))) ∧ writes (.asr h d a b) (res d (aluOut .asr (D a) (D b))) ∧
      writes (.min h d a b) (res d (aluOut .min (D a) (D b))) ∧ writes (.max h d a b) (res d (aluOut .max (D a) (D b))) ∧
      writes (.abs h d a b) (res d (aluOut .abs (D a) (D b))) ∧ writes (.mul16 h d a b) (res d (aluOut .mul16 (D a) (D b)))) ∧
    (∀ a b, writes (.cmp h a b) [flags (aluOut .sub (D a) (D b))]) ∧ (∀ d a, writes (.mov h d a) (word d (D a))) ∧
    (∀ d a i, writes (.addi h d a i) (res d (aluOut .add (D a) (i.signExtend 32))) ∧
      writes (.andi h d a i) (res d (aluOut .and (D a) (i.setWidth 32))) ∧ writes (.ori h d a i) (res d (aluOut .or (D a) (i.setWidth 32))) ∧
      writes (.xori h d a i) (res d (aluOut .xor (D a) (i.setWidth 32)))) ∧
    (∀ d a n, let by' : Word := n.setWidth 32
      writes (.shi h d a 0 n) (res d (aluOut .shl (D a) by')) ∧ writes (.shi h d a 1 n) (res d (aluOut .shr (D a) by')) ∧
      writes (.shi h d a 2 n) (res d (aluOut .asr (D a) by'))) ∧
    (∀ a i, writes (.cmpi h a i) [flags (aluOut .sub (D a) (i.signExtend 32))]) ∧ (∀ d i, writes (.ldi h d i) (word d (i.signExtend 32))) ∧
    (∀ d i, writes (.ldhi h d i) (word d (i ++ (D d).extractLsb' 0 16))) ∧
    (∀ d a b k, writes (.sel h d a b k) (word d (if condHolds k.toNat sh.flg then D a else D b))) ∧
    (∀ d x, let out (v : Word) : List Flight := [laterW sh 3 4 0 d.toNat v]
      writes (.exp2 h d x) (out (shape .exp2 (D x))) ∧ writes (.sin h d x) (out (shape .sin (D x))) ∧
      writes (.tanh h d x) (out (shape .tanh (D x))) ∧ writes (.sclip h d x) (out (shape .sclip (D x))) ∧
      writes (.blep h d x) (out (shape .blep (D x))) ∧ writes (.blamp h d x) (out (shape .blamp (D x))) ∧
      writes (.win h d x) (out (shape .win (D x))) ∧ writes (.shpReserved h d x) (out 0)) ∧
    (∀ dst src dc sc, (COp.movx dst src dc sc).ok →
      let v := sh.getReg h.val s.blk.now sc.toNat src.toNat
      let f := sh.flights ++ [laterW sh 3 1 dc.toNat dst.toNat v]
      (dc ≠ 4 → after (.movx h dst src dc sc) ({ sh with flights := f } : Shuttle).onward) ∧
      (dc = 4 → after (.movx h dst src dc sc)
        ({ sh with flights := f, folds := sh.folds ++ [(sh.bundle + 2, dst.toNat, v)] } : Shuttle).onward)) ∧
    (∀ k i, let v : Word := i.setWidth 32
      writes (.setbl h k false i) [laterW sh 3 1 3 k.toNat v] ∧
      after (.setbl h k true i) ({ sh with
        flights := sh.flights ++ [laterW sh 3 1 4 k.toNat v], folds := sh.folds ++ [(sh.bundle + 2, k.toNat, v)] } : Shuttle).onward) ∧
    (inside →
      (∀ k t, 64 ≤ t.toNat → after (.br h k t) (sh.branchTo (if condHolds k.toNat sh.flg then some t.toNat else none))) ∧
      (∀ d t, 64 ≤ t.toNat → after (.call h d t)
        (({ sh with flights := sh.flights ++ word d (BitVec.ofNat 32 (sh.pc + 3)) } : Shuttle).branchTo (some t.toNat))) ∧
      (∀ a, 64 ≤ (D a).toNat % 8192 → after (.brd h a) (sh.branchTo (some ((D a).toNat % 8192)))) ∧
      (∀ n, n.toNat ≤ 1024 → after (.rep h n) (sh.repeatNext n.toNat)) ∧
      (∀ a, after (.repd h a) (sh.repeatNext (min 1024 (D a).toNat)))) ∧
    (free → sh.levels < 2 →
      (∀ n o, after (.loop h n o) (sh.openLoop n.toNat o.toNat)) ∧
      (∀ a o, after (.loopd h a o) (sh.openLoop ((D a).toNat % 65536) o.toNat))) ∧
    (sh.rep = none → (∀ n, sh.xfers.length ≤ n.toNat → writes (.waitl h n) []) ∧
      (∀ n, sh.xfers.length ≤ 8 → ∃ t, exec (.waitl h n) s = .next t ∧
        (t.blk.shuttle h.val).xfers = sh.xfers.drop (sh.xfers.length - n.toNat))) ∧
    (free → (∀ c, cardOf s.blk h.val = some c → c.type ≠ 5) → ∀ e, after (.done h e) { sh.onward with done := some e })) ∧
  (∀ (h : Fin 160) (s : State), s.live → s.blk.quiet → s.issues h.val → eventDue h.val s.blk = false → let sh := s.atIssue h.val
    sh.m0 = .nop → sh.m1 = .nop → sh.x = .nop → 64 ≤ sh.pc → sh.slotsLeft = 0 → sh.rep = none →
    (shtState s.blk h.val = 2 → ∀ i ∈ ([.draw h, .rte h, .done h false, .done h true] : List Instr), ∃ t, exec i s = .next t ∧
      shtState t.blk h.val = 0 ∧ (t.blk.shuttle h.val).card = none ∧ (t.blk.shuttle h.val).drawT = s.blk.now ∧
      (t.blk.shuttle h.val).d = sh.d ∧ (∀ k, k ≠ h.val → t.blk.shuttle k = s.blk.shuttle k) ∧ t.blk.mem = s.blk.mem ∧
      t.blk.alc = s.blk.alc ∧ t.blk.dlr = s.blk.dlr) ∧
    (shtState s.blk h.val = 3 → ∃ t, exec (.rte h) s = .next t ∧ shtState t.blk h.val = 1 ∧
      (t.blk.shuttle h.val).pc = sh.epc.toNat % 8192 ∧ (t.blk.shuttle h.val).flg = sh.eflg ∧ (t.blk.shuttle h.val).d = sh.d ∧
      (∀ k, k ≠ h.val → t.blk.shuttle k = s.blk.shuttle k) ∧ t.blk.mem = s.blk.mem ∧ t.blk.alc = s.blk.alc ∧ t.blk.dlr = s.blk.dlr))

/-- R245: the ALU functions: the result, and the carry, overflow and saturation flags (z, n, c, v are bits 0–3). -/
def Obligations.AluFunctions : Prop :=
  ∀ a b : Word,
    (aluOut .add a b).val = a + b ∧ ((aluOut .add a b).flags.testBit 2 = decide (2 ^ 32 ≤ a.toNat + b.toNat)) ∧
    ((aluOut .add a b).flags.testBit 3 = decide (a.toInt + b.toInt < -(2 ^ 31) ∨ 2 ^ 31 ≤ a.toInt + b.toInt)) ∧
    (aluOut .sub a b).val = a - b ∧ ((aluOut .sub a b).flags.testBit 2 = decide (b.toNat ≤ a.toNat)) ∧
    ((aluOut .sub a b).flags.testBit 3 = decide (a.toInt - b.toInt < -(2 ^ 31) ∨ 2 ^ 31 ≤ a.toInt - b.toInt)) ∧
    (aluOut .adds a b).val.toInt = max (-(2 ^ 31)) (min (2 ^ 31 - 1) (a.toInt + b.toInt)) ∧
    ((aluOut .adds a b).flags.testBit 3 = decide (a.toInt + b.toInt < -(2 ^ 31) ∨ 2 ^ 31 ≤ a.toInt + b.toInt)) ∧
    (aluOut .subs a b).val.toInt = max (-(2 ^ 31)) (min (2 ^ 31 - 1) (a.toInt - b.toInt)) ∧
    (32 ≤ b.toNat % 64 → (aluOut .shl a b).val = 0 ∧ (aluOut .shr a b).val = 0 ∧
      (aluOut .asr a b).val = if a.msb then BitVec.allOnes 32 else 0) ∧
    (b.toNat % 64 < 32 → (aluOut .shl a b).val = a <<< (b.toNat % 64) ∧ (aluOut .shr a b).val = a >>> (b.toNat % 64) ∧
      (aluOut .asr a b).val.toInt = a.toInt / 2 ^ (b.toNat % 64)) ∧
    (aluOut .and a b).val = a &&& b ∧ (aluOut .or a b).val = a ||| b ∧ (aluOut .xor a b).val = a ^^^ b ∧
    (aluOut .min a b).val.toInt = min a.toInt b.toInt ∧ (aluOut .max a b).val.toInt = max a.toInt b.toInt ∧
    (aluOut .abs a b).val.toInt = min (2 ^ 31 - 1) (a.toInt.natAbs : Int) ∧
    (aluOut .mul16 a b).val.toInt = (a.setWidth 16 : BitVec 16).toInt * (b.setWidth 16 : BitVec 16).toInt ∧
    (∀ fn, ((aluOut fn a b).flags.testBit 0 = decide ((aluOut fn a b).val = 0)) ∧ ((aluOut fn a b).flags.testBit 1 = (aluOut fn a b).val.msb)) ∧
    (∀ fn, (aluOut fn a b).mask = match fn with | .add | .sub => 15 | .adds | .subs => 11 | _ => 3)

/-- R254: an illegal bundle makes a fault with ECAUSE 5 pending, with EADDR the bundle index, unless one is pending already. -/
def Obligations.IllegalBundleFaults : Prop :=
  ∀ (h : Fin 160) (s : State), s.live → s.issues h.val → s.blk.quiet →
    let sh := (s.blk.shuttle h.val).startBundle (s.blk.shuttle h.val).bundle
    ∃ t, exec (.illegalBundle h) s = .next t ∧
      (t.blk.shuttle h.val).fault = (if sh.fault.isSome then sh.fault else some (5, BitVec.ofNat 32 sh.pc)) ∧
      (t.blk.shuttle h.val).d = sh.d ∧ (t.blk.shuttle h.val).p = sh.p ∧ (t.blk.shuttle h.val).flg = sh.flg ∧
      (t.blk.shuttle h.val).m0 = .nop ∧ (t.blk.shuttle h.val).m1 = .nop ∧ (t.blk.shuttle h.val).x = .nop ∧
      (∀ k, k ≠ h.val → t.blk.shuttle k = s.blk.shuttle k) ∧ t.blk.mem = s.blk.mem ∧ t.blk.alc = s.blk.alc ∧ t.blk.dlr = s.blk.dlr

/-! ### Mix, chain and outputs (chapters 10–12) -/

/-- R267, R358: DCH_CROM_DATA and LEG_TBL_DATA read the entry at their index, which advances by one; coefficient set 7 and taps beyond a
set's length read 0. -/
def Obligations.TableReads : Prop :=
  ((∀ (m : Master) (s : State), s.live → s.grants m.val DCH_CROM_DATA →
    let k := s.blk.get DCH_CROM_ADDR_index
    exec (.cromDataRead m) s = .next (s.on (answered m.val (coefAt (k / 1024) (k / 256 % 4) (k % 256)) fun b =>
      b.put DCH_CROM_ADDR_index (k + 1)))) ∧
  (∀ part j, coefAt 7 part j = 0) ∧ (∀ part j, coefAt 4 part j = 0) ∧
  (∀ j, 23 ≤ j → coefAt 0 0 j = 0) ∧ (∀ j, 74 ≤ j → coefAt 0 1 j = 0) ∧ (∀ j, 62 ≤ j → coefAt 3 1 j = 0) ∧ (∀ j, 9 ≤ j → coefAt 3 2 j = 0)) ∧
  (∀ (m : Master) (s : State), s.live → s.grants m.val LEG_TBL_DATA →
    exec (.legTblDataRead m) s = .next (s.on (answered m.val (BitVec.ofNat 32 (dvTable (s.blk.get LEG_TBL_ADDR_index))) fun b =>
      b.put LEG_TBL_ADDR_index (b.get LEG_TBL_ADDR_index + 1))))

/-- R284, R288, R291: a port that runs and loses its clock shows it in SAP_STAT.clk, counts it, and raises its interrupt. SAP_CTL with restart
set keeps the restart until the next frame-start edge; SAP_CFG written while the port is enabled changes auto_realign alone and sets
cfg_ign, and is taken whole while it is not; under cfg_lock it has no effect (R5). -/
def Obligations.SapCommands : Prop :=
  (∀ (n : Fin 8) (s : State), s.live → s.blk.quiet → s.blk.on (SAP_CTL_en n.val) → s.blk.on (SAP_STAT_clk n.val) →
    ∃ t, exec (.sapClockLost n) s = .next t ∧ t.blk.get (SAP_STAT_clk n.val) = 0 ∧
      t.blk.get (SAP_ERR_clk_lost n.val) = min (SAP_ERR_clk_lost n.val).max (s.blk.get (SAP_ERR_clk_lost n.val) + 1) ∧
      t.blk.get (SAP_IRQ_STAT_clk_lost n.val) = 1 ∧ (sapPort t.blk n.val).lost = true ∧
      (∀ k, k ≠ n.val → sapPort t.blk k = sapPort s.blk k) ∧ t.blk.mem = s.blk.mem ∧ t.blk.tbu = s.blk.tbu) ∧
  (∀ (m : Master) (n : Fin 8) (s : State), s.live →
    (s.grants m.val (SAP_CTL n.val) → ∀ en : Bool,
      let v := if en then 1 else 0
      -- a change of en, and a new restart, in this cycle: a frame-start edge of the same cycle does not see them
      let enT (b : Block) : Option Nat :=
        let p := sapPort b n.val
        if b.get (SAP_CTL_en n.val) = v then p.enT else if p.enT = some b.now then none else some b.now
      exec (.restart m n en) s = .next (s.on (wrote m.val fun b =>
        let p := sapPort b n.val
        (setSapPort n.val { p with enT := enT b, restartT := if b.on (SAP_CTL_restart n.val) then p.restartT else some b.now }
          (b.put (SAP_CTL_en n.val) v)).put (SAP_CTL_restart n.val) 1)) ∧
      exec (.sapEnableWrite m n en) s = .next (s.on (wrote m.val fun b =>
        setSapPort n.val { sapPort b n.val with enT := enT b } (b.put (SAP_CTL_en n.val) v)))) ∧
    (s.grants m.val (SAP_CFG n.val) → ∀ v : Word, exec (.sapCfgWrite m n v) s = .next (s.on (wrote m.val fun b =>
      if b.on SYS_CTL_cfg_lock then b
      else if b.on (SAP_CTL_en n.val) then (b.put (SAP_CFG_auto_realign n.val) (v.toNat / 4096 % 2)).put (SAP_STAT_cfg_ign n.val) 1
      else b.setNum (SAP_CFG n.val) (v.toNat % 16384)))))

/-- R299, R303: a CVO_CHn_VAL write of a channel whose source is the register waits for the channel's next period boundary, of another
is ignored and counted; CV_CLR_N asserted and released shows in CVO_STAT.clr_pin, and each edge raises its interrupt once. -/
def Obligations.CvWrites : Prop :=
  (∀ (m : Master) (n : Fin 32) (v : Word) (s : State), s.live → s.grants m.val (CVO_CH_VAL n.val) →
    exec (.cvoValWrite m n v) s = .next (s.on (wrote m.val fun b =>
      if cvSrc b n.val = 0 then
        setCvChan n.val { cvChan b n.val with val := some (v.toNat % 65536, v.getLsbD 16) } (b.put (CVO_CH_VAL_code n.val) (v.toNat % 65536))
      else (b.bump CVO_CNT_ignored).put CVO_IRQ_STAT_ignored 1))) ∧
  (∀ s : State, s.live →
    exec .cvClrNAssert s = .next (s.on fun b =>
      if b.on CVO_STAT_clr_pin then b else (b.put CVO_STAT_clr_pin 1).put CVO_IRQ_STAT_clr 1) ∧
    exec .cvClrNRelease s = .next (s.on fun b =>
      if b.on CVO_STAT_clr_pin then (b.put CVO_STAT_clr_pin 0).put CVO_IRQ_STAT_clr_rel 1 else b))

/-! ### Memories, DMA and drains (chapter 13) -/

/-- R313: a write that names a new owner makes the handover pending; when the last old access has completed, the new owner takes effect
and pending clears. A write while pending sets ign; one that names the owner in force has no effect. -/
def Obligations.BankHandover : Prop :=
  (∀ (m : Master) (n : Fin 96) (v : Word) (s : State), s.live → s.grants m.val (MEM_BANK_OWN n.val) → v.getLsbD 9 = false →
    v.toNat % 16 ≤ 8 → (n.val = 30 ∨ n.val = 31 → v.toNat % 16 ≤ 1) →
    (s.blk.on (MEM_BANK_OWN_pending n.val) →
      exec (.bankHandover m n v false) s = .next (s.on (wrote m.val fun b => b.put (MEM_BANK_OWN_ign n.val) 1))) ∧
    (¬ s.blk.on (MEM_BANK_OWN_pending n.val) → s.blk.get (MEM_BANK_OWN_owner n.val) = v.toNat % 16 →
      exec (.bankHandover m n v false) s = .next (s.on (wrote m.val id))) ∧
    (¬ s.blk.on (MEM_BANK_OWN_pending n.val) → s.blk.get (MEM_BANK_OWN_owner n.val) ≠ v.toNat % 16 →
      exec (.bankHandover m n v false) s = .next (s.on (wrote m.val fun b =>
        ((b.put (MEM_BANK_OWN_nxt n.val) (v.toNat % 16)).put (MEM_BANK_OWN_pending n.val) 1).setBit
          (MEM_BANK_STAT_pending (n.val / 32)) (n.val % 32))))) ∧
  (∀ (n : Fin 96) (s : State), s.live → s.blk.quiet → s.blk.on (MEM_BANK_OWN_pending n.val) → FMap.get (fun _ => []) s.blk.mm.held n.val = [] →
    ∃ t, exec (.handoverComplete n) s = .next t ∧ t.blk.get (MEM_BANK_OWN_owner n.val) = s.blk.get (MEM_BANK_OWN_nxt n.val) ∧
      t.blk.get (MEM_BANK_OWN_pending n.val) = 0 ∧ t.blk.mem = s.blk.mem ∧
      (∀ k : Fin 96, k ≠ n → t.blk.get (MEM_BANK_OWN_owner k.val) = s.blk.get (MEM_BANK_OWN_owner k.val)))

/-- R314: a read of the register that holds valid returns the capture and releases it; the address that it names stays. -/
def Obligations.CapturesReleased : Prop :=
  ∀ (m : Master) (s : State), s.live → s.blk.quiet →
    (s.grants m.val MEM_ECC_CAP_INFO → ∃ t, exec (.captureRegisterRead m .ecc) s = .next t ∧ t.blk.get MEM_ECC_CAP_INFO_valid = 0 ∧
      t.blk.num MEM_ECC_CAP_ADDR = s.blk.num MEM_ECC_CAP_ADDR ∧
      (FMap.get (fun _ => {}) t.blk.bus.resp m.val).data = [(s.blk.rd MEM_ECC_CAP_INFO).lo &&& 0x80FF07FF]) ∧
    (s.grants m.val MEM_NOCAP_INFO → ∃ t, exec (.captureRegisterRead m .nonOwner) s = .next t ∧ t.blk.get MEM_NOCAP_INFO_valid = 0 ∧
      (FMap.get (fun _ => {}) t.blk.bus.resp m.val).data = [(s.blk.rd MEM_NOCAP_INFO).lo &&& 0x80000F1F]) ∧
    (s.grants m.val BMX_DEFCAP_INFO → ∃ t, exec (.captureRegisterRead m .decode) s = .next t ∧ t.blk.get BMX_DEFCAP_INFO_valid = 0 ∧
      (FMap.get (fun _ => {}) t.blk.bus.resp m.val).data = [(s.blk.rd BMX_DEFCAP_INFO).lo &&& 0x8003FFFF])

/-- R334: an abort at or after a channel's completion point has no effect but abort_late; before it, the channel goes on until its
completion point, which then reports ABORTED. -/
def Obligations.DmaAborts : Prop :=
  ∀ (m : Master) (c : Fin 4) (v : Word) (s : State), s.live → s.grants m.val (BMX_DMA_CTL c.val) → v.getLsbD 0 = false →
    let plain (b : Block) := (b.put (BMX_DMA_CTL_as c.val) ((v ||| 2).toNat / 4 % 2)).put (BMX_DMA_CTL_irq c.val) ((v ||| 2).toNat / 8 % 2)
    (FMap.get (fun _ => none) s.blk.mm.dma c.val = none →
      exec (.dmaAbort m c v) s = .next (s.on (wrote m.val fun b => (plain b).put (BMX_DMA_STAT_abort_late c.val) 1))) ∧
    (∀ x, FMap.get (fun _ => none) s.blk.mm.dma c.val = some x →
      exec (.dmaAbort m c v) s = .next (s.on (wrote m.val fun b =>
        { plain b with mm := { b.mm with dma := FMap.set (fun _ => none) b.mm.dma c.val (some { x with aborted := true }) } })))

/-! ### The DV32 personality (chapter 15) -/

/-- R362: a read of POS0 of an enabled instance answers the low byte of the selected voice's position, and latches its middle and high
bytes, which POS1 and POS2 then read. -/
def Obligations.Pos0Latches : Prop :=
  ∀ (i : Fin 4) (s : State), s.live → dvOn s.blk i.val → s.blk.quiet →
    let p := dvPort s.blk i.val
    -- in the cycle of a readback update, from before it
    let pos := FMap.get (fun _ => 0) (if p.upT = some s.blk.now then p.posWas else p.pos) p.page
    ∃ t, exec (.pos0 i) s = .next t ∧ (FMap.get (fun _ => {}) t.blk.bus.resp 3).data = [BitVec.ofNat 32 (pos % 256)] ∧
      dvRead t.blk i.val 0x17 = pos / 256 % 256 ∧ dvRead t.blk i.val 0x18 = pos / 65536 % 256 ∧
      dvPort t.blk i.val = { p with shadow := pos / 256 } ∧ (∀ k, k ≠ i.val → dvPort t.blk k = dvPort s.blk k) ∧ t.blk.mem = s.blk.mem

/-! ### The host and the mailbox (chapter 16) -/

/-- R400, R401: a claim is granted while the command is busy and the firmware runs; a command not taken in time is completed with BUSY,
once, and its result stands in the slot that did not hold the last one. -/
def Obligations.MailboxClaims : Prop :=
  ∀ (s : State) (m : MbCmd), s.live → s.blk.sys.mb = some m →
    (s.blk.sys.mpDown = false → exec .commandClaim s = .next (s.on (setMb (some { m with claimed := true })))) ∧
    (m.claimed = true → exec .mailboxTimeout s = .next (s.on id)) ∧
    (m.claimed = false → s.blk.quiet → ∃ t, exec .mailboxTimeout s = .next t ∧ t.blk.sys.mb = none ∧ t.blk.get XCH_MB_STAT_busy = 0 ∧
      t.blk.get XCH_MB_STAT_ready = 1 ∧ t.blk.get XCH_MB_STAT_seq = m.seq % 65536 ∧
      t.blk.get XCH_MB_STAT_slot = (1 - s.blk.get XCH_MB_STAT_slot) % 2 ∧
      Memory.num t.blk.mem (mbResultBase (1 - s.blk.get XCH_MB_STAT_slot) + 4) 2 = 1)

/-- R396: HIF_DB_STAT.clr empties the partly written doorbell slots without taking them: nothing waits that did not. -/
def Obligations.DoorbellCleared : Prop :=
  ∀ (m : Master) (v : Word) (s : State), s.live → s.grants m.val HIF_DB_STAT → s.blk.quiet → v.getLsbD 9 = true →
    ∃ t, exec (.doorbellClear m v) s = .next t ∧ t.blk.sys.doorbell = [] ∧ t.blk.efe = s.blk.efe ∧ t.blk.mem = s.blk.mem ∧
      (∀ a, a ≠ CVO_STAT → t.blk.rd a = s.blk.rd a)

/-! ### Power, reliability and security (chapters 17, 18) -/

/-- R431, R432: a device alert of the DRAM enters the chip safe state with cause 4; when the state is already in force with another cause,
that stays and the later one is counted. Picks are held either way. -/
def Obligations.FirstCauseStays : Prop :=
  ∀ s : State, s.live → s.blk.quiet →
    ∃ t, exec .dramAlert s = .next t ∧ t.blk.on REL_STAT_safe = true ∧ Hold.safe ∈ t.blk.tbu.holds ∧ t.blk.get CVO_STAT_safe = 1 ∧
      t.blk.mem = s.blk.mem ∧ t.blk.alc = s.blk.alc ∧
      (s.blk.on REL_STAT_safe = false → t.blk.get REL_STAT_cause = 4 ∧ t.blk.on REL_IRQ_STAT_safe = true) ∧
      (s.blk.on REL_STAT_safe = true → t.blk.get REL_STAT_cause = s.blk.get REL_STAT_cause ∧
        t.blk.get REL_CNT_safe = if s.blk.get REL_STAT_cause = 4 then s.blk.get REL_CNT_safe else min 15 (s.blk.get REL_CNT_safe + 1))

/-- R430: a write of REL_CTL.unquar releases its looms at the next pick boundary, and they stay quarantined until then. -/
def Obligations.UnquarantineWaits : Prop :=
  ∀ (m : Master) (v : Word) (s : State), s.live → s.grants m.val REL_CTL → s.blk.quiet →
    ∃ t, exec (.unquarantine m v) s = .next t ∧ (∀ l, l < 4 → v.toNat.testBit l → l ∈ t.blk.rel.unquarNext) ∧
      (∀ l ∈ s.blk.rel.unquarNext, l ∈ t.blk.rel.unquarNext) ∧ t.blk.get DLR_STAT_quar = s.blk.get DLR_STAT_quar ∧ t.blk.mem = s.blk.mem

/-- R442: a nonce that expires is no longer valid, and SEC_NONCE0–3 read 0; a submit while the lockout runs, or after 16 refused
responses, is refused unexamined with result 3: no scope opens and none is counted. One that is examined opens its scopes when the response
matches, and else counts and starts the lockout; either way the nonce of method 1 is used up (R441). -/
def Obligations.UnlockGuarded : Prop :=
  (∀ s : State, s.live → s.blk.quiet → ∃ t, exec .nonceExpire s = .next t ∧ t.blk.sec.nonce = false ∧ (∀ k, k < 4 → t.blk.num (SEC_NONCE k) = 0) ∧
    t.blk.mem = s.blk.mem) ∧
  (∀ (m : Master) (v : Word) (s : State), s.live → s.grants m.val SEC_UNLK → s.blk.quiet → v.getLsbD 9 = true → v.getLsbD 8 = false →
    (s.blk.sec.lockout = true ∨ 16 ≤ s.blk.sec.fails) →
    ∃ t, exec (.submit m v) s = .next t ∧ t.blk.get SEC_UNLK_result = 3 ∧ t.blk.get SEC_STAT_opn = s.blk.get SEC_STAT_opn ∧
      t.blk.sec = s.blk.sec) ∧
  (∀ (m : Master) (v : Word) (s : State), s.live → s.grants m.val SEC_UNLK → s.blk.quiet → v.getLsbD 9 = true → v.getLsbD 8 = false →
    s.blk.sec.lockout = false → s.blk.sec.fails < 16 →
    (s.blk.get SEC_STAT_method = 1 ∧ s.blk.sec.nonce = true) ∨ s.blk.get SEC_STAT_method = 2 →
    let b := s.blk.put SEC_UNLK_scope (v.toNat % 8)
    ∃ t, exec (.submit m v) s = .next t ∧ t.blk.get SEC_UNLK_scope = v.toNat % 8 ∧ t.blk.mem = s.blk.mem ∧
      (s.blk.get SEC_STAT_method = 1 → t.blk.sec.nonce = false) ∧
      (responseMatches b = true → t.blk.get SEC_UNLK_result = 1 ∧ t.blk.get SEC_STAT_opn = s.blk.get SEC_STAT_opn ||| (v.toNat % 8) ∧
        t.blk.get SEC_IRQ_STAT_unlock = 1 ∧ t.blk.sec.fails = s.blk.sec.fails ∧ t.blk.sec.lockout = false) ∧
      (responseMatches b = false → t.blk.get SEC_UNLK_result = 2 ∧ t.blk.get SEC_STAT_opn = s.blk.get SEC_STAT_opn ∧
        t.blk.get SEC_IRQ_STAT_refused = 1 ∧ t.blk.sec.fails = s.blk.sec.fails + 1 ∧ t.blk.sec.lockout = true)) ∧
  (∀ s : State, exec .lockoutEnd s = .next (s.on fun b => { b with sec := { b.sec with lockout := false } }))

/-- R438: a failing health test sets SEC_STAT.trng_fail and stops the output, and samples that pass start it again. -/
def Obligations.TrngHealth : Prop :=
  ∀ s : State, s.live →
    exec .trngHealthFail s = .next (s.on fun b =>
      (((b.put SEC_STAT_trng_fail 1).put SEC_TRNG_STAT_ready 0).bump SEC_TRNG_STAT_health_fails).put SEC_IRQ_STAT_trng 1) ∧
    (s.blk.on SEC_STAT_trng_fail → exec .trngRecovery s = .next (s.on fun b => (b.put SEC_STAT_trng_fail 0).put SEC_TRNG_STAT_ready 1))

/-- R446: loading EXTEST, CLAMP, HIGHZ or a boundary train while the compute die runs and is not in recovery first enters the chip safe
state with cause 7; in reset it takes the pins without it. TRST_N resets the TAP to IDCODE, in reset too. -/
def Obligations.JtagTakesPins : Prop :=
  (∀ (code : Byte) (s : State), code = 0 ∨ (3 ≤ code ∧ code ≤ 6) → s.blk.quiet →
    ∃ t, exec (.jtagInstructionLoad code) s = .next t ∧ t.blk.sec.tap = code ∧ t.blk.mem = s.blk.mem ∧
      (s.live → s.blk.on SYS_STAT_recovery = false → s.blk.on REL_STAT_safe = false →
        t.blk.on REL_STAT_safe = true ∧ t.blk.get REL_STAT_cause = 7) ∧
      (¬ s.live → t.blk.get REL_STAT_safe = s.blk.get REL_STAT_safe ∧ t.blk.tbu = s.blk.tbu)) ∧
  (∀ s : State, exec .trstN s = .next (s.on fun b => { b with sec := { b.sec with tap := 2 } }))

/-! ### Where each command has its own effect

The statements below say of the commands of a family under which conditions on the state and the operands each has the effect of its
own, and what that effect is. -/

/-- The time base's commands: a reference frame edge (R30); the entry of HOLDOVER 1.5 nominal periods after the last edge, its frames at
the last measured period, and its end (R30); the reference selection (R29); a tempo edge that lies between two frame edges (R34, R36) and
the timeout (R38); a compare's selection, which disarms (R43); a TRANSPORT's neighbours are TempoClamped's and LocateTakesEffect's. -/
def Obligations.TimeCommands : Prop :=
  (∀ (t : Long) (s : State), s.live →
    let b := advanceTo t.toNat s.blk
    exec (.referenceFrameEdge t) s = .next (s.on fun c => refEdge none t.toNat (advanceTo t.toNat c)) ∧
    (∀ last, b.tbu.edgeT = some last → b.get TBU_REF_STAT_state = 1 → 3000000000 ≤ 2 * since last t.toNat * b.fs →
      let x := frameEdge t.toNat (enterState 2 (setTbu (fun u => { u with holdT := t.toNat, holdK := 1 }) b))
      exec (.holdoverEntry t) s = .next (s.on fun _ => if holdMsRef x = 0 then pauseNow x else x)) ∧
    (∀ last, b.tbu.edgeT = some last → b.get TBU_REF_STAT_state = 2 ∨ (b.get TBU_REF_STAT_state = 3 ∧ b.tbu.drain.isSome) →
      (b.tbu.holdK + 1) * (period b).1 ≤ since last t.toNat * (period b).2 →
      exec (.holdoverFrame t) s = .next (s.on fun _ => frameEdge t.toNat (setTbu (fun u => { u with holdK := b.tbu.holdK + 1 }) b))) ∧
    (b.get TBU_REF_STAT_state = 2 → holdMsRef b * 1000000 ≤ since b.tbu.holdT t.toNat →
      exec (.holdoverTimeout t) s = .next (s.on fun _ => pauseNow b))) ∧
  (∀ (m : Master) (v : Word) (s : State), s.live → s.grants m.val TBU_REF_CFG →
    exec (.refCfgWrite m v) s = .next (s.on (wrote m.val (Machine.refCfgWrite v)))) ∧
  (∀ (t next : Long) (phi : Nat) (s : State), s.live → s.blk.get TBU_TEMPO_CFG_src = 1 → phiOf s.blk t.toNat next.toNat = some phi →
    exec (.tempoEdge t next) s = .next (s.on (tempoPulse phi (pulseValue s.blk 1) none))) ∧
  (∀ s : State, s.live → internalTempo s.blk = false → s.blk.tbu.rhoI ≠ 0 →
    (let tmo := if s.blk.get TBU_TEMPO_CFG_tmo ≤ 8 then 12 else s.blk.get TBU_TEMPO_CFG_tmo
     tmo * s.blk.tbu.delta * 2 ^ 24 ≤ (s.blk.sample * 2 ^ 24 - s.blk.tbu.lastPhi) * 8 * s.blk.tbu.rhoI) →
    exec .tempoTimeout s = .next (s.on tempoHold)) ∧
  (∀ (m : Master) (n : Fin 16) (v : Word) (s : State), s.live → s.grants m.val (TBU_CMP_CFG n.val) →
    exec (.compareCfgWrite m n v) s = .next (s.on (wrote m.val fun b =>
      (b.put (TBU_CMP_CFG_cnt n.val) (v.toNat % 4)).put (TBU_CMP_CFG_armed n.val) 0)))

/-- The commands of event entry: the item that has waited longest gives its last event, whose code its status then holds (R61–R63); a
GPIO edge starts its bindings' debounce, whose end issues the template of a changed level (R78); the firmware's events (R61) and the MPE
zones (R73). -/
def Obligations.EntryCommands : Prop :=
  (∀ (s : State) (src n : Nat) (e : Ev) (code : Nat) (quiet : Bool) (t : Nat) (rest : List Item), s.live →
    s.blk.efe.waiting = ⟨src, some n, [e], code, quiet, t⟩ :: rest → src ≠ 9 →
    let a := acceptEvent src (some n) e s.blk
    let b := noteLegacy e a.1 a.2
    exec .eventEntry s = .next (s.on fun _ => writeStatus src n (max code a.1) quiet { b with efe := { b.efe with waiting := rest } })) ∧
  (∀ (pin : Fin 24) (level : Bool) (t : Long) (s : State), s.live →
    exec (.gpioEdge pin level t) s = .next (s.on fun b => (List.range 8).foldl (fun acc i =>
      if acc.get (EFE_GPB_CFG_pin i) = pin.val then
        if acc.on (EFE_GPB_CFG_en i) then
          setGpio i { timing := true, level := level, t0 := t.toNat, frame := acc.sample
                      stable := if (gpioOf acc i).timing then (gpioOf acc i).stable else !level } acc
        else setGpio i { gpioOf acc i with timing := false } acc
      else acc) (advanceTo t.toNat b))) ∧
  (∀ (i : Fin 8) (t : Long) (s : State), s.live →
    let b := advanceTo t.toNat s.blk
    let d := gpioOf b i.val
    d.timing = true → b.on (EFE_GPB_CFG_en i.val) → d.t0 + b.get (EFE_GPB_CFG_debounce i.val) * 1000000 ≤ t.toNat →
    d.level ≠ d.stable → b.get LEG_CTL_en = 0 →
    let e := if d.level != b.on (EFE_GPB_CFG_invert i.val) then templateEv (b.num (EFE_GPB_PRESS0 i.val)) (b.num (EFE_GPB_PRESS1 i.val))
      else templateEv (b.num (EFE_GPB_REL0 i.val)) (b.num (EFE_GPB_REL1 i.val))
    e.op ≠ 0 →
    let x := e.at (arrivalTime b 8 d.frame)
    exec (.gpioDebounceExpire i t) s = .next (s.on fun _ =>
      submitNative 8 { x with head := x.head ||| BitVec.ofNat 16 (bitsOf e.head.toNat 7 4 * 16) }
        (setGpio i.val { d with timing := false, stable := d.level } b))) ∧
  (∀ (e : BitVec 128) (s : State), s.live → s.blk.sys.mpDown = false → srcOn s.blk 9 → s.blk.efe.mpWait = [] →
    queueFill s.blk 9 < queueRoom 9 → exec (.mpEvent e) s = .next (s.on (submitNative 9 (Ev.ofNat e)))) ∧
  (∀ (m : Master) (g : Fin 20) (v : Word) (s : State), s.live → s.grants m.val (EFE_MPE g.val) →
    exec (.mpeWrite m g v) s = .next (s.on (wrote m.val fun b =>
      (b.put (EFE_MPE_lower g.val) (v.toNat % 16)).put (EFE_MPE_upper g.val)
        (min (v.toNat / 256 % 16) (14 - min 14 (v.toNat % 16))))))

/-- The MIDI 1.0 messages (R66–R71) of an enabled input. A channel message sets running status and submits its events; on a channel with
a part that is no member channel those are R68's. A system message disturbs no running status when it is real-time, clears it otherwise,
and submits its events; 0xFE arms the timeout of an input with asense, which then silences the parts of the input. -/
def Obligations.MidiMessages : Prop :=
  (∀ (n : Fin 4) (ch : Fin 16) (t : Long) (s : State), s.live → srcOn s.blk n.val →
    let item (st d1 d2 : Nat) : Host.Outcome State Fault Refusal := .next (s.on fun b =>
      let b1 := setSynced n.val (setRunning n.val (st * 16 + ch.val) (touchSense n.val t.toNat (advanceTo t.toNat b)))
      let r := channelMsg n.val st ch.val d1 d2 b1
      submitMsg n.val r.1 (arrivalTime b1 n.val b1.sample) b1 r.2)
    (∀ key vel, exec (.midiNoteOff n ch key vel false t) s = item 8 key.toNat vel.toNat ∧
      exec (.midiNoteOff n ch key vel true t) s = item 9 key.toNat 0 ∧ exec (.midiNoteOn n ch key vel t) s = item 9 key.toNat vel.toNat ∧
      exec (.midiPolyPressure n ch key vel t) s = item 10 key.toNat vel.toNat) ∧
    (∀ cc v, exec (.midiControlChange n ch cc v t) s = item 11 cc.toNat v.toNat) ∧
    (∀ p, exec (.midiProgramChange n ch p t) s = item 12 p.toNat 0 ∧ exec (.midiChannelPressure n ch p t) s = item 13 p.toNat 0) ∧
    (∀ lsb msb, exec (.midiPitchBend n ch lsb msb t) s = item 14 lsb.toNat msb.toNat)) ∧
  (∀ (b : Block) (g c p d1 d2 : Nat), chanOf b g c = ⟨some p, false⟩ →
    (channelMsg g 8 c d1 d2 b).1 = { evs := [keyEv 2 p d1 (scaleUp 7 16 d2) 0] } ∧
    (channelMsg g 9 c d1 d2 b).1 = { evs := [if d2 = 0 then keyEv 2 p d1 0x8000 0 else keyEv 1 p d1 (scaleUp 7 16 d2) 0] } ∧
    (channelMsg g 10 c d1 d2 b).1 = { evs := [keyEv 3 p d1 (scaleUp 7 16 d2) 0] } ∧
    (channelMsg g 13 c d1 d2 b).1 = { evs := [.mk' 4 0 0 p (scaleUp 7 24 d1 + 128 * 2 ^ 24)] } ∧
    (channelMsg g 14 c d1 d2 b).1 = { evs := [.mk' 6 0 0 p (scaleUp 14 16 (d2 * 128 + d1))] } ∧
    (channelMsg g 11 c 64 d2 b).1 = { evs := [.mk' 0x12 0 0 p (scaleUp 7 16 d2 * 65536)] } ∧
    (channelMsg g 11 c 1 d2 b).1 = { evs := [.mk' 4 0 0 p (scaleUp 7 24 d2 + 2 ^ 24)] }) ∧
  (∀ (n : Fin 4) (t : Long) (s : State), s.live → srcOn s.blk n.val →
    let seen (b : Block) : Block := setSynced n.val (touchSense n.val t.toNat (advanceTo t.toNat b))
    let sends (common : Bool) (evs : List Ev) : Host.Outcome State Fault Refusal := .next (s.on fun b =>
      let b1 := if common then setRunning n.val 0 (seen b) else seen b
      submit n.val true (evs.map (Ev.at (arrivalTime b1 n.val b1.sample))) 0 false b1)
    exec (.midiStart n t) s = sends false [locateEv 0, transportEv 1] ∧ exec (.midiContinue n t) s = sends false [transportEv 1] ∧
    exec (.midiStop n t) s = sends false [transportEv 0] ∧
    (∀ lsb msb, exec (.midiSongPositionPointer n lsb msb t) s = sends true [locateEv ((msb.toNat * 128 + lsb.toNat) * 64)]) ∧
    (∀ byte : Byte, exec (.midiIgnoredSystem n byte t) s = .next (s.on fun b =>
      if byte.toNat < 0xF8 then setRunning n.val 0 (seen b) else seen b)) ∧
    (∀ bytes, exec (.midiSystemExclusive n bytes t) s = .next (s.on fun b =>
      syxReach (syxPush n.val bytes (setRunning n.val 0 (seen b))))) ∧
    (∀ next : Long, s.blk.get TBU_TEMPO_CFG_midi = n.val → exec (.midiTimingClock n t next) s = .next (s.on fun b =>
      Machine.tempoEdge 2 t.toNat next.toNat none (pulseValue (seen b) 2) (seen b))) ∧
    (s.blk.on (EFE_MIDI_CFG_asense n.val) → exec (.midiActiveSensing n t) s = .next (s.on fun b =>
      let b1 := setSynced n.val (advanceTo t.toNat b)
      { b1 with efe := { b1.efe with sense := FMap.set (fun _ => 0) b1.efe.sense n.val (t.toNat + 1) } })) ∧
    (∀ armed, FMap.get (fun _ => 0) s.blk.efe.sense n.val = armed + 1 → armed + 300000000 ≤ t.toNat → s.blk.on (EFE_MIDI_CFG_asense n.val) →
      exec (.activeSensingTimeout n t) s = .next (s.on fun b0 =>
        let b := advanceTo t.toNat b0
        (partsOfInput b n.val).foldl (fun acc p =>
          submit n.val false [(Ev.mk' 0x0B 0 0 p 0).at (arrivalTime b n.val b.sample)] 0 false acc)
          { b with efe := { b.efe with sense := FMap.set (fun _ => 0) b.efe.sense n.val 0 } })))

/-- The UMP messages (R74–R76) of an enabled UMP source. A message takes the time that its group's JR Timestamp left, or that of its
arrival, and submits its events; on a channel with a part that is no member channel those are R75's. JR Clock and JR Timestamp set the time;
a SysEx message enters the firmware's queue; a message type, status or index that the engine does not serve gets REJ_FORMAT. -/
def Obligations.UmpMessages : Prop :=
  ∀ (src : UmpSrc) (g ch : Fin 16) (s : State), s.live → umpOn s.blk src.num →
    let item (f : Block → Msg × Block) : Host.Outcome State Fault Refusal := .next (s.on fun b =>
      let u := umpTime src.num g.val b
      let r := f u.2
      submitMsg src.num r.1 u.1 u.2 r.2)
    let b := (umpTime src.num g.val s.blk).2
    let sends (evs : List Ev) : Host.Outcome State Fault Refusal := item fun x => ({ evs := evs }, x)
    let format : Host.Outcome State Fault Refusal := item fun x => ({ code := 5 }, x)
    (∀ st d1 d2, exec (.umpMidi1ChannelVoice src g st ch d1 d2) s = item (channelMsg (4 + g.val) st.toNat ch.val d1.toNat d2.toNat)) ∧
    (∀ nrpn bank index v, exec (.umpRpnNrpn src g ch nrpn bank index v) s =
      item (umpRpn (4 + g.val) ch.val nrpn bank.toNat index.toNat v.toNat)) ∧
    (∀ p, chanOf b (4 + g.val) ch.val = ⟨some p, false⟩ →
      (∀ key vel, exec (.umpNoteOff src g ch key vel) s = sends [keyEv 2 p key.toNat vel.toNat 0]) ∧
      (∀ key vel attr, exec (.umpNoteOn src g ch key vel 0 attr) s = sends [keyEv 1 p key.toNat vel.toNat 0] ∧
        exec (.umpNoteOn src g ch key vel 3 attr) s = sends [keyEv 1 p key.toNat vel.toNat 0 (.pitch attr)]) ∧
      (∀ key v, exec (.umpPolyPressure src g ch key v) s = sends [keyEv 3 p key.toNat (v.toNat / 2 ^ 16) 0] ∧
        exec (.umpPerNotePitchBend src g ch key v) s = sends [keyEv 7 p key.toNat (v.toNat / 2 ^ 16) 0]) ∧
      (∀ assignable key index v, (index : Byte).toNat ≤ 127 → exec (.umpPerNoteController src g ch assignable key index v) s =
        sends [keyEv 5 p key.toNat (v.toNat / 2 ^ 16 + (index.toNat + if assignable then 128 else 0) * 2 ^ 24) 0]) ∧
      (∀ cc v, exec (.umpControlChange src g ch cc v) s = sends [.mk' 4 0 0 p (v.toNat / 2 ^ 8 + cc.toNat * 2 ^ 24)]) ∧
      (∀ v, exec (.umpChannelPressure src g ch v) s = sends [.mk' 4 0 0 p (v.toNat / 2 ^ 8 + 128 * 2 ^ 24)] ∧
        exec (.umpPitchBend src g ch v) s = sends [.mk' 6 0 0 p (v.toNat / 2 ^ 16)]) ∧
      (∀ prog msb lsb, (msb.toNat * 128 + lsb.toNat) * 128 + prog.toNat < 4096 → exec (.umpProgramChange src g ch prog true msb lsb) s =
        sends [.mk' 8 0 0 p ((msb.toNat * 128 + lsb.toNat) * 128 + prog.toNat)]) ∧
      (∀ key detach reset, exec (.umpPerNoteManagement src g ch key detach reset) s =
        sends [.mk' 4 0 0 p 0 (.manage key.toNat reset detach)])) ∧
    (∀ nrpn bank index v, exec (.umpRelativeRpnNrpn src g ch nrpn bank index v) s = format) ∧
    (∀ key, exec (.umpStatus7 src g ch key) s = format) ∧
    (∀ mt : BitVec 4, mt ≠ 0xF → exec (.umpUnsupportedType src g mt) s = .next (s.on fun x =>
      submit src.num true [] 5 false ((umpTime src.num g.val x).2.bump EFE_CNT_ump_unsup))) ∧
    (∀ (t : Long) (d1 d2 : BitVec 7), umpOn (advanceTo t.toNat s.blk) src.num →
      exec (.umpSystem src g 0xFA d1 d2 t) s = .next (s.on fun x =>
        let u := umpTime src.num g.val (advanceTo t.toNat x)
        submitMsg src.num { evs := [locateEv 0, transportEv 1] } u.1 u.2 u.2)) ∧
    (∀ c, exec (.umpJrClock src c) s = .next (s.on fun x =>
      { x with efe := { x.efe with jrClock := FMap.set (fun _ => none) x.efe.jrClock src.num (some ⟨x.sample, c.toNat⟩) } })) ∧
    (∀ stamp k, jrClockOf s.blk src.num = some k → exec (.umpJrTimestamp src g stamp) s = .next (s.on fun x =>
      let d := (stamp.toNat + 65536 - k.c % 65536) % 65536
      let at' := k.frame + (2 * d * x.fs + 31250) / 62500 + x.get (EFE_SRC_CFG_delay src.num)
      { x with efe := { x.efe with jrTime := FMap.set (fun _ => none) x.efe.jrTime (src.num * 16 + g.val) (some at') } })) ∧
    (∀ bytes, exec (.umpDataSysex src g bytes) s = .next (s.on fun x =>
      syxReach (syxPush src.num ([0xF0] ++ bytes ++ [0xF7]) (umpTime src.num g.val x).2)))

/-- The Dealer's commands: the cards of a pick are created once, after its events (R87, R140); a card is delivered to the oldest shuttle
in DRAW that has a selectable one, or bad parity enters the chip safe state (R91, R92, R431); a cancel takes effect at a permitted point
(R106); the end of a snapshot writes it whole and sets seq, ready and the interrupt in one cycle (R108); a template's copy (R170). -/
def Obligations.DealerCommands : Prop :=
  (∀ (hk : List HkRequest) (s : State), s.live → s.blk.on DLR_STAT_running → s.blk.tbu.started = true →
    s.blk.dlr.createdPick ≠ s.blk.pickNo + 1 →
    exec (.cardCreateFor hk) s = .next (s.on fun b =>
      let b1 := createLooms hk ((List.range 32).foldl (fun acc h => createHarness h hk acc) b)
      let b2 := (List.range 4).foldl (fun acc l => checkGate l (acc.dlr.pickT + 192 + (planOn acc l).length - 1) acc)
        { b1 with dlr := { b1.dlr with applies := [], createdPick := b1.pickNo + 1 } }
      answerQuery { b2 with alc := { b2.alc with step2Done := true } })) ∧
  (∀ (h : Fin 32) (t : Long) (s : State), s.live →
    exec (.cardSelect h t true) s = .next (s.on fun b => safeEntry 2 h.val (advanceTo t.toNat b)) ∧
    (∀ sh c, let b := advanceTo t.toNat s.blk
      selected b h.val t.toNat = false → selection b h.val t.toNat = some (sh, c) →
      (c.deck = h.val ∨ losesLoom b h.val c.deck t.toNat = false) →
      exec (.cardSelect h t false) s = .next (s.on fun _ => deliver sh c (noteWait c t.toNat (noteDepth c.deck c.level t.toNat
        (noteSelected c.deck t.toNat (noteSelected h.val t.toNat b))))))) ∧
  (∀ (h : Fin 160) (t : Long) (c : Card) (s : State), s.live →
    let b := advanceTo t.toNat s.blk
    cardOf b h.val = some c → c.cancelled t.toNat → shtState b h.val = 1 → (b.shuttle h.val).done = none → permitted b h.val →
    exec (.cancelAtPermittedPoint h t) s = .next (s.on fun _ => enterDraw h.val t.toNat (failCard h.val c .cancelled t.toNat b))) ∧
  (∀ (a : Nat) (image : List Byte) (s : State), s.live → s.blk.dlr.snap = some (a, image) →
    exec .snapshotDone s = .next (s.on fun b =>
      let b1 := { b with
        mem := Memory.setBytes b.mem a image
        dlr := { b.dlr with snap := none } }
      (((b1.put DLR_SNAP_STAT_seq (b1.get DLR_SNAP_STAT_seq + 1)).put DLR_SNAP_STAT_ready 1).put DLR_SNAP_STAT_pending 0).flag
        DLR_IRQ_STAT_snap_ready)) ∧
  (∀ (v : Fin 8192) (s : State), s.live → (s.blk.voice v.val).st ≠ .free → (s.blk.voice v.val).copied = false →
    exec (.templateCopyDone v) s = .next (s.on fun b =>
      mirroredPnv v.val b.pickNo b.alc.mirror (mirroredPnv v.val (b.pickNo - 1) b.alc.lastMirror
        (({ b with mem := Memory.setBytes b.mem (ctxBase v.val) (b.templateBytes (b.voice v.val).template) }).setVoice v.val
          { b.voice v.val with
            copied := true, undo := (b.voice v.val).undo.filter fun u => match u.what with | .param _ => false | _ => true }))))

/-- Notes and voices beside the released events: a pooled note's layers are booked without stealing, and what is not placed passes to the
next member (R137, R138); a bus's writes that waited are made when no card of it is in service (R261); a voice's last window arrives
(R159); the firmware serves the tuning messages of its queue (R148). -/
def Obligations.VoiceCommands : Prop :=
  (∀ (q : Pooled) (s : State), s.live → s.blk.alc.pooled.find? (·.booking) = some q →
    let r := bookNote (noteOf q.ev) q.ev.ev.ext q.nt (offsetIn s.blk (q.ev.frame.getD 0) q.nt) q.left s.blk
    let left := q.left.filter fun i => !r.placed.contains i
    let b2 := setPooled (r.blk.alc.pooled.map fun x => if x.ev.stamp = q.ev.stamp then
      { q with booking := false, left := left, booked := r.placed, note := r.note, passed := !left.isEmpty } else x) r.blk
    (monoBusy s.blk q.ev.ev.part = false → exec .booking s = .next (s.on fun _ =>
      if left.isEmpty then b2
      else wsend (.pass (nextMember b2 (poolOf b2 q.ev.ev.part) (nodeId b2)) 0 (passMsg b2 q left)) (b2.bump VAL_CNT3_pass_out))) ∧
    (monoBusy s.blk q.ev.ev.part = true → exec .booking s = .next (s.on (unpool q.ev.stamp)))) ∧
  (∀ (l : Fin 4) (bus : Fin 256) (s : State), s.live → busInService s.blk l.val bus.val = false →
    exec (.busParamDeferredWrite l bus) s = .next (s.on fun b =>
      (b.mix.deferred.filter fun x => x.1 == l.val && x.2.1 == bus.val).foldl (fun acc x => busParamWrite l.val bus.val x.2.2.1 x.2.2.2 acc)
        { b with mix := { b.mix with deferred := b.mix.deferred.filter fun x => !(x.1 == l.val && x.2.1 == bus.val) } })) ∧
  (∀ (v : Fin 8192) (s : State), s.live → (s.blk.voice v.val).st ≠ .free → windowsWait s.blk v.val = false → fetchedBefore s.blk v.val = false →
    (s.blk.voice v.val).winPick < max s.blk.pickNo (s.blk.voice v.val).startPick + 1 →
    exec (.windowArrival v) s = .next (s.on fun b => b.setVoice v.val
      { b.voice v.val with winPick := max b.pickNo (b.voice v.val).startPick + 1 })) ∧
  (∀ s : State, s.live →
    (∀ t keys b, syxTake s.blk = some (.bulk t keys, b) → exec .mtsBulkDump s = .next (s.on fun _ => tuningWrite t keys false b)) ∧
    (∀ t keys retune b, syxTake s.blk = some (.notes t keys retune, b) →
      exec .mtsSingleNoteChange s = .next (s.on fun _ => tuningWrite t keys retune b)) ∧
    (∀ t b, syxTake s.blk = some (.request t, b) →
      exec .mtsBulkDumpRequest s = .next (s.on fun _ => setSys (fun x => { x with midiTx := x.midiTx ++ [mtsDump b t] }) b))) ∧
  (∀ (src : Nat) (bytes : List Byte) (rest : List (Nat × List Byte)) (s : State), s.live → s.blk.quiet → s.blk.sys.mpDown = false →
    s.blk.sys.syx = (src, bytes) :: rest →
    (∀ t keys, mtsOf (s.blk.get SYS_CFG_dev_id) bytes = .bulk t keys → ∃ u, exec .mtsBulkDump s = .next u ∧
      u.blk.alc = { s.blk.alc with tuningNext := s.blk.alc.tuningNext ++ keys.map fun kv => (t, kv.1, kv.2, false) } ∧
      u.blk.sys.midiTx = s.blk.sys.midiTx ∧ u.blk.mem = s.blk.mem) ∧
    (∀ t keys retune, mtsOf (s.blk.get SYS_CFG_dev_id) bytes = .notes t keys retune → ∃ u, exec .mtsSingleNoteChange s = .next u ∧
      u.blk.alc = { s.blk.alc with tuningNext := s.blk.alc.tuningNext ++ keys.map fun kv => (t, kv.1, kv.2, retune) } ∧
      u.blk.sys.midiTx = s.blk.sys.midiTx ∧ u.blk.mem = s.blk.mem) ∧
    (∀ t, mtsOf (s.blk.get SYS_CFG_dev_id) bytes = .request t → ∃ u, exec .mtsBulkDumpRequest s = .next u ∧
      u.blk.sys.midiTx = s.blk.sys.midiTx ++ [mtsDump s.blk t] ∧ u.blk.alc = s.blk.alc ∧ u.blk.mem = s.blk.mem))

/-- What happens to a shuttle: the oldest transfer completes (R217); a parity error makes a fault pending (R227, R425); DONE is accepted
(R230); a send bank has drained (R218); the fence expires, and completes its card at a permitted point (R95, R226); a fault completes its
card and enters the handler (R227); a handler whose fence expires halts its shuttle, which is retired (R227, R425); a tap is asked for and
taken (R228). -/
def Obligations.ShuttleEvents : Prop :=
  (∀ (h : Fin 160) (s : State), s.live →
    (∀ x rest, (s.blk.shuttle h.val).xfers = x :: rest → x.ecc = .clean → exec (.ldlStlComplete h) s = .next (s.on fun b =>
      let l := loomBase (h.val / 40) + x.loom
      let p := privBase h.val + (x.priv - 0x180000)
      { b.setShuttle h.val { b.shuttle h.val with xfers := rest } with
        mem := if x.store then Memory.setBytes b.mem l (Memory.bytes b.mem p x.size)
          else Memory.setBytes b.mem p (Memory.bytes b.mem l x.size) })) ∧
    (s.issues h.val → exec (.registerFileParityError h) s = .next (s.on fun b =>
      pendFault h.val 4 (BitVec.ofNat 32 (b.shuttle h.val).pc) b)) ∧
    (∀ k : Fin 2, exec (.sendDrainEnd h k) s = .next (s.on fun b =>
      let sh := b.shuttle h.val
      b.setShuttle h.val { sh with
        banks := FMap.set (fun _ => {}) sh.banks k.val { (FMap.get (fun _ => {}) sh.banks k.val) with draining := false } })) ∧
    (shtState s.blk h.val = 2 → (s.blk.shuttle h.val).fence = 0 → exec (.handlerOverrun h) s = .next (s.on fun b =>
      let pc : Word := BitVec.ofNat 32 (b.shuttle h.val).pc
      let b1 := (((b.setShuttle h.val { b.shuttle h.val with ecause := 7, eaddr := pc }).put (SHT_SSTAT_state h.val) 4).put
        (SHT_SSTAT_cause h.val) 7).put (SHT_SFCAP_eaddr h.val) pc.toNat
      retireNext h.val ((b1.bump (SHT_SCNT_overruns h.val)).flag SHT_IRQ_STAT_overrun))) ∧
    ((s.blk.shuttle h.val).tapReq = true → debugOpen s.blk → shtState s.blk h.val = 1 → (s.blk.shuttle h.val).done = none →
      permitted s.blk h.val → (s.blk.shuttle h.val).fault = none → (s.blk.shuttle h.val).fencePending = false →
      exec (.tapTaken h) s = .next (s.on fun b =>
        let vec := if b.get SHT_VEC_tap_vec < 64 then 72 else b.get SHT_VEC_tap_vec
        (dropTap h.val (enterHandler h.val 3 0 (b.shuttle h.val).eaddr vec b)).flag SHT_IRQ_STAT_tap))) ∧
  (∀ (h : Fin 160) (t : Long) (s : State), s.live →
    let b := advanceTo t.toNat s.blk
    (∀ pass e c, (b.shuttle h.val).done = some e → cardOf b h.val = some c → c.type ≠ 4 → c.cancel = none →
      let b1 := dvBankFault h.val c (completeTo h.val 0 8 b)
      (b1.shuttle h.val).fault = none →
      let b2 := if c.type = 5 ∨ ownsVoice b1 c then writeQueue c.flow (b1.shuttle h.val).drain.queue b1 else b1
      let run := romRun h.val c b2
      let sh := romShuttle c run b2 (b1.shuttle h.val).drain
      let bank := FMap.get (fun _ => {}) sh.banks sh.active
      let b2 := commitVoice c (e || (run.map (·.ended)).getD false) (romEffect h.val c run b2)
      let b3 := if c.render ∧ c.pick = b.pickNo ∧ b.mix.mixed ≤ c.pick then
          drainSends h.val c.pick c.flow (b.voice c.flow).startFrame bank
            (if c.type = 5 ∧ c.payload.getLsbD 39 then dvSend (c.flow / 256) c.pick b2 else b2)
        else b2
      let sends := c.render && !bank.sends.isEmpty
      let sh1 := { sh with
        queue := [], active := if sends then 1 - sh.active else sh.active
        banks := FMap.set (fun _ => {}) sh.banks sh.active { binds := [], sends := [], draining := sends || bank.draining } }
      exec (.doneAccept h t pass) s = .next (s.on fun _ =>
        finishCard c .ok t.toNat (enterDraw h.val t.toNat (noteServed h.val c (b3.setShuttle h.val sh1))))) ∧
    (shtState b h.val = 1 → (b.shuttle h.val).fence = 0 → (b.shuttle h.val).done = none →
      exec (.fenceExpire h t) s = .next (s.on fun _ => b.setShuttle h.val { b.shuttle h.val with fencePending := true })) ∧
    (∀ c, cardOf b h.val = some c → c.cancelled t.toNat = false → shtState b h.val = 1 → (b.shuttle h.val).fencePending = true → (b.shuttle h.val).fault = none →
      (b.shuttle h.val).done = none → permitted b h.val →
      exec (.fencedCompletion h t) s = .next (s.on fun _ =>
        enterDraw h.val t.toNat (dropTap h.val (noteFence h.val (failCard h.val c .fenced t.toNat b))))) ∧
    (∀ c cause addr, cardOf b h.val = some c → c.cancelled t.toNat = false → (b.shuttle h.val).fault = some (cause, addr) → issuing b h.val → permitted b h.val →
      exec (.faultTaken h t false) s = .next (s.on fun _ =>
        let x := noteFault h.val (failCard h.val c .fault t.toNat b)
        faultHandler h.val cause addr (dropTap h.val (x.setShuttle h.val { x.shuttle h.val with card := none }))))) ∧
  (∀ (m : Master) (v : Word) (s : State), s.live → s.grants m.val SHT_TAP → v.getLsbD 8 = true → v.toNat % 256 < 160 → debugOpen s.blk →
    exec (.tapRequest m v) s = .next (s.on (wrote m.val fun b0 =>
      let b := b0.put SHT_TAP_shuttle (v.toNat % 256)
      (b.setShuttle (v.toNat % 256) { b.shuttle (v.toNat % 256) with tapReq := true }).put SHT_TAP_req 1)))

/-- The mix and the outputs: MIX_CTL.live and the end of a loom's fade (R265); a lane's coefficient set and the end of its cross-fade
(R269); a frame-start edge of a serial audio port that runs, starts or is stopped (R277, R291); a CV channel's period and its slew update
(R294, R301). -/
def Obligations.OutputCommands : Prop :=
  (∀ (m : Master) (v : Word) (s : State), s.live → s.grants m.val MIX_CTL →
    exec (.liveWrite m v) s = .next (s.on (wrote m.val fun b => { b.put MIX_CTL_live (v.toNat % 16) with
      mix := { b.mix with liveT := some b.now, liveWas := if b.mix.liveT = some b.now then b.mix.liveWas else b.get MIX_CTL_live } }))) ∧
  (∀ (l : Fin 4) (s : State), s.live → s.blk.bit MIX_STAT_fading l.val → l.val ∈ s.blk.mix.off →
    exec (.loomFadeDone l) s = .next (s.on fun b =>
      ((b.clrBit MIX_STAT_fading l.val).clrBit MIX_STAT_contrib l.val).flag MIX_IRQ_STAT_fade_done)) ∧
  (∀ (m : Master) (v : Word) (l : Fin 256) (s : State), s.live →
    (s.grants m.val (DCH_LCFG l.val) → exec (.laneSetRequest m false l v) s = .next (s.on (wrote m.val (laneWrite l.val v)))) ∧
    (l.val < 128 → s.grants m.val (DCH_ICFG l.val) →
      exec (.laneSetRequest m true l v) s = .next (s.on (wrote m.val (inputWrite l.val v))))) ∧
  (∀ (l : Fin 256) (s : State), s.live → s.blk.on (stXfade (DCH_LSTAT l.val)) → 2 ^ (laneOf s.blk l.val).xk ≤ (laneOf s.blk l.val).xf →
    let a := DCH_LSTAT l.val
    exec (.crossfadeDone false l) s = .next (s.on fun b =>
      setLane l.val { laneOf b l.val with cur := (laneOf b l.val).inc, inc := {}, xf := 0 }
        ((((b.put (stCur a) (b.get (stInc a))).put (stInc a) 0).put (stXfade a) 0).flag DCH_IRQ_STAT_xfade_done))) ∧
  (∀ (l : Fin 256) (s : State), s.live → l.val < 128 → s.blk.on (stXfade (DCH_ISTAT l.val)) →
    2 ^ (inputOf s.blk l.val).xk ≤ (inputOf s.blk l.val).xf →
    let a := DCH_ISTAT l.val
    exec (.crossfadeDone true l) s = .next (s.on fun b =>
      setInput l.val { inputOf b l.val with cur := (inputOf b l.val).inc, inc := {}, xf := 0 }
        ((((b.put (stCur a) (b.get (stInc a))).put (stInc a) 0).put (stXfade a) 0).flag DCH_IRQ_STAT_xfade_done))) ∧
  (∀ (n : Fin 8) (t : Long) (bits : Half) (di : List Word) (under full : List (Fin 16)) (s : State), s.live →
    let b := advanceTo t.toNat s.blk
    (sapEnabled n.val t.toNat b → b.on (SAP_STAT_running n.val) → exec (.sapFrameStart n t bits di under full) s =
      .next (s.on fun _ => sapFrameRun n.val t.toNat bits.toNat di (under.map (·.val)) (full.map (·.val)) b)) ∧
    (sapEnabled n.val t.toNat b → b.on (SAP_STAT_running n.val) = false → exec (.sapFrameStart n t bits di under full) s =
      .next (s.on fun _ => sapStart n.val t.toNat b)) ∧
    (sapEnabled n.val t.toNat b = false → exec (.sapFrameStart n t bits di under full) s = .next (s.on fun _ =>
      let p := sapPort b n.val
      sapShow n.val (setSapPort n.val { writes := p.writes, enT := p.enT, restartT := p.restartT }
        (((b.put (SAP_STAT_running n.val) 0).put (SAP_STAT_clk n.val) 0).setNum (SAP_FRATE n.val) 0))))) ∧
  (∀ (n : Fin 32) (s : State), s.live →
    (let b := if n.val = 0 then { s.blk with cvo := { s.blk.cvo with k := (s.blk.cvo.k + 1) % 64 } } else s.blk
     ((b.on CVO_STAT_applied = false ∨ b.on (CVO_CH_CFG_en n.val) = false) → (cvChan b n.val).entries = [] →
      exec (.cvPeriodBoundary n) s = .next (s.on fun _ =>
        setCvChan n.val { cvChan b n.val with driven := false, high := 0, due := false, val := none } b)) ∧
     (b.on CVO_STAT_applied → b.on (CVO_CH_CFG_en n.val) → (cvChan b n.val).entries = [] → cvClear b = false →
      ∃ c : CvChan, exec (.cvPeriodBoundary n) s = .next (s.on fun _ => cvDrive n.val c b) ∧ c.driven = true ∧ c.val = none ∧
        c.entries = [] ∧ c.src = cvSrc b n.val)) ∧
    ((cvChan s.blk n.val).due = true → exec (.slewUpdate n) s = .next (s.on fun b =>
      cvDrive n.val ((cvChan b n.val).update (b.get (CVO_CH_SLEW_step n.val))) b)))

/-- The bus, the scrubber, the DMA and the drains: a transaction is performed and answered, and one with bad parity is not (R329, R429,
R431); SYS_CTL (R5, R308); a scrubbed word and a late pass (R321); a start latches the copy (R333), which completes once (R334); a drain
ends and what it held proceeds (R332). -/
def Obligations.BusCommands : Prop :=
  (∀ (m : Master) (host : Bool) (a : BitVec 40) (id : BitVec 4) (x : Xact) (e : Ecc) (hw : Word) (s : State), s.live →
    (Xact.bytes x ≠ 0 → s.blk.bit BMX_MSTAT_draining m.val = false → m.val ≠ 11 →
      let r := transact { master := m.val, host := host } a.toNat (Xact.bytes x) id.toNat (Xact.data x) e hw none s.blk
      exec (.matrixTransaction m host a id x e hw none false) s = .next (s.on fun _ => setResp m.val r.1 r.2)) ∧
    (7 ≤ m.val → m.val ≤ 10 → exec (.matrixTransaction m host a id x e hw none true) s = .next (s.on (quarantineNext (m.val - 7) 1))) ∧
    (m.val < 7 ∨ 10 < m.val → exec (.matrixTransaction m host a id x e hw none true) s = .next (s.on (safeEntry 1 m.val)))) ∧
  (∀ (m : Master) (v : Word) (h : RegHit) (s : State), s.live → s.grants m.val SYS_CTL → regAt SYS_CTL = some h →
    exec (.remapWrite m v) s = .next (s.on (wrote m.val (writeCodes h v.toNat 0))) ∧
    exec (.cfgLock m v) s = .next (s.on (wrote m.val (writeCodes h v.toNat 0)))) ∧
  (∀ (a : BitVec 40) (e : Ecc) (s : State), s.live → s.blk.on MEM_CFG_scrub_en →
    exec (.scrubWord a e) s = .next (s.on (eccCheck a.toNat e true)) ∧
    exec .scrubPassLate s = .next (s.on fun b => (b.flag MEM_STAT_scrub_late).flag MEM_IRQ_STAT_scrub_late)) ∧
  (∀ (m : Master) (c : Fin 4) (v : Word) (s : State), s.live → s.grants m.val (BMX_DMA_CTL c.val) → v.getLsbD 1 = false →
    exec (.dmaStart m c v) s = .next (s.on (wrote m.val fun b =>
      Machine.dmaStart c.val ((b.put (BMX_DMA_CTL_as c.val) (v.toNat / 4 % 2)).put (BMX_DMA_CTL_irq c.val) (v.toNat / 8 % 2))))) ∧
  (∀ (c : Fin 4) (x : Dma) (n : Word) (s : State), s.live → FMap.get (fun _ => none) s.blk.mm.dma c.val = some x → x.aborted = false →
    let r := dmaCopy c.val { master := 4, host := x.host } (x.len / 16 + 1) x.src x.dst x.len 0 s.blk
    exec (.dmaCompletion c n .clean) s = .next (s.on fun b =>
      -- a burst that waits for a handover (R313) puts the completion off
      if r.1 = 15 then b else if r.1 ≠ 0 then dmaFinish c.val 4 r.1 r.2.1 r.2.2 else dmaFinish c.val 2 0 r.2.1 r.2.2)) ∧
  (∀ (m : Master) (s : State), s.live → s.blk.bit BMX_MSTAT_draining m.val → m.val ≠ 0 → s.blk.mm.drainHeld = [] →
    exec (.drainDone m) s = .next (s.on fun b => (b.clrBit BMX_MSTAT_draining m.val).flag BMX_IRQ_STAT_drain_done))

/-- The ring: a port comes up, or goes down and is wrapped (R336, R351); the root enumerates the ring, unwraps it and repeats an ENUM that
is lost (R338, R353); the other nodes take their place and their table (R338); PROBE, ECHO, TIME and BEAT (R339, R342, R343); the root
begins a lap (R345). -/
def Obligations.RingCommands : Prop :=
  (∀ (p : Fin 2) (s : State), s.live →
    (∀ swap inv, s.blk.get (WFT_PORT_STAT_state p.val) ≠ 2 → inRing s.blk → exec (.portUp p swap inv) s = .next (s.on fun b =>
      (((b.put (WFT_PORT_STAT_state p.val) 2).put (WFT_PORT_STAT_swap p.val) (if swap then 1 else 0)).put (WFT_PORT_STAT_inv p.val)
        inv.toNat).flag WFT_IRQ_STAT_port)) ∧
    (s.blk.get (WFT_PORT_STAT_state p.val) = 2 → s.blk.on (WFT_PORT_STAT_wrap p.val) = false →
      let down (b : Block) : Block :=
        let b1 := setWeft (fun w => if p.val = 0 then { w with crcA := 0 } else { w with crcB := 0 })
          (wsend (.marker 5 0) ((b.put (WFT_PORT_STAT_state p.val) 1).flag WFT_IRQ_STAT_port))
        let b2 := ((b1.put (WFT_PORT_STAT_wrap p.val) 1).put WFT_STAT_wrapped 1).put WFT_STAT_ring_wrapped 1
        weftWrapOk (probe ((b2.bump WFT_CNT_wraps).flag WFT_IRQ_STAT_wrap))
      exec (.portDown p) s = .next (s.on down) ∧ exec (.faultMarker p) s = .next (s.on down)) ∧
    (∀ trip : Word, exec (.echoMarker p trip) s = .next (s.on fun b =>
      b.put (WFT_PORT_STAT_hop p.val) (min 65535 ((trip.toNat - 40 + 1) / 2))))) ∧
  (∀ (m : Master) (s : State), s.live → s.grants m.val WFT_CTL → isRoot s.blk →
    exec (.reenum m) s = .next (s.on (wrote m.val fun b => enumStart (b.flag WFT_CTL_reenum))) ∧
    exec (.unwrap m) s = .next (s.on (wrote m.val fun b => unwrapSend (b.flag WFT_CTL_unwrap)))) ∧
  (∀ s : State, s.live → isRoot s.blk →
    (s.blk.wft.enumerating = true → exec .enumTimeout s = .next (s.on enumStart)) ∧
    (s.blk.on WFT_CFG_auto_unwrap → exec .autoUnwrap s = .next (s.on unwrapSend)) ∧
    (inRing s.blk → s.blk.tbu.firstPick + 2 ≤ s.blk.pickNo → exec .audioLapStart s = .next (s.on fun b =>
      (List.range (nseg b)).foldl (fun acc k =>
        let r := addSegment acc (b.pickNo - 2) k (List.replicate (16 * acc.pick) 0)
        wsend (.audio false false ((b.pickNo - 2) % 65536) k r.1) (if r.2 then noteWeftSat (b.pickNo - 2) acc else acc)) b))) ∧
  (∀ s : State, s.live → isRoot s.blk = false →
    (∀ h root table tooMany, h.crcOk = true → onSecondary h s.blk = false → 1 < h.ttl.toNat →
      exec (.enumFrame h root table tooMany) s = .next (s.on fun b =>
        let tab := nodeTable table
        if 1023 < tab.length + 1 then wsend (.enumerate root.toNat tab.length tab true)
          (((b.flag WFT_STAT_too_many).put WFT_NODE_id 0).put WFT_STAT_enum 0)
        else wsend (.enumerate root.toNat (tab.length + 1) (tab ++ [(b.num SEC_SERIAL, b.get (WFT_PORT_STAT_hop 0))]) tooMany)
          (probe (b.put WFT_NODE_id (tab.length + 1))))) ∧
    (∀ h table lout wrapped, h.crcOk = true → onSecondary h s.blk = false → 1 < h.ttl.toNat → nodeId s.blk ≠ 0 →
      nodeId s.blk < table.length → exec (.enumDoneFrame h table lout wrapped) s = .next (s.on fun b => wsend (.enumDone (nodeTable table).length (nodeTable table) lout.toNat wrapped) (enumApply (nodeTable table) lout.toNat wrapped b))) ∧
    (∀ (v : BitVec 52) (t next : Long), s.blk.get TBU_TEMPO_CFG_src = 3 → exec (.beatMarker v t next) s = .next (s.on fun b0 =>
      let b := wsend (.marker 2 v.toNat) (advanceTo t.toNat b0)
      Machine.tempoEdge 3 (t.toNat - droot b) next.toNat (some (unwrapBeat (b.num TBU_BEAT) v.toNat))
        (2 ^ 64 / ppqnOf (b.get WFT_CFG_bppqn)) b))) ∧
  (∀ (v : BitVec 52) (t : Long) (s : State), s.live →
    exec (.probeMarker v) s = .next (s.on (wsend (.marker 4 v.toNat))) ∧
    (isRoot (advanceTo t.toNat s.blk) = false →
      (timeMarker v.toNat (advanceTo t.toNat s.blk)).on WFT_CFG_tref = false →
      (timeMarker v.toNat (advanceTo t.toNat s.blk)).tbu.sel.src = 2 →
      exec (.timeMarker v t) s = .next (s.on fun b0 =>
        let b := timeMarker v.toNat (advanceTo t.toNat b0)
        refEdge (some v.toNat) (t.toNat - droot b) b))) ∧
  (∀ s : State, s.live → (∀ kind : BitVec 4,
    exec (.reservedMarker kind) s = .next (s.on fun b => wsend (.marker kind.toNat 0) (b.bump WFT_CNT_bad))) ∧
    ∀ h : WHdr, h.crcOk = true → exec (.reservedFrame h) s = .next (s.on fun b => b.bump WFT_CNT_bad))

/-- The frames (R340, R345–R354). A frame of EVENT, PASS, tunnel, unwrap or boot with a good CRC that reaches its destination on the
primary leg is taken and goes no further; a frame with a bad CRC is counted and goes on marked. AUDIO frames carry the sums on. -/
def Obligations.FrameCommands : Prop :=
  (∀ (h : WHdr) (s : State), s.live → h.crcOk = true → onSecondary h s.blk = false → h.bcast = false → inRing s.blk →
    h.dst.val = nodeId s.blk →
    (∀ events, exec (.eventFrame h events) s = .next (s.on fun b => events.foldl (fun acc x => submitNative 7 (Ev.ofNat x) acc) b)) ∧
    (∀ p, exec (.passFrame h p) s = .next (s.on (passArrives p))) ∧
    (∀ (tag : Half) (layers : Byte),
      exec (.passAnswerFrame h tag 1 layers) s = .next (s.on fun b => setPooled (b.alc.pooled.map fun q =>
        if q.ev.stamp % 65536 = tag.toNat ∧ q.passed ∧ q.answer = none then { q with answer := some true, left := [] } else q) b) ∧
      exec (.passAnswerFrame h tag 2 layers) s = .next (s.on fun b => setPooled (b.alc.pooled.map fun q =>
        if q.ev.stamp % 65536 = tag.toNat ∧ q.passed ∧ q.answer = none then
          { q with answer := some false, left := q.left.filter fun i => layers.toNat.testBit i } else q) b)) ∧
    (∀ tag write o data, exec (.tunnelRequestFrame h tag write o data) s =
      .next (s.on (tunnelServe h.src.val tag.toNat write o.toNat data.toNat))) ∧
    (∀ tag err data, s.blk.get WFT_TUN_STAT_result = 1 → tag.toNat = s.blk.wft.tunTag → exec (.tunnelResponse h tag err data) s =
      .next (s.on (tunFinish (if err then 3 else 2) (if err then none else some data.toNat)))) ∧
    (∀ pick, exec (.unwrapCommand h pick) s = .next (s.on (setWeft fun w => { w with unwrapAt := some pick.toNat }))) ∧
    (∀ block count bytes, weftBooting s.blk → exec (.bootFrame h block count bytes false) s =
      .next (s.on (setSys fun x => { x with bootBlocks := FMap.set (fun _ => []) x.bootBlocks block.toNat bytes }))) ∧
    (∀ blocks, isRoot s.blk → exec (.bootResendRequest h blocks) s = .next (s.on (wsend (.boot (blocks.map (·.toNat))))))) ∧
  (∀ (h : WHdr) (s : State), s.live → h.crcOk = false → endsHere h s.blk = false → 1 < h.ttl.toNat → h.leg = false → s.blk.wft.crcA < 3 →
    (∀ events, exec (.eventFrame h events) s = .next (s.on fun b =>
      wsend (.passOn 1 h.src.val h.dst.val (h.ttl.toNat - 1) h.bcast h.wrapped false)
        (setWeft (fun w => { w with crcA := w.crcA + 1 }) (b.bump WFT_CNT_crc))))) ∧
  (∀ (h : WHdr) (pick : Half) (seg : Fin 32) (ws : List Word) (s : State), s.live → h.crcOk = true → onSecondary h s.blk = false →
    inRing s.blk → let n := wholePick s.blk pick.toNat
    (isRoot s.blk → exec (.audioFrame h false pick seg ws false) s =
      .next (s.on fun b => wsend (.audio true h.wrapped pick.toNat seg.val ws) (takeSums n seg.val ws b))) ∧
    (isRoot s.blk = false → 1 < h.ttl.toNat →
      exec (.audioFrame h true pick seg ws false) s = .next (s.on fun b =>
        wsend (.audio true h.wrapped pick.toNat seg.val ws) (takeSums n seg.val ws b)) ∧
      exec (.audioFrame h false pick seg ws false) s = .next (s.on fun b =>
        let r := addSegment b n seg.val ws
        wsend (.audio false h.wrapped pick.toNat seg.val r.1) (if r.2 then noteWeftSat n b else b)))) ∧
  (∀ (m : Master) (v : Word) (s : State), s.live → s.grants m.val WFT_TUN_CTL → v.getLsbD 12 = false → v.getLsbD 11 = false →
    (s.blk.get WFT_TUN_STAT_result = 1 →
      let named (b : Block) : Block := (b.put WFT_TUN_CTL_node (v.toNat % 1024)).put WFT_TUN_CTL_write (v.toNat / 1024 % 2)
      exec (.tunnelStart m v) s = .next (s.on (wrote m.val fun b => (named b).put WFT_TUN_STAT_ovr 1)) ∧
      exec (.tunnelAbort m v) s = .next (s.on (wrote m.val fun b => tunFinish 5 none (named b)))) ∧
    (s.blk.get WFT_TUN_STAT_result ≠ 1 → v.toNat % 1024 ≠ nodeId s.blk →
      exec (.tunnelStart m v) s = .next (s.on (wrote m.val (tunCtl (v ||| 0x800)))) ∧
      (s.blk.quiet → ∃ t, exec (.tunnelStart m v) s = .next t ∧ t.blk.get WFT_TUN_STAT_result = 1 ∧
        t.blk.get WFT_TUN_CTL_node = v.toNat % 1024 ∧ t.blk.wft.tunTag = (s.blk.wft.tunTag + 1) % 65536 ∧
        t.blk.wft.tx = s.blk.wft.tx ++ [.tunRequest (v.toNat % 1024) ((s.blk.wft.tunTag + 1) % 65536) (v.getLsbD 10)
          (s.blk.num WFT_TUN_ADDR) (s.blk.num WFT_TUN_DATA)]))) ∧
  (∀ s : State, s.live → exec .tunnelTimeout s = .next (s.on fun b =>
    if b.get WFT_TUN_STAT_result = 1 then (b.put WFT_TUN_STAT_result 4).put WFT_IRQ_STAT_tun 1 else b))

/-- The DV32 registers (R361–R364, R374): before pick 0 a timed write enters its register image at once; from then on it enters the port
buffer as an event one frame and the delay after its arrival; a register reads back what was last written. GCTRL's interrupt enable and PAGE
and ENDF act on arrival; a read-only or reserved register counts the write. Of these, one that finds the port buffer full has no effect but
to be refused and counted (R361). -/
def Obligations.Dv32Writes : Prop :=
  ∀ (i : Fin 4) (v : Byte) (s : State), s.live → dvOn s.blk i.val → srcOn s.blk 6 →
    let refused : Host.Outcome State Fault Refusal :=
      .next (s.on fun b => (submit 6 true [] 0 false (b.bump LEG_CNT_rej)).flag LEG_IRQ_STAT_rej)
    (exec (.ctrl i v) s = .next (s.on (dvTimed i.val 0 v.toNat))) ∧
    (∀ a : BitVec 6, dvTimedAddr a.toNat → exec (.dv32TimedRegisterWrite i a v) s = .next (s.on (dvTimed i.val a.toNat v.toNat))) ∧
    (∀ a b, b.tbu.started = true → srcOn b 6 → dvTimed i.val a v.toNat b =
      submit 6 true [{ time := BitVec.ofNat 64 (b.sample + 1 + dvDelay b), head := 0x1100,
                       ext := .legacy i.val (if a < 0x20 then (dvPort b i.val).page else 32) a v.toNat }] 0 false (dvKeep i.val a v.toNat b)) ∧
    (∀ a b, a < 0x16 → srcOn b 6 → dvRead (dvTimed i.val a v.toNat b) i.val a = v.toNat) ∧
    (∀ a b, b.tbu.started = false → srcOn b 6 → let c := dvCtx b i.val (dvPort b i.val).page
      0 < a → a < 0x20 → dvCtx (dvTimed i.val a v.toNat b) i.val (dvPort b i.val).page =
        { c with regs := FMap.set (fun _ => 0) c.regs a v.toNat }) ∧
    (queueFull s.blk 6 1 = false → exec (.gctrl i v) s = .next (s.on fun b =>
      let b1 := dvTimed i.val 0x20 v.toNat b
      setDvPort i.val { dvPort b1 i.val with irqEn := v.toNat / 2 % 2 == 1 } b1)) ∧
    (queueFull s.blk 6 1 = false → (∀ k : Fin 4, exec (.endf i k v) s = .next (s.on fun b =>
        let p := dvPort b i.val
        let fresh := if p.upT = some b.now then p.fresh else 0
        submit 6 true [] 0 false (setDvPort i.val { p with endf := (p.endf - (p.endf &&& (v.toNat * 256 ^ k.val))) ||| fresh } b))) ∧
      exec (.page i v) s = .next (s.on fun b =>
        submit 6 true [] 0 false (setDvPort i.val { dvPort b i.val with page := v.toNat % 32 } b)) ∧
      (∀ a : BitVec 6, dvIgnoredAddr a.toNat → exec (.legacyIgnoredWrite i a v) s = .next (s.on fun b =>
        submit 6 true [] 0 false (b.bump LEG_CNT_ign)))) ∧
    (queueFull s.blk 6 1 = true → (∀ k : Fin 4, exec (.endf i k v) s = refused) ∧ exec (.page i v) s = refused ∧
      ∀ a : BitVec 6, dvIgnoredAddr a.toNat → exec (.legacyIgnoredWrite i a v) s = refused)

/-- Start-up, resets and the host's buses: power-on (R375, R407); reset and its release (R375, R376), which a push boot source leaves waiting
for its image (R377, R378) and a high TEST_EN prevents (R451); the resets and the push boot that a
register write asks for follow when its access has ended (R375, R378); the bridge's reset, the watchdog and the kick (R375, R406); SPI
(R391–R393); PCIe (R394–R398). -/
def Obligations.HostCommands : Prop :=
  (∀ s : State,
    (∀ flash size sfdp vin iin, exec (.powerOn flash size sfdp vin iin) s = .next (s.on fun b =>
      takeSupply vin.toNat iin.toNat 0 (railsOn (powerReset (flashOf flash) size sfdp b)))) ∧
    exec .rstN s = .next (s.on (computeReset false)) ∧
    (∀ r, s.blk.sys.held = true → s.blk.pwr.powered = true → exec (.computeResetRelease r) s = .next (s.on (releaseReset r)) ∧
      (r.testEn = true → ∃ t, exec (.computeResetRelease r) s = .next t ∧ t.blk.sys.held = true) ∧
      (∀ d, r.testEn = false → bootOf r = 2 ∨ bootOf r = 3 → r.dram = some d → r.trngBad = false → s.blk.quiet →
        ∃ t, exec (.computeResetRelease r) s = .next t ∧ t.blk.sys.held = false ∧ t.blk.get SYS_STAT_step = 6 ∧
          t.blk.get SYS_STAT_bootsel = bootOf r ∧ t.blk.on SYS_STAT_push_wait = true ∧ t.blk.on DRC_STAT_trained = true ∧
          t.blk.get DRC_STAT_rate = d.1.val ∧ t.blk.get WFT_STAT_root = strapsOf r / 8 ∧ t.blk.sec.fuses = s.blk.sec.burned ∧
          t.blk.sys.flash = s.blk.sys.flash))) ∧
  (∀ (m : Master) (v : Word) (s : State), s.live →
    (s.grants m.val SYS_RST → v.toNat / 65536 = 0xC1A5 →
      let asks (b : Block) : Block := { b with sys := { b.sys with reqChip := b.sys.reqChip || v.getLsbD 0, reqMp := b.sys.reqMp || v.getLsbD 1 } }
      exec (.softwareChipReset m v) s = .next (s.on (wrote m.val asks)) ∧
      ∀ n, exec (.mpReset m v n) s = .next (s.on fun b => performRequests n.toNat (wrote m.val asks b))) ∧
    (s.grants m.val SYS_BOOT_LEN → 0 < v.toNat % 2 ^ 30 → v.toNat % 2 ^ 30 ≤ 0x20000000 →
      exec (.bootLenWrite m v) s = .next (s.on (wrote m.val fun b =>
        { b.put SYS_BOOT_LEN_bytes (v.toNat % 2 ^ 30) with sys := { b.sys with reqBoot := b.sys.reqBoot || b.on SYS_STAT_push_wait } }))) ∧
    (s.grants m.val SYS_KICK → exec (.kick m v) s = .next (s.on (wrote m.val fun b =>
      if m.val = 0 ∧ v.toNat % 65536 = 0x6B1C then { b with rel := { b.rel with wdRun := 0 } } else b)))) ∧
  (∀ (n : Byte) (s : State), s.live →
    exec (.pcieReset n) s = .next (s.on fun b =>
      let b1 := (((b.setNum HIF_PCIE_STAT 0).setNum HIF_PCIE_ERR 0).setNum HIF_BAR2_BASE 0).setNum HIF_DB_STAT 0
      let b2 := { b1 with sys := { b1.sys with doorbell := [], msix := [], msixPend := [] }
                          bus := { b1.bus with rdShadow := FMap.del b1.bus.rdShadow 2, wrShadow := FMap.del b1.bus.wrShadow 2 } }
      resetMaster 2 n.toNat (if b.on HIF_PCIE_STAT_up then b2.flag HIF_IRQ_STAT_link else b2)) ∧
    exec (.watchdogExpire n) s = .next (s.on fun b =>
      let b1 := Machine.mpReset n.toNat (setRel (fun r => { r with wdRun := b.rel.wdRun + 1 }) (b.bump SYS_SYX_restarts))
      if 3 ≤ b.rel.wdRun + 1 then safeEntry 3 (b.rel.wdRun + 1) b1 else b1)) ∧
  (∀ s : State, s.live →
    (∀ a words, exec (.write a words false) s = .next (s.on fun b => (words.foldl (fun (acc : Nat × Block) v =>
      let r := transact { master := 1 } acc.1 4 0 (some (wordBytes v 0xF)) .clean 0 none acc.2
      (acc.1 + 4, spiNote r.1 r.2)) (a.toNat, spiPhase b)).2)) ∧
    (∀ a e, exec (.read a 1 none e) s = .next (s.on fun b =>
      let r := transact { master := 1 } a.toNat 4 0 none e 0 none (spiPhase b)
      setResp 1 { data := [r.1.data.getD 0 0] } (spiNote r.1 r.2))) ∧
    exec .status s = .next (s.on spiPhase) ∧
    exec .errClr s = .next (s.on fun b => ((spiPhase b).put HIF_SPI_STAT_err 0).put HIF_SPI_STAT_cause 0) ∧
    (∀ events, exec (.eventPush events false) s = .next (s.on fun b =>
      events.foldl (fun acc x => submitNative 4 (Ev.ofNat x) acc) (spiPhase b))) ∧
    exec .spiBadCommand s = .next (s.on fun b =>
      ((((spiPhase b).put HIF_SPI_STAT_err 1).put HIF_SPI_STAT_cause 5).put HIF_IRQ_STAT_spi_err 1).bump HIF_CNT_badcmd)) ∧
  (∀ s : State, s.live →
    (∀ (o : BitVec 26) bes, exec (.bar0Tlp o (.read bes)) s = .next (s.on (bar0ReadTlp o.toNat bes))) ∧
    (∀ (o : BitVec 26) dws, o.toNat < 0x03FFF000 → exec (.bar0Tlp o (.write dws)) s = .next (s.on fun b =>
      (dws.foldl (fun (acc : Nat × Block) x => (acc.1 + 4, bar0Write acc.1 x.1 x.2 acc.2)) (o.toNat, b)).2)) ∧
    (∀ (o : BitVec 12) dws, exec (.doorbellWrite o dws) s = .next (s.on (Machine.doorbellWrite o.toNat (dws.flatMap fun x => wordBytes x.1 x.2)))) ∧
    (∀ (a : BitVec 30) n e x, n ≠ 0 → s.blk.bit BMX_MSTAT_draining 2 = false → bar2Addr s.blk a.toNat n = some x → exec (.bar2Tlp a (.read n) e) s = .next (s.on fun b =>
      let r := memAccess { master := 2 } x n 0 none e none b
      setResp 2 r.1 (if r.1.err then pcieErr HIF_PCIE_ERR_ca r.2 else r.2))) ∧
    (∀ v : Fin 8, exec (.msixUnmask v) s = .next (s.on fun b =>
      let b1 := { b with sys := { b.sys with msix := FMap.set (fun k => if k % 4 = 3 then 1 else 0) b.sys.msix (4 * v.val + 3) 0 } }
      if msixMasked b v.val then Machine.msixUnmask v.val b1 else b1)) ∧
    (∀ up gen width l1 bme, exec (.pcieLinkChange up gen width l1 bme) s = .next (s.on fun b =>
      let b1 := ((((b.put HIF_PCIE_STAT_up (if up then 1 else 0)).put HIF_PCIE_STAT_gen gen.toNat).put HIF_PCIE_STAT_width width.toNat).put
        HIF_PCIE_STAT_l1 (if l1 then 1 else 0)).put HIF_PCIE_STAT_bme (if bme then 1 else 0)
      if b.on HIF_PCIE_STAT_up != up then b1.flag HIF_IRQ_STAT_link else b1)))

/-- The mailbox (R399–R404, R447): a claimed command that the firmware serves completes with its status and result, those of R402 and
R447, in the slot that did not hold the last result; PATCH_APPLY waits for a pick boundary; a cancelled command ends at its next safe point; the reset follows a completed RESET. -/
def Obligations.MailboxAnswers : Prop :=
  (∀ (op : Nat) (m : MbCmd) (s : State), s.live → s.serves op m → m.len ≤ 131008 →
    let ends (f : Block → Nat × List Byte × Block) : Host.Outcome State Fault Refusal :=
      .next (s.on fun b => mbFinish (f b).1 (f b).2.1 (f b).2.2)
    (op = 0x01 → exec .ping s = ends fun b =>
      (0, leBytes 8 (Config.firmware b.sys.mpfw).toNat ++ leBytes 4 (b.num SYS_ID) ++ regBytes b 4 SYS_STAT, b)) ∧
    (op = 0x02 → exec .selftestReport s = ends mbSelftest) ∧ (op = 0x03 → exec .weftStatus s = ends mbWeftStatus) ∧
    (op = 0x10 → exec .sampleLoad s = ends (loadSome m.len none)) ∧
    (op = 0x20 → exec .voiceQuery s = ends (mbQuery 0)) ∧ (op = 0x21 → exec .partQuery s = ends (mbQuery 1)) ∧
    (op = 0x22 → exec .harnessQuery s = ends (mbQuery 2)) ∧ (op = 0x30 → exec .statsSnapshot s = ends mbSnapshot) ∧
    (op = 0x40 → patchStatus (mbPayload s.blk 0 m.len) s.blk = 0 → ∃ secs, patchOk (mbPayload s.blk 0 m.len) s.blk = some secs ∧
      exec .patchApply s = .next (s.on (setSys fun x => { x with patch := some ⟨secs⟩ }))) ∧
    (op = 0x50 → exec .flashRead s = ends mbFlashRead) ∧ (op = 0x51 → ∀ fail, exec (.flashProgram fail) s = ends (flashSome m.len none fail)) ∧
    (op = 0x60 → exec .unlockChallenge s = ends mbChallenge) ∧ (op = 0x61 → exec .unlockResponse s = ends mbResponse) ∧
    (op = 0x70 → exec .reset s = .next (s.on fun b => mbFinish 0 [] (setSys (fun x => { x with resetDue := true }) b))) ∧
    (op ≤ 65535 → mbKnown op = false → exec .badOpcode s = .next (s.on (mbFinish 3 [])))) ∧
  (∀ (op : Nat) (m : MbCmd) (s : State), s.live → s.blk.quiet → s.serves op m → m.len ≤ 131008 →
    let b := s.blk
    let ends (c : Instr) (status : Nat) (result : List Byte) (f : State → Prop) : Prop :=
      ∃ t, exec c s = .next t ∧ s.mbDone m status result t ∧ f t
    let same (t : State) : Prop := t.blk.alc = b.alc ∧ t.blk.dlr = b.dlr ∧ t.blk.sys.flash = b.sys.flash ∧
      ∀ a, 0x100000000 ≤ a → Memory.byte t.blk.mem a = Memory.byte b.mem a
    let reg (n a : Nat) : List Byte := leBytes n (b.num a)
    let arg (o n : Nat) : Nat := Memory.num b.mem (0x103C0040 + o) n
    (op = 0x02 → ends .selftestReport 0 (leBytes 4 (b.get REL_STAT_retired) ++ ((List.range 5).flatMap fun k => reg 4 (REL_RETIRE k)) ++
      leBytes 4 b.rel.passes ++ leBytes 4 b.rel.fails ++ leBytes 4 (testAge b) ++ leBytes 1 (b.get DLR_STAT_quar) ++
      leBytes 1 (b.get REL_STAT_cause) ++ leBytes 2 0 ++ reg 8 REL_IMP ++ reg 8 REL_IMPX ++ reg 8 REL_PICKS) same) ∧
    (op = 0x03 → ends .weftStatus 0 (reg 4 WFT_STAT ++ reg 4 WFT_NODE ++ (List.range (b.get WFT_NODE_n)).flatMap fun i =>
      reg 8 (WFT_NT_SER i) ++ reg 4 (WFT_NT_HOP i) ++ reg 4 (WFT_NT_DROOT i)) same) ∧
    -- SAMPLE_LOAD from the payload
    (op = 0x10 → let o := arg 0 8
      let n := arg 0xC 4
      arg 8 1 = 0 → (∀ k, protectedAt b k = false) → b.get SYS_DRAM_FREE_units * 65536 ≤ o → o + n ≤ dramSize b → 0x18 + n ≤ m.len →
      ends .sampleLoad 0 (leBytes 4 n) fun t => t.blk.alc = b.alc ∧
        ∀ a, 0x100000000 ≤ a → Memory.byte t.blk.mem a =
          if 0x100000000 + o ≤ a ∧ a < 0x100000000 + o + n then Memory.byte b.mem (0x103C0058 + (a - (0x100000000 + o)))
          else Memory.byte b.mem a) ∧
    -- queries
    (∀ q c, (op = 0x20 ∧ q = 0 ∧ c = .voiceQuery) ∨ (op = 0x21 ∧ q = 1 ∧ c = .partQuery) ∨ (op = 0x22 ∧ q = 2 ∧ c = .harnessQuery) →
      (∀ l, queryAnswer b q (arg 0 2) = some l → ends c 0 (l.flatMap (leBytes 4)) same) ∧
      (queryAnswer b q (arg 0 2) = none → ends c 4 [] same)) ∧
    (op = 0x30 → let seq := (b.get DLR_SNAP_STAT_seq + 1) % 65536
      ends .statsSnapshot 0 (snapImage seq b) fun t => t.blk.get DLR_SNAP_STAT_seq = seq ∧ t.blk.dlr.stats.picks = 0 ∧
        t.blk.dlr.stats.maxDepth = [] ∧ t.blk.dlr.cards = b.dlr.cards ∧ t.blk.alc = b.alc) ∧
    -- the flash
    (b.get SYS_STAT_bootsel ≤ 1 → let o := arg 0 4
      let n := arg 4 4
      (op = 0x50 → n ≤ 65472 → o + n ≤ b.sys.flashSize → ends .flashRead 0 (flashBytes b o n) same) ∧
      (op = 0x51 → o % 4096 = 0 → o + n ≤ b.sys.flashSize → 8 + n ≤ m.len → n ≤ 4096 → 0 < n →
        ends (.flashProgram none) 0 (leBytes 4 n) fun t => t.blk.alc = b.alc ∧
          ∀ a, FMap.get (fun _ => 0xFF) t.blk.sys.flash a =
            if o ≤ a ∧ a < o + n then Memory.byte b.mem (0x103C0048 + (a - o))
            else if o ≤ a ∧ a < o + 4096 then 0xFF else FMap.get (fun _ => 0xFF) b.sys.flash a)) ∧
    -- unlocking
    (op = 0x60 → b.get SEC_STAT_method ≠ 0 → ¬ b.on SEC_STAT_trng_fail →
      let w (k : Nat) : Word := Config.trngWord (b.sec.drawn + k)
      ends .unlockChallenge 0 (((List.range 4).flatMap fun k => leBytes 4 (w k).toNat) ++ leBytes 8 b.sec.serial ++
        leBytes 1 (b.get SEC_STAT_method) ++ leBytes 7 0) fun t => t.blk.sec.nonce = true ∧ t.blk.sec.drawn = b.sec.drawn + 4 ∧
          (∀ k, k < 4 → t.blk.num (SEC_NONCE k) = (w k).toNat) ∧ t.blk.alc = b.alc) ∧
    (op = 0x61 → b.get SEC_STAT_method = 2 → b.sec.lockout = false → b.sec.fails < 16 →
      let given := (List.range 32).map fun i => Memory.byte b.mem (0x103C0044 + i)
      let right := given == (b.sec.fuses.password ++ List.replicate 16 0).take 16 ++ List.replicate 16 0
      (right = true → ends .unlockResponse 0 (leBytes 1 (b.get SEC_STAT_opn ||| (arg 0 1 % 8)) ++ leBytes 3 0) fun t =>
        t.blk.get SEC_STAT_opn = b.get SEC_STAT_opn ||| (arg 0 1 % 8) ∧ t.blk.alc = b.alc) ∧
      (right = false → ends .unlockResponse 5 [] fun t =>
        t.blk.get SEC_STAT_opn = b.get SEC_STAT_opn ∧ t.blk.sec.fails = b.sec.fails + 1 ∧ t.blk.sec.lockout = true ∧ t.blk.alc = b.alc)) ∧
    (op = 0x70 → ends .reset 0 [] fun t => t.blk.sys.resetDue = true ∧ same t) ∧
    (op ≤ 65535 → mbKnown op = false → ends .badOpcode 3 [] same)) ∧
  (∀ (m : MbCmd) (work : Nat) (s : State), s.live → s.blk.sys.mb = some m → m.claimed = true → m.cancel = true → s.blk.sys.mpDown = false →
    m.op ≤ 65535 → m.op ≠ 0x10 → m.op ≠ 0x51 →
    exec (.mailboxCancel work) s = .next (s.on fun b => mbFinish 2 [] (setSys (fun x => { x with patch := none }) b))) ∧
  (∀ s : State, s.live → s.blk.sys.resetDue = true → exec .mailboxResetExpire s = .next (s.on (computeReset true)))

/-- The power die, which acts in reset too (R407–R420): the rails go off when UVLO falls or VIN is too high, and on again; a rail that
does not start; the bucks lock (R412); the input limit (R415); a phase that fails while two others work (R416); a brown-out and both its
ends (R417); the samples of 1 ms (R418); the ends of T3 and of the safe state (R419, R432); a challenge (R441). -/
def Obligations.PowerCommands : Prop :=
  (∀ s : State,
    exec .uvloFall s = .next (s.on fun b => setPwr (fun p => { p with pfw := true, shut := false, retry := false }) (railsOff b)) ∧
    exec .overVoltage s = .next (s.on fun b =>
      setPwr (fun p => { p with pfw := true, shut := false, retry := false, overVolt := true }) (railsOff b)) ∧
    (s.blk.pwr.overVolt = true → exec .overVoltageRelease s = .next (s.on fun b => powerReset b.sys.flash b.sys.flashSize b.sys.sfdp b)) ∧
    (s.blk.sys.held = true → exec .railStartTimeout s = .next (s.on fun b =>
      setPwr (fun p => { p with powered := false, retry := true }) ((b.put PWR_STAT_pgood 0).put PWR_STAT_rail_ok 0))) ∧
    (s.blk.pwr.retry = true → exec .railRetry s = .next (s.on fun b => setPwr (fun p => { p with retry := false }) (railsOn b))) ∧
    exec .currentLimit s = .next (s.on fun b => (b.bump PWR_CNT_ilim).put PWR_IRQ_STAT_ilim 1) ∧
    (∀ p : Fin 4, s.blk.bit PWR_STAT_phase_ok p.val = true → 2 ≤ phasesOk (s.blk.clrBit PWR_STAT_phase_ok p.val) →
      exec (.phaseFailure p) s = .next (s.on fun b =>
        ((b.clrBit PWR_STAT_phase_ok p.val).bump PWR_CNT_phase).put PWR_IRQ_STAT_phase 1)) ∧
    (Hold.brownOut ∈ s.blk.tbu.holds → exec .brownOutShutdown s = .next (s.on fun b => setPwr (fun p => { p with shut := true }) (railsOff b))) ∧
    (s.blk.pwr.shut = true → s.blk.pwr.pfw = false →
      exec .brownOutRepower s = .next (s.on fun b => setPwr (fun p => { p with shut := false }) (railsOn b))) ∧
    (∀ s0 s1 s2 s3 s4 s5 vin iin vcore : Half, s.blk.sys.held = true →
      exec (.thermalSample s0 s1 s2 s3 s4 s5 vin iin vcore) s =
        .next (s.on fun b => takePdie s5 (takeSupply vin.toNat iin.toNat vcore.toNat b)))) ∧
  (∀ (t : Long) (s : State), s.live →
    let b := advanceTo t.toNat s.blk
    (b.pwr.pfw = false → b.get SYS_STAT_step < 10 → exec (.brownOut t) s = .next (s.on fun _ =>
      setPwr (fun p => { p with shut := true }) (railsOff (setPwr (fun p => { p with pfw := true, boT := t.toNat, good := none })
        ((b.bump PWR_CNT_bo).flag PWR_IRQ_STAT_bo))))) ∧
    (b.pwr.pfw = true → exec (.vinGood t) s = .next (s.on fun _ => setPwr (fun p => { p with pfw := false, good := some t.toNat }) b)) ∧
    (∀ g, b.pwr.good = some g → Hold.brownOut ∈ b.tbu.holds → g + 1000000 ≤ t.toNat → t.toNat ≤ b.pwr.boT + holdMs b * 1000000 →
      b.get PWR_STAT_rail_ok = 0x3F →
      exec (.brownOutRecovery t) s = .next (s.on fun _ =>
        let b1 := setPwr (fun p => { p with good := none }) (((b.put PWR_STAT_hold 0).bump PWR_CNT_rec).flag PWR_IRQ_STAT_rec)
        { b1 with tbu := { b1.tbu with holds := b1.tbu.holds.filter (· != .brownOut) } }))) ∧
  (∀ s : State, s.live →
    (s.blk.get TBU_REF_STAT_state = 1 → exec .switchingLock s = .next (s.on fun b =>
      setLock true (b.put PWR_RAIL_fcore (quotient (coreHz b) 1000).toNat))) ∧
    (s.blk.on THM_STAT_critical → s.blk.on THM_LIM_t3_auto → 1000 ≤ s.blk.pwr.cool → s.blk.tbu.holds.contains .safe = false →
      exec .t3Resume s = .next (s.on fun b =>
        let b1 := (b.put THM_STAT_critical 0).put THM_STAT_therm_n 0
        (({ b1 with tbu := { b1.tbu with holds := b1.tbu.holds.filter (· != .thermal) } } : Block).put REL_STAT_safe 0).put
          REL_STAT_cause 0)) ∧
    (Hold.safe ∈ s.blk.tbu.holds → s.blk.on REL_CFG_auto_reset → exec .safeStateAutoReset s = .next (s.on (computeReset true))) ∧
    (∀ (m : Master) (v : Word), s.grants m.val SEC_UNLK → v.getLsbD 8 = true → v.getLsbD 9 = false →
      exec (.challenge m v) s = .next (s.on (wrote m.val fun b => Machine.challenge (b.put SEC_UNLK_scope (v.toNat % 8))))))

end
end

