-- ==== Sys2Proof/Laws/FMap.lean ====
section
/-! SUPPORT. The laws of finite maps: what a read gives after a write, and that every operation keeps the canonical form. -/

namespace Sys2Proof.Machine

variable {α : Type}

theorem FMap.get_del (d : Nat → α) (m : FMap α) (k k' : Nat) :
    FMap.get d (FMap.del m k) k' = if k' = k then d k' else FMap.get d m k' := by
  induction m with
  | nil => simp [FMap.del, FMap.get]
  | cons x m ih =>
    obtain ⟨a, v⟩ := x
    simp only [FMap.del, FMap.get]
    by_cases h : a = k
    · subst h
      by_cases h2 : k' = a
      · rw [if_pos rfl, ih, if_pos h2, if_pos h2]
      · rw [if_pos rfl, ih, if_neg h2, if_neg h2, if_neg (Ne.symm h2)]
    · by_cases h2 : a = k' <;> by_cases h3 : k' = k <;> simp_all [FMap.get]

/-- Reading an inserted map: only `k` has changed, provided the map did not hold `k` before. -/
theorem FMap.get_ins (d : Nat → α) (m : FMap α) (k : Nat) (v : α) (k' : Nat) (hk : ∀ x ∈ m, x.1 ≠ k) :
    FMap.get d (FMap.ins k v m) k' = if k' = k then v else FMap.get d m k' := by
  induction m with
  | nil =>
    by_cases h : k' = k
    · simp [FMap.ins, FMap.get, h]
    · simp [FMap.ins, FMap.get, h, Ne.symm h]
  | cons x m ih =>
    obtain ⟨a, w⟩ := x
    have hne : a ≠ k := hk (a, w) (by simp)
    have ih := ih fun x hx => hk x (by simp [hx])
    simp only [FMap.ins]
    split
    · by_cases h2 : k' = k
      · simp [FMap.get, h2]
      · simp [FMap.get, h2, Ne.symm h2]
    · by_cases h2 : a = k'
      · subst h2; simp [FMap.get, hne]
      · simp [FMap.get, h2, ih]

theorem FMap.del_keys (m : FMap α) (k : Nat) : ∀ x ∈ FMap.del m k, x.1 ≠ k := by
  induction m with
  | nil => simp [FMap.del]
  | cons x m ih =>
    obtain ⟨a, v⟩ := x
    simp only [FMap.del]
    split
    · exact ih
    · rename_i h
      intro y hy
      rcases List.mem_cons.mp hy with rfl | hy
      · exact h
      · exact ih y hy

/-- A read after a write: the value written at its key, and what was there everywhere else. -/
theorem FMap.get_set [DecidableEq α] (d : Nat → α) (m : FMap α) (k : Nat) (v : α) (k' : Nat) :
    FMap.get d (FMap.set d m k v) k' = if k' = k then v else FMap.get d m k' := by
  unfold FMap.set
  split
  · rename_i h
    rw [FMap.get_del]
    by_cases h2 : k' = k <;> simp [h2, h]
  · rw [FMap.get_ins d _ k v k' (FMap.del_keys m k), FMap.get_del]
    by_cases h2 : k' = k <;> simp [h2]

@[simp] theorem FMap.get_set_same [DecidableEq α] (d : Nat → α) (m : FMap α) (k : Nat) (v : α) :
    FMap.get d (FMap.set d m k v) k = v := by simp [FMap.get_set]

theorem FMap.get_set_ne [DecidableEq α] (d : Nat → α) (m : FMap α) {k k' : Nat} (v : α) (h : k' ≠ k) :
    FMap.get d (FMap.set d m k v) k' = FMap.get d m k' := by simp [FMap.get_set, h]

/-! ### The canonical form -/

theorem FMap.rising_mono {lo lo' : Nat} {m : FMap α} (h : lo ≤ lo') (hm : FMap.rising lo' m = true) : FMap.rising lo m = true := by
  cases m with
  | nil => rfl
  | cons x m =>
    obtain ⟨a, v⟩ := x
    simp only [FMap.rising, Bool.and_eq_true, decide_eq_true_eq] at hm ⊢
    exact ⟨Nat.le_trans h hm.1, hm.2⟩

theorem FMap.rising_del {lo : Nat} {m : FMap α} (k : Nat) (hm : FMap.rising lo m = true) : FMap.rising lo (FMap.del m k) = true := by
  induction m generalizing lo with
  | nil => rfl
  | cons x m ih =>
    obtain ⟨a, v⟩ := x
    simp only [FMap.rising, Bool.and_eq_true, decide_eq_true_eq] at hm
    simp only [FMap.del]
    split
    · exact FMap.rising_mono (Nat.le_succ_of_le hm.1) (ih hm.2)
    · simp only [FMap.rising, Bool.and_eq_true, decide_eq_true_eq]
      exact ⟨hm.1, ih hm.2⟩

theorem FMap.rising_ins {lo : Nat} {m : FMap α} (k : Nat) (v : α) (hlo : lo ≤ k) (hk : ∀ x ∈ m, x.1 ≠ k)
    (hm : FMap.rising lo m = true) : FMap.rising lo (FMap.ins k v m) = true := by
  induction m generalizing lo with
  | nil => simp [FMap.ins, FMap.rising, hlo]
  | cons x m ih =>
    obtain ⟨a, w⟩ := x
    have hne : a ≠ k := hk (a, w) (by simp)
    simp only [FMap.rising, Bool.and_eq_true, decide_eq_true_eq] at hm
    simp only [FMap.ins]
    split
    · rename_i h
      simp only [FMap.rising, Bool.and_eq_true, decide_eq_true_eq]
      exact ⟨hlo, by omega, hm.2⟩
    · simp only [FMap.rising, Bool.and_eq_true, decide_eq_true_eq]
      exact ⟨hm.1, ih (by omega) (fun x hx => hk x (by simp [hx])) hm.2⟩

theorem FMap.mem_del {m : FMap α} {k : Nat} {x : Nat × α} (h : x ∈ FMap.del m k) : x ∈ m := by
  induction m with
  | nil => exact h
  | cons y m ih =>
    obtain ⟨a, v⟩ := y
    simp only [FMap.del] at h
    split at h
    · exact List.mem_cons_of_mem _ (ih h)
    · rcases List.mem_cons.mp h with rfl | h
      · simp
      · exact List.mem_cons_of_mem _ (ih h)

theorem FMap.mem_ins {m : FMap α} {k : Nat} {v : α} {x : Nat × α} (h : x ∈ FMap.ins k v m) : x = (k, v) ∨ x ∈ m := by
  induction m with
  | nil => simpa [FMap.ins] using h
  | cons y m ih =>
    obtain ⟨a, w⟩ := y
    simp only [FMap.ins] at h
    split at h
    · simpa using h
    · rcases List.mem_cons.mp h with rfl | h
      · simp
      · rcases ih h with h | h <;> simp [h]

/-- A write keeps the canonical form. -/
theorem FMap.wf_set [DecidableEq α] (d : Nat → α) {m : FMap α} (k : Nat) (v : α) (hm : FMap.wf d m = true) :
    FMap.wf d (FMap.set d m k v) = true := by
  simp only [FMap.wf, FMap.lean, Bool.and_eq_true, List.all_eq_true, decide_eq_true_eq] at hm ⊢
  unfold FMap.set
  split
  · exact ⟨FMap.rising_del k hm.1, fun x hx => hm.2 x (FMap.mem_del hx)⟩
  · rename_i hv
    refine ⟨FMap.rising_ins k v (Nat.zero_le k) (FMap.del_keys m k) (FMap.rising_del k hm.1), fun x hx => ?_⟩
    rcases FMap.mem_ins hx with rfl | hx
    · exact hv
    · exact hm.2 x (FMap.mem_del hx)

end Sys2Proof.Machine
end

