-- ==== Sys2Proof/Laws/Regs.lean ====
section
/-! SUPPORT. The laws of the register file: what a field reads after a field, a flag or a whole register has been written. -/

namespace Sys2Proof.Machine

/-- A field lies in a 64-bit value. -/
def Fld.fits (f : Fld) : Bool := decide (f.lo ≤ f.hi) && decide (f.hi < 64)

/-- Two fields of one register share no bit. -/
def Fld.apart (f g : Fld) : Bool := decide (f.hi < g.lo) || decide (g.hi < f.lo)

theorem Fld.testBit_of (f : Fld) (x : Long) (i : Nat) :
    (f.of x).testBit i = (decide (i < f.width) && x.getLsbD (f.lo + i)) := by
  simp only [Fld.of, ← Nat.shiftRight_eq_div_pow, Nat.testBit_mod_two_pow, Nat.testBit_shiftRight, BitVec.getLsbD]

theorem Fld.getLsbD_mask {f : Fld} (h : f.fits = true) (i : Nat) : f.mask.getLsbD i = (decide (f.lo ≤ i) && decide (i ≤ f.hi)) := by
  simp only [Fld.fits, Bool.and_eq_true, decide_eq_true_eq] at h
  simp only [Fld.mask, Fld.max, Fld.width, BitVec.getLsbD_ofNat, ← Nat.shiftLeft_eq, Nat.testBit_shiftLeft, Nat.testBit_two_pow_sub_one]
  by_cases h1 : f.lo ≤ i <;> by_cases h2 : i ≤ f.hi <;> simp [h1, h2] <;> omega

theorem Fld.getLsbD_put {f : Fld} (h : f.fits = true) (x : Long) (v i : Nat) :
    (f.put x v).getLsbD i = if f.lo ≤ i ∧ i ≤ f.hi then v.testBit (i - f.lo) else x.getLsbD i := by
  have hm := Fld.getLsbD_mask h i
  simp only [Fld.fits, Bool.and_eq_true, decide_eq_true_eq] at h
  by_cases hx : i < 64
  · simp only [Fld.put, BitVec.getLsbD_or, BitVec.getLsbD_and, BitVec.getLsbD_not, hm, BitVec.getLsbD_ofNat, hx, ← Nat.shiftLeft_eq,
      Nat.testBit_shiftLeft, Nat.testBit_mod_two_pow, Fld.width, decide_true, Bool.true_and]
    by_cases h1 : f.lo ≤ i <;> by_cases h2 : i ≤ f.hi <;> simp [h1, h2] <;> omega
  · have h3 : ¬(f.lo ≤ i ∧ i ≤ f.hi) := by omega
    rw [if_neg h3, BitVec.getLsbD_of_ge _ _ (by omega), BitVec.getLsbD_of_ge _ _ (by omega)]

theorem Fld.of_put {f : Fld} (h : f.fits = true) (x : Long) (v : Nat) : f.of (f.put x v) = v % 2 ^ f.width := by
  apply Nat.eq_of_testBit_eq
  intro i
  have hl := Fld.getLsbD_put h x v (f.lo + i)
  simp only [Fld.fits, Bool.and_eq_true, decide_eq_true_eq] at h
  rw [Fld.testBit_of, hl, Nat.testBit_mod_two_pow]
  by_cases hi : i < f.width
  · have : f.lo ≤ f.lo + i ∧ f.lo + i ≤ f.hi := by simp only [Fld.width] at hi; omega
    simp [hi, this]
  · simp [hi]

theorem Fld.of_put_apart {f g : Fld} (h : f.fits = true) (hg : g.fits = true) (ha : f.apart g = true) (x : Long) (v : Nat) :
    g.of (f.put x v) = g.of x := by
  apply Nat.eq_of_testBit_eq
  intro i
  have hl := Fld.getLsbD_put h x v (g.lo + i)
  simp only [Fld.fits, Fld.apart, Bool.and_eq_true, Bool.or_eq_true, decide_eq_true_eq] at h hg ha
  rw [Fld.testBit_of, Fld.testBit_of, hl]
  by_cases hi : i < g.width
  · have : ¬(f.lo ≤ g.lo + i ∧ g.lo + i ≤ f.hi) := by simp only [Fld.width] at hi; omega
    simp [this]
  · simp [hi]

/-- Taking away the bits of a mask. -/
theorem testBit_sub_and (i : Nat) : ∀ x m : Nat, (x - (x &&& m)).testBit i = (x.testBit i && !m.testBit i) := by
  have key : ∀ x m : Nat, (x &&& m) % 2 = x % 2 * (m % 2) ∧ (x &&& m) / 2 = (x / 2 &&& m / 2) := fun x m => by
    constructor
    · rw [show x % 2 * (m % 2) = (x % 2 &&& m % 2) by rcases Nat.mod_two_eq_zero_or_one x with h | h <;> rcases Nat.mod_two_eq_zero_or_one m with k | k <;> rw [h, k] <;> rfl]
      exact Nat.and_mod_two_pow (n := 1)
    · exact Nat.and_div_two_pow (n := 1)
  induction i with
  | zero =>
    intro x m
    obtain ⟨h1, h2⟩ := key x m
    have hle : (x &&& m) ≤ x := Nat.and_le_left
    simp only [Nat.testBit_zero]
    rcases Nat.mod_two_eq_zero_or_one x with h | h <;> rcases Nat.mod_two_eq_zero_or_one m with k | k <;> rw [h, k] at h1 <;>
      simp [h, k] <;> omega
  | succ i ih =>
    intro x m
    obtain ⟨h1, h2⟩ := key x m
    have hle : (x &&& m) ≤ x := Nat.and_le_left
    rw [Nat.testBit_succ, Nat.testBit_succ, Nat.testBit_succ, ← ih, ← h2]
    congr 1
    rcases Nat.mod_two_eq_zero_or_one x with h | h <;> rcases Nat.mod_two_eq_zero_or_one m with k | k <;> rw [h, k] at h1 <;> omega

/-! ### Registers alone decide what registers read -/

theorem Block.rd_congr {b c : Block} (h : b.regs = c.regs) (a : Nat) : b.rd a = c.rd a := by unfold Block.rd; rw [h]
theorem Block.num_congr {b c : Block} (h : b.regs = c.regs) (a : Nat) : b.num a = c.num a := by unfold Block.num; rw [h]
theorem Block.get_congr {b c : Block} (h : b.regs = c.regs) (f : Fld) : b.get f = c.get f := by unfold Block.get; rw [h]
theorem Block.on_congr {b c : Block} (h : b.regs = c.regs) (f : Fld) : b.on f = c.on f := by unfold Block.on; rw [h]

/-! ### Whole registers -/

@[simp] theorem Block.rd_wr (b : Block) (a : Nat) (v : Long) : (b.wr a v).rd a = v := FMap.get_set_same _ _ _ _

theorem Block.rd_wr_ne (b : Block) {a a' : Nat} (v : Long) (h : a' ≠ a) : (b.wr a v).rd a' = b.rd a' := FMap.get_set_ne _ _ _ h

theorem Block.rd_put_ne (b : Block) {f : Fld} {a : Nat} (v : Nat) (h : a ≠ f.addr) : (b.put f v).rd a = b.rd a := FMap.get_set_ne _ _ _ h

theorem Block.rd_put (b : Block) (f : Fld) (v : Nat) : (b.put f v).rd f.addr = f.put (b.rd f.addr) v := FMap.get_set_same _ _ _ _

/-! ### Fields -/

theorem Block.get_put (b : Block) {f : Fld} (h : f.fits = true) (v : Nat) : (b.put f v).get f = v % 2 ^ f.width := by
  show f.of ((b.put f v).rd f.addr) = _
  rw [Block.rd_put, Fld.of_put h]

/-- A field of another register is as it was. -/
theorem Block.get_put_ne (b : Block) {f g : Fld} (v : Nat) (h : g.addr ≠ f.addr) : (b.put f v).get g = b.get g := by
  show g.of ((b.put f v).rd g.addr) = g.of (b.rd g.addr)
  rw [Block.rd_put_ne b v h]

/-- Another field of the same register is as it was. -/
theorem Block.get_put_apart (b : Block) {f g : Fld} (v : Nat) (h : f.fits = true) (hg : g.fits = true) (hs : g.addr = f.addr)
    (ha : f.apart g = true) : (b.put f v).get g = b.get g := by
  show g.of ((b.put f v).rd g.addr) = g.of (b.rd g.addr)
  rw [hs, Block.rd_put, Fld.of_put_apart h hg ha]

theorem Block.get_wr_ne (b : Block) {g : Fld} {a : Nat} (v : Long) (h : g.addr ≠ a) : (b.wr a v).get g = b.get g := by
  show g.of ((b.wr a v).rd g.addr) = g.of (b.rd g.addr)
  rw [Block.rd_wr_ne b v h]

theorem Block.bump_eq (b : Block) (f : Fld) (n : Nat) : b.bump f n = b.put f (min f.max (b.get f + n)) := rfl
theorem Block.setBit_eq (b : Block) (f : Fld) (i : Nat) : b.setBit f i = b.put f (b.get f ||| 2 ^ i) := rfl
theorem Block.clrBit_eq (b : Block) (f : Fld) (i : Nat) : b.clrBit f i = b.put f (b.get f - (b.get f / 2 ^ i % 2) * 2 ^ i) := rfl
theorem Block.flag_eq (b : Block) (f : Fld) : b.flag f = b.put f 1 := rfl
theorem Block.setNum_eq (b : Block) (a v : Nat) : b.setNum a v = b.wr a (BitVec.ofNat 64 v) := rfl

/-- A counter counts up to its largest value and stays there. -/
theorem Block.get_bump (b : Block) {f : Fld} (h : f.fits = true) (n : Nat) : (b.bump f n).get f = min f.max (b.get f + n) := by
  rw [Block.bump_eq, Block.get_put b h]
  apply Nat.mod_eq_of_lt
  have : 0 < 2 ^ f.width := Nat.two_pow_pos _
  simp only [Fld.max]
  omega

end Sys2Proof.Machine
end

