-- ==== Sys2Proof/Laws/State.lean ====
section
/-! SUPPORT. One lemma per field of the block and per update: what an update leaves as it was, and what it sets. -/

namespace Sys2Proof.Machine

variable (b : Block)


/-! ### Block.put -/


/-! ### The field regs -/

theorem Block.with_regs_mem (x : Regs) : ({ b with regs := x } : Block).mem = b.mem := rfl
theorem Block.with_regs_bus (x : Regs) : ({ b with regs := x } : Block).bus = b.bus := rfl
theorem Block.with_regs_tbu (x : Regs) : ({ b with regs := x } : Block).tbu = b.tbu := rfl
theorem Block.with_regs_efe (x : Regs) : ({ b with regs := x } : Block).efe = b.efe := rfl
theorem Block.with_regs_alc (x : Regs) : ({ b with regs := x } : Block).alc = b.alc := rfl
theorem Block.with_regs_dlr (x : Regs) : ({ b with regs := x } : Block).dlr = b.dlr := rfl
theorem Block.with_regs_sht (x : Regs) : ({ b with regs := x } : Block).sht = b.sht := rfl
theorem Block.with_regs_mm (x : Regs) : ({ b with regs := x } : Block).mm = b.mm := rfl
theorem Block.with_regs_rel (x : Regs) : ({ b with regs := x } : Block).rel = b.rel := rfl
theorem Block.with_regs_leg (x : Regs) : ({ b with regs := x } : Block).leg = b.leg := rfl
theorem Block.with_regs_mix (x : Regs) : ({ b with regs := x } : Block).mix = b.mix := rfl
theorem Block.with_regs_cvo (x : Regs) : ({ b with regs := x } : Block).cvo = b.cvo := rfl
theorem Block.with_regs_sap (x : Regs) : ({ b with regs := x } : Block).sap = b.sap := rfl
theorem Block.with_regs_wft (x : Regs) : ({ b with regs := x } : Block).wft = b.wft := rfl
theorem Block.with_regs_sec (x : Regs) : ({ b with regs := x } : Block).sec = b.sec := rfl
theorem Block.with_regs_sys (x : Regs) : ({ b with regs := x } : Block).sys = b.sys := rfl
theorem Block.with_regs_pwr (x : Regs) : ({ b with regs := x } : Block).pwr = b.pwr := rfl
theorem Block.with_regs_img (x : Regs) : ({ b with regs := x } : Block).img = b.img := rfl
@[simp] theorem Block.put_regs (f : Fld) (v : Nat) : (b.put f v).regs = b.regs.setF f v := rfl
@[simp] theorem Block.put_mem (f : Fld) (v : Nat) : (b.put f v).mem = b.mem := Block.with_regs_mem b _
@[simp] theorem Block.put_bus (f : Fld) (v : Nat) : (b.put f v).bus = b.bus := Block.with_regs_bus b _
@[simp] theorem Block.put_tbu (f : Fld) (v : Nat) : (b.put f v).tbu = b.tbu := Block.with_regs_tbu b _
@[simp] theorem Block.put_efe (f : Fld) (v : Nat) : (b.put f v).efe = b.efe := Block.with_regs_efe b _
@[simp] theorem Block.put_alc (f : Fld) (v : Nat) : (b.put f v).alc = b.alc := Block.with_regs_alc b _
@[simp] theorem Block.put_dlr (f : Fld) (v : Nat) : (b.put f v).dlr = b.dlr := Block.with_regs_dlr b _
@[simp] theorem Block.put_sht (f : Fld) (v : Nat) : (b.put f v).sht = b.sht := Block.with_regs_sht b _
@[simp] theorem Block.put_mm (f : Fld) (v : Nat) : (b.put f v).mm = b.mm := Block.with_regs_mm b _
@[simp] theorem Block.put_rel (f : Fld) (v : Nat) : (b.put f v).rel = b.rel := Block.with_regs_rel b _
@[simp] theorem Block.put_leg (f : Fld) (v : Nat) : (b.put f v).leg = b.leg := Block.with_regs_leg b _
@[simp] theorem Block.put_mix (f : Fld) (v : Nat) : (b.put f v).mix = b.mix := Block.with_regs_mix b _
@[simp] theorem Block.put_cvo (f : Fld) (v : Nat) : (b.put f v).cvo = b.cvo := Block.with_regs_cvo b _
@[simp] theorem Block.put_sap (f : Fld) (v : Nat) : (b.put f v).sap = b.sap := Block.with_regs_sap b _
@[simp] theorem Block.put_wft (f : Fld) (v : Nat) : (b.put f v).wft = b.wft := Block.with_regs_wft b _
@[simp] theorem Block.put_sec (f : Fld) (v : Nat) : (b.put f v).sec = b.sec := Block.with_regs_sec b _
@[simp] theorem Block.put_sys (f : Fld) (v : Nat) : (b.put f v).sys = b.sys := Block.with_regs_sys b _
@[simp] theorem Block.put_pwr (f : Fld) (v : Nat) : (b.put f v).pwr = b.pwr := Block.with_regs_pwr b _
@[simp] theorem Block.put_img (f : Fld) (v : Nat) : (b.put f v).img = b.img := Block.with_regs_img b _

/-! ### Block.wr -/

@[simp] theorem Block.wr_regs (a : Nat) (v : Long) : (b.wr a v).regs = b.regs.wr a v := rfl
@[simp] theorem Block.wr_mem (a : Nat) (v : Long) : (b.wr a v).mem = b.mem := Block.with_regs_mem b _
@[simp] theorem Block.wr_bus (a : Nat) (v : Long) : (b.wr a v).bus = b.bus := Block.with_regs_bus b _
@[simp] theorem Block.wr_tbu (a : Nat) (v : Long) : (b.wr a v).tbu = b.tbu := Block.with_regs_tbu b _
@[simp] theorem Block.wr_efe (a : Nat) (v : Long) : (b.wr a v).efe = b.efe := Block.with_regs_efe b _
@[simp] theorem Block.wr_alc (a : Nat) (v : Long) : (b.wr a v).alc = b.alc := Block.with_regs_alc b _
@[simp] theorem Block.wr_dlr (a : Nat) (v : Long) : (b.wr a v).dlr = b.dlr := Block.with_regs_dlr b _
@[simp] theorem Block.wr_sht (a : Nat) (v : Long) : (b.wr a v).sht = b.sht := Block.with_regs_sht b _
@[simp] theorem Block.wr_mm (a : Nat) (v : Long) : (b.wr a v).mm = b.mm := Block.with_regs_mm b _
@[simp] theorem Block.wr_rel (a : Nat) (v : Long) : (b.wr a v).rel = b.rel := Block.with_regs_rel b _
@[simp] theorem Block.wr_leg (a : Nat) (v : Long) : (b.wr a v).leg = b.leg := Block.with_regs_leg b _
@[simp] theorem Block.wr_mix (a : Nat) (v : Long) : (b.wr a v).mix = b.mix := Block.with_regs_mix b _
@[simp] theorem Block.wr_cvo (a : Nat) (v : Long) : (b.wr a v).cvo = b.cvo := Block.with_regs_cvo b _
@[simp] theorem Block.wr_sap (a : Nat) (v : Long) : (b.wr a v).sap = b.sap := Block.with_regs_sap b _
@[simp] theorem Block.wr_wft (a : Nat) (v : Long) : (b.wr a v).wft = b.wft := Block.with_regs_wft b _
@[simp] theorem Block.wr_sec (a : Nat) (v : Long) : (b.wr a v).sec = b.sec := Block.with_regs_sec b _
@[simp] theorem Block.wr_sys (a : Nat) (v : Long) : (b.wr a v).sys = b.sys := Block.with_regs_sys b _
@[simp] theorem Block.wr_pwr (a : Nat) (v : Long) : (b.wr a v).pwr = b.pwr := Block.with_regs_pwr b _
@[simp] theorem Block.wr_img (a : Nat) (v : Long) : (b.wr a v).img = b.img := Block.with_regs_img b _

/-! ### Block.setNum -/

@[simp] theorem Block.setNum_regs (a v : Nat) : (b.setNum a v).regs = b.regs.wr a (BitVec.ofNat 64 v) := rfl
@[simp] theorem Block.setNum_mem (a v : Nat) : (b.setNum a v).mem = b.mem := Block.with_regs_mem b _
@[simp] theorem Block.setNum_bus (a v : Nat) : (b.setNum a v).bus = b.bus := Block.with_regs_bus b _
@[simp] theorem Block.setNum_tbu (a v : Nat) : (b.setNum a v).tbu = b.tbu := Block.with_regs_tbu b _
@[simp] theorem Block.setNum_efe (a v : Nat) : (b.setNum a v).efe = b.efe := Block.with_regs_efe b _
@[simp] theorem Block.setNum_alc (a v : Nat) : (b.setNum a v).alc = b.alc := Block.with_regs_alc b _
@[simp] theorem Block.setNum_dlr (a v : Nat) : (b.setNum a v).dlr = b.dlr := Block.with_regs_dlr b _
@[simp] theorem Block.setNum_sht (a v : Nat) : (b.setNum a v).sht = b.sht := Block.with_regs_sht b _
@[simp] theorem Block.setNum_mm (a v : Nat) : (b.setNum a v).mm = b.mm := Block.with_regs_mm b _
@[simp] theorem Block.setNum_rel (a v : Nat) : (b.setNum a v).rel = b.rel := Block.with_regs_rel b _
@[simp] theorem Block.setNum_leg (a v : Nat) : (b.setNum a v).leg = b.leg := Block.with_regs_leg b _
@[simp] theorem Block.setNum_mix (a v : Nat) : (b.setNum a v).mix = b.mix := Block.with_regs_mix b _
@[simp] theorem Block.setNum_cvo (a v : Nat) : (b.setNum a v).cvo = b.cvo := Block.with_regs_cvo b _
@[simp] theorem Block.setNum_sap (a v : Nat) : (b.setNum a v).sap = b.sap := Block.with_regs_sap b _
@[simp] theorem Block.setNum_wft (a v : Nat) : (b.setNum a v).wft = b.wft := Block.with_regs_wft b _
@[simp] theorem Block.setNum_sec (a v : Nat) : (b.setNum a v).sec = b.sec := Block.with_regs_sec b _
@[simp] theorem Block.setNum_sys (a v : Nat) : (b.setNum a v).sys = b.sys := Block.with_regs_sys b _
@[simp] theorem Block.setNum_pwr (a v : Nat) : (b.setNum a v).pwr = b.pwr := Block.with_regs_pwr b _
@[simp] theorem Block.setNum_img (a v : Nat) : (b.setNum a v).img = b.img := Block.with_regs_img b _

/-! ### Block.flag -/

@[simp] theorem Block.flag_regs (f : Fld) : (b.flag f).regs = b.regs.setF f 1 := rfl
@[simp] theorem Block.flag_mem (f : Fld) : (b.flag f).mem = b.mem := Block.with_regs_mem b _
@[simp] theorem Block.flag_bus (f : Fld) : (b.flag f).bus = b.bus := Block.with_regs_bus b _
@[simp] theorem Block.flag_tbu (f : Fld) : (b.flag f).tbu = b.tbu := Block.with_regs_tbu b _
@[simp] theorem Block.flag_efe (f : Fld) : (b.flag f).efe = b.efe := Block.with_regs_efe b _
@[simp] theorem Block.flag_alc (f : Fld) : (b.flag f).alc = b.alc := Block.with_regs_alc b _
@[simp] theorem Block.flag_dlr (f : Fld) : (b.flag f).dlr = b.dlr := Block.with_regs_dlr b _
@[simp] theorem Block.flag_sht (f : Fld) : (b.flag f).sht = b.sht := Block.with_regs_sht b _
@[simp] theorem Block.flag_mm (f : Fld) : (b.flag f).mm = b.mm := Block.with_regs_mm b _
@[simp] theorem Block.flag_rel (f : Fld) : (b.flag f).rel = b.rel := Block.with_regs_rel b _
@[simp] theorem Block.flag_leg (f : Fld) : (b.flag f).leg = b.leg := Block.with_regs_leg b _
@[simp] theorem Block.flag_mix (f : Fld) : (b.flag f).mix = b.mix := Block.with_regs_mix b _
@[simp] theorem Block.flag_cvo (f : Fld) : (b.flag f).cvo = b.cvo := Block.with_regs_cvo b _
@[simp] theorem Block.flag_sap (f : Fld) : (b.flag f).sap = b.sap := Block.with_regs_sap b _
@[simp] theorem Block.flag_wft (f : Fld) : (b.flag f).wft = b.wft := Block.with_regs_wft b _
@[simp] theorem Block.flag_sec (f : Fld) : (b.flag f).sec = b.sec := Block.with_regs_sec b _
@[simp] theorem Block.flag_sys (f : Fld) : (b.flag f).sys = b.sys := Block.with_regs_sys b _
@[simp] theorem Block.flag_pwr (f : Fld) : (b.flag f).pwr = b.pwr := Block.with_regs_pwr b _
@[simp] theorem Block.flag_img (f : Fld) : (b.flag f).img = b.img := Block.with_regs_img b _

/-! ### Block.bump -/

@[simp] theorem Block.bump_regs (f : Fld) (n : Nat) : (b.bump f n).regs = b.regs.bump f n := rfl
@[simp] theorem Block.bump_mem (f : Fld) (n : Nat) : (b.bump f n).mem = b.mem := Block.with_regs_mem b _
@[simp] theorem Block.bump_bus (f : Fld) (n : Nat) : (b.bump f n).bus = b.bus := Block.with_regs_bus b _
@[simp] theorem Block.bump_tbu (f : Fld) (n : Nat) : (b.bump f n).tbu = b.tbu := Block.with_regs_tbu b _
@[simp] theorem Block.bump_efe (f : Fld) (n : Nat) : (b.bump f n).efe = b.efe := Block.with_regs_efe b _
@[simp] theorem Block.bump_alc (f : Fld) (n : Nat) : (b.bump f n).alc = b.alc := Block.with_regs_alc b _
@[simp] theorem Block.bump_dlr (f : Fld) (n : Nat) : (b.bump f n).dlr = b.dlr := Block.with_regs_dlr b _
@[simp] theorem Block.bump_sht (f : Fld) (n : Nat) : (b.bump f n).sht = b.sht := Block.with_regs_sht b _
@[simp] theorem Block.bump_mm (f : Fld) (n : Nat) : (b.bump f n).mm = b.mm := Block.with_regs_mm b _
@[simp] theorem Block.bump_rel (f : Fld) (n : Nat) : (b.bump f n).rel = b.rel := Block.with_regs_rel b _
@[simp] theorem Block.bump_leg (f : Fld) (n : Nat) : (b.bump f n).leg = b.leg := Block.with_regs_leg b _
@[simp] theorem Block.bump_mix (f : Fld) (n : Nat) : (b.bump f n).mix = b.mix := Block.with_regs_mix b _
@[simp] theorem Block.bump_cvo (f : Fld) (n : Nat) : (b.bump f n).cvo = b.cvo := Block.with_regs_cvo b _
@[simp] theorem Block.bump_sap (f : Fld) (n : Nat) : (b.bump f n).sap = b.sap := Block.with_regs_sap b _
@[simp] theorem Block.bump_wft (f : Fld) (n : Nat) : (b.bump f n).wft = b.wft := Block.with_regs_wft b _
@[simp] theorem Block.bump_sec (f : Fld) (n : Nat) : (b.bump f n).sec = b.sec := Block.with_regs_sec b _
@[simp] theorem Block.bump_sys (f : Fld) (n : Nat) : (b.bump f n).sys = b.sys := Block.with_regs_sys b _
@[simp] theorem Block.bump_pwr (f : Fld) (n : Nat) : (b.bump f n).pwr = b.pwr := Block.with_regs_pwr b _
@[simp] theorem Block.bump_img (f : Fld) (n : Nat) : (b.bump f n).img = b.img := Block.with_regs_img b _

/-! ### Block.setBit -/

@[simp] theorem Block.setBit_regs (f : Fld) (i : Nat) : (b.setBit f i).regs = b.regs.setBit f i := rfl
@[simp] theorem Block.setBit_mem (f : Fld) (i : Nat) : (b.setBit f i).mem = b.mem := Block.with_regs_mem b _
@[simp] theorem Block.setBit_bus (f : Fld) (i : Nat) : (b.setBit f i).bus = b.bus := Block.with_regs_bus b _
@[simp] theorem Block.setBit_tbu (f : Fld) (i : Nat) : (b.setBit f i).tbu = b.tbu := Block.with_regs_tbu b _
@[simp] theorem Block.setBit_efe (f : Fld) (i : Nat) : (b.setBit f i).efe = b.efe := Block.with_regs_efe b _
@[simp] theorem Block.setBit_alc (f : Fld) (i : Nat) : (b.setBit f i).alc = b.alc := Block.with_regs_alc b _
@[simp] theorem Block.setBit_dlr (f : Fld) (i : Nat) : (b.setBit f i).dlr = b.dlr := Block.with_regs_dlr b _
@[simp] theorem Block.setBit_sht (f : Fld) (i : Nat) : (b.setBit f i).sht = b.sht := Block.with_regs_sht b _
@[simp] theorem Block.setBit_mm (f : Fld) (i : Nat) : (b.setBit f i).mm = b.mm := Block.with_regs_mm b _
@[simp] theorem Block.setBit_rel (f : Fld) (i : Nat) : (b.setBit f i).rel = b.rel := Block.with_regs_rel b _
@[simp] theorem Block.setBit_leg (f : Fld) (i : Nat) : (b.setBit f i).leg = b.leg := Block.with_regs_leg b _
@[simp] theorem Block.setBit_mix (f : Fld) (i : Nat) : (b.setBit f i).mix = b.mix := Block.with_regs_mix b _
@[simp] theorem Block.setBit_cvo (f : Fld) (i : Nat) : (b.setBit f i).cvo = b.cvo := Block.with_regs_cvo b _
@[simp] theorem Block.setBit_sap (f : Fld) (i : Nat) : (b.setBit f i).sap = b.sap := Block.with_regs_sap b _
@[simp] theorem Block.setBit_wft (f : Fld) (i : Nat) : (b.setBit f i).wft = b.wft := Block.with_regs_wft b _
@[simp] theorem Block.setBit_sec (f : Fld) (i : Nat) : (b.setBit f i).sec = b.sec := Block.with_regs_sec b _
@[simp] theorem Block.setBit_sys (f : Fld) (i : Nat) : (b.setBit f i).sys = b.sys := Block.with_regs_sys b _
@[simp] theorem Block.setBit_pwr (f : Fld) (i : Nat) : (b.setBit f i).pwr = b.pwr := Block.with_regs_pwr b _
@[simp] theorem Block.setBit_img (f : Fld) (i : Nat) : (b.setBit f i).img = b.img := Block.with_regs_img b _

/-! ### Block.clrBit -/

@[simp] theorem Block.clrBit_regs (f : Fld) (i : Nat) : (b.clrBit f i).regs = b.regs.clrBit f i := rfl
@[simp] theorem Block.clrBit_mem (f : Fld) (i : Nat) : (b.clrBit f i).mem = b.mem := Block.with_regs_mem b _
@[simp] theorem Block.clrBit_bus (f : Fld) (i : Nat) : (b.clrBit f i).bus = b.bus := Block.with_regs_bus b _
@[simp] theorem Block.clrBit_tbu (f : Fld) (i : Nat) : (b.clrBit f i).tbu = b.tbu := Block.with_regs_tbu b _
@[simp] theorem Block.clrBit_efe (f : Fld) (i : Nat) : (b.clrBit f i).efe = b.efe := Block.with_regs_efe b _
@[simp] theorem Block.clrBit_alc (f : Fld) (i : Nat) : (b.clrBit f i).alc = b.alc := Block.with_regs_alc b _
@[simp] theorem Block.clrBit_dlr (f : Fld) (i : Nat) : (b.clrBit f i).dlr = b.dlr := Block.with_regs_dlr b _
@[simp] theorem Block.clrBit_sht (f : Fld) (i : Nat) : (b.clrBit f i).sht = b.sht := Block.with_regs_sht b _
@[simp] theorem Block.clrBit_mm (f : Fld) (i : Nat) : (b.clrBit f i).mm = b.mm := Block.with_regs_mm b _
@[simp] theorem Block.clrBit_rel (f : Fld) (i : Nat) : (b.clrBit f i).rel = b.rel := Block.with_regs_rel b _
@[simp] theorem Block.clrBit_leg (f : Fld) (i : Nat) : (b.clrBit f i).leg = b.leg := Block.with_regs_leg b _
@[simp] theorem Block.clrBit_mix (f : Fld) (i : Nat) : (b.clrBit f i).mix = b.mix := Block.with_regs_mix b _
@[simp] theorem Block.clrBit_cvo (f : Fld) (i : Nat) : (b.clrBit f i).cvo = b.cvo := Block.with_regs_cvo b _
@[simp] theorem Block.clrBit_sap (f : Fld) (i : Nat) : (b.clrBit f i).sap = b.sap := Block.with_regs_sap b _
@[simp] theorem Block.clrBit_wft (f : Fld) (i : Nat) : (b.clrBit f i).wft = b.wft := Block.with_regs_wft b _
@[simp] theorem Block.clrBit_sec (f : Fld) (i : Nat) : (b.clrBit f i).sec = b.sec := Block.with_regs_sec b _
@[simp] theorem Block.clrBit_sys (f : Fld) (i : Nat) : (b.clrBit f i).sys = b.sys := Block.with_regs_sys b _
@[simp] theorem Block.clrBit_pwr (f : Fld) (i : Nat) : (b.clrBit f i).pwr = b.pwr := Block.with_regs_pwr b _
@[simp] theorem Block.clrBit_img (f : Fld) (i : Nat) : (b.clrBit f i).img = b.img := Block.with_regs_img b _

/-! ### setTbu -/


/-! ### The field tbu -/

theorem Block.with_tbu_regs (x : Tbu) : ({ b with tbu := x } : Block).regs = b.regs := rfl
theorem Block.with_tbu_mem (x : Tbu) : ({ b with tbu := x } : Block).mem = b.mem := rfl
theorem Block.with_tbu_bus (x : Tbu) : ({ b with tbu := x } : Block).bus = b.bus := rfl
theorem Block.with_tbu_efe (x : Tbu) : ({ b with tbu := x } : Block).efe = b.efe := rfl
theorem Block.with_tbu_alc (x : Tbu) : ({ b with tbu := x } : Block).alc = b.alc := rfl
theorem Block.with_tbu_dlr (x : Tbu) : ({ b with tbu := x } : Block).dlr = b.dlr := rfl
theorem Block.with_tbu_sht (x : Tbu) : ({ b with tbu := x } : Block).sht = b.sht := rfl
theorem Block.with_tbu_mm (x : Tbu) : ({ b with tbu := x } : Block).mm = b.mm := rfl
theorem Block.with_tbu_rel (x : Tbu) : ({ b with tbu := x } : Block).rel = b.rel := rfl
theorem Block.with_tbu_leg (x : Tbu) : ({ b with tbu := x } : Block).leg = b.leg := rfl
theorem Block.with_tbu_mix (x : Tbu) : ({ b with tbu := x } : Block).mix = b.mix := rfl
theorem Block.with_tbu_cvo (x : Tbu) : ({ b with tbu := x } : Block).cvo = b.cvo := rfl
theorem Block.with_tbu_sap (x : Tbu) : ({ b with tbu := x } : Block).sap = b.sap := rfl
theorem Block.with_tbu_wft (x : Tbu) : ({ b with tbu := x } : Block).wft = b.wft := rfl
theorem Block.with_tbu_sec (x : Tbu) : ({ b with tbu := x } : Block).sec = b.sec := rfl
theorem Block.with_tbu_sys (x : Tbu) : ({ b with tbu := x } : Block).sys = b.sys := rfl
theorem Block.with_tbu_pwr (x : Tbu) : ({ b with tbu := x } : Block).pwr = b.pwr := rfl
theorem Block.with_tbu_img (x : Tbu) : ({ b with tbu := x } : Block).img = b.img := rfl
@[simp] theorem Block.setTbu_regs (f : Tbu → Tbu) : (setTbu f b).regs = b.regs := Block.with_tbu_regs b _
@[simp] theorem Block.setTbu_mem (f : Tbu → Tbu) : (setTbu f b).mem = b.mem := Block.with_tbu_mem b _
@[simp] theorem Block.setTbu_bus (f : Tbu → Tbu) : (setTbu f b).bus = b.bus := Block.with_tbu_bus b _
@[simp] theorem Block.setTbu_tbu (f : Tbu → Tbu) : (setTbu f b).tbu = f b.tbu := rfl
@[simp] theorem Block.setTbu_efe (f : Tbu → Tbu) : (setTbu f b).efe = b.efe := Block.with_tbu_efe b _
@[simp] theorem Block.setTbu_alc (f : Tbu → Tbu) : (setTbu f b).alc = b.alc := Block.with_tbu_alc b _
@[simp] theorem Block.setTbu_dlr (f : Tbu → Tbu) : (setTbu f b).dlr = b.dlr := Block.with_tbu_dlr b _
@[simp] theorem Block.setTbu_sht (f : Tbu → Tbu) : (setTbu f b).sht = b.sht := Block.with_tbu_sht b _
@[simp] theorem Block.setTbu_mm (f : Tbu → Tbu) : (setTbu f b).mm = b.mm := Block.with_tbu_mm b _
@[simp] theorem Block.setTbu_rel (f : Tbu → Tbu) : (setTbu f b).rel = b.rel := Block.with_tbu_rel b _
@[simp] theorem Block.setTbu_leg (f : Tbu → Tbu) : (setTbu f b).leg = b.leg := Block.with_tbu_leg b _
@[simp] theorem Block.setTbu_mix (f : Tbu → Tbu) : (setTbu f b).mix = b.mix := Block.with_tbu_mix b _
@[simp] theorem Block.setTbu_cvo (f : Tbu → Tbu) : (setTbu f b).cvo = b.cvo := Block.with_tbu_cvo b _
@[simp] theorem Block.setTbu_sap (f : Tbu → Tbu) : (setTbu f b).sap = b.sap := Block.with_tbu_sap b _
@[simp] theorem Block.setTbu_wft (f : Tbu → Tbu) : (setTbu f b).wft = b.wft := Block.with_tbu_wft b _
@[simp] theorem Block.setTbu_sec (f : Tbu → Tbu) : (setTbu f b).sec = b.sec := Block.with_tbu_sec b _
@[simp] theorem Block.setTbu_sys (f : Tbu → Tbu) : (setTbu f b).sys = b.sys := Block.with_tbu_sys b _
@[simp] theorem Block.setTbu_pwr (f : Tbu → Tbu) : (setTbu f b).pwr = b.pwr := Block.with_tbu_pwr b _
@[simp] theorem Block.setTbu_img (f : Tbu → Tbu) : (setTbu f b).img = b.img := Block.with_tbu_img b _

/-! ### setRel -/

@[simp] theorem Block.setRel_regs (f : Rel → Rel) : (setRel f b).regs = b.regs := rfl
@[simp] theorem Block.setRel_mem (f : Rel → Rel) : (setRel f b).mem = b.mem := rfl
@[simp] theorem Block.setRel_bus (f : Rel → Rel) : (setRel f b).bus = b.bus := rfl
@[simp] theorem Block.setRel_tbu (f : Rel → Rel) : (setRel f b).tbu = b.tbu := rfl
@[simp] theorem Block.setRel_efe (f : Rel → Rel) : (setRel f b).efe = b.efe := rfl
@[simp] theorem Block.setRel_alc (f : Rel → Rel) : (setRel f b).alc = b.alc := rfl
@[simp] theorem Block.setRel_dlr (f : Rel → Rel) : (setRel f b).dlr = b.dlr := rfl
@[simp] theorem Block.setRel_sht (f : Rel → Rel) : (setRel f b).sht = b.sht := rfl
@[simp] theorem Block.setRel_mm (f : Rel → Rel) : (setRel f b).mm = b.mm := rfl
@[simp] theorem Block.setRel_rel (f : Rel → Rel) : (setRel f b).rel = f b.rel := rfl
@[simp] theorem Block.setRel_leg (f : Rel → Rel) : (setRel f b).leg = b.leg := rfl
@[simp] theorem Block.setRel_mix (f : Rel → Rel) : (setRel f b).mix = b.mix := rfl
@[simp] theorem Block.setRel_cvo (f : Rel → Rel) : (setRel f b).cvo = b.cvo := rfl
@[simp] theorem Block.setRel_sap (f : Rel → Rel) : (setRel f b).sap = b.sap := rfl
@[simp] theorem Block.setRel_wft (f : Rel → Rel) : (setRel f b).wft = b.wft := rfl
@[simp] theorem Block.setRel_sec (f : Rel → Rel) : (setRel f b).sec = b.sec := rfl
@[simp] theorem Block.setRel_sys (f : Rel → Rel) : (setRel f b).sys = b.sys := rfl
@[simp] theorem Block.setRel_pwr (f : Rel → Rel) : (setRel f b).pwr = b.pwr := rfl
@[simp] theorem Block.setRel_img (f : Rel → Rel) : (setRel f b).img = b.img := rfl

/-! ### setSec -/

@[simp] theorem Block.setSec_regs (f : Sec → Sec) : (setSec f b).regs = b.regs := rfl
@[simp] theorem Block.setSec_mem (f : Sec → Sec) : (setSec f b).mem = b.mem := rfl
@[simp] theorem Block.setSec_bus (f : Sec → Sec) : (setSec f b).bus = b.bus := rfl
@[simp] theorem Block.setSec_tbu (f : Sec → Sec) : (setSec f b).tbu = b.tbu := rfl
@[simp] theorem Block.setSec_efe (f : Sec → Sec) : (setSec f b).efe = b.efe := rfl
@[simp] theorem Block.setSec_alc (f : Sec → Sec) : (setSec f b).alc = b.alc := rfl
@[simp] theorem Block.setSec_dlr (f : Sec → Sec) : (setSec f b).dlr = b.dlr := rfl
@[simp] theorem Block.setSec_sht (f : Sec → Sec) : (setSec f b).sht = b.sht := rfl
@[simp] theorem Block.setSec_mm (f : Sec → Sec) : (setSec f b).mm = b.mm := rfl
@[simp] theorem Block.setSec_rel (f : Sec → Sec) : (setSec f b).rel = b.rel := rfl
@[simp] theorem Block.setSec_leg (f : Sec → Sec) : (setSec f b).leg = b.leg := rfl
@[simp] theorem Block.setSec_mix (f : Sec → Sec) : (setSec f b).mix = b.mix := rfl
@[simp] theorem Block.setSec_cvo (f : Sec → Sec) : (setSec f b).cvo = b.cvo := rfl
@[simp] theorem Block.setSec_sap (f : Sec → Sec) : (setSec f b).sap = b.sap := rfl
@[simp] theorem Block.setSec_wft (f : Sec → Sec) : (setSec f b).wft = b.wft := rfl
@[simp] theorem Block.setSec_sec (f : Sec → Sec) : (setSec f b).sec = f b.sec := rfl
@[simp] theorem Block.setSec_sys (f : Sec → Sec) : (setSec f b).sys = b.sys := rfl
@[simp] theorem Block.setSec_pwr (f : Sec → Sec) : (setSec f b).pwr = b.pwr := rfl
@[simp] theorem Block.setSec_img (f : Sec → Sec) : (setSec f b).img = b.img := rfl

/-! ### setSys -/


/-! ### The field sys -/

theorem Block.with_sys_regs (x : Sys) : ({ b with sys := x } : Block).regs = b.regs := rfl
theorem Block.with_sys_mem (x : Sys) : ({ b with sys := x } : Block).mem = b.mem := rfl
theorem Block.with_sys_bus (x : Sys) : ({ b with sys := x } : Block).bus = b.bus := rfl
theorem Block.with_sys_tbu (x : Sys) : ({ b with sys := x } : Block).tbu = b.tbu := rfl
theorem Block.with_sys_efe (x : Sys) : ({ b with sys := x } : Block).efe = b.efe := rfl
theorem Block.with_sys_alc (x : Sys) : ({ b with sys := x } : Block).alc = b.alc := rfl
theorem Block.with_sys_dlr (x : Sys) : ({ b with sys := x } : Block).dlr = b.dlr := rfl
theorem Block.with_sys_sht (x : Sys) : ({ b with sys := x } : Block).sht = b.sht := rfl
theorem Block.with_sys_mm (x : Sys) : ({ b with sys := x } : Block).mm = b.mm := rfl
theorem Block.with_sys_rel (x : Sys) : ({ b with sys := x } : Block).rel = b.rel := rfl
theorem Block.with_sys_leg (x : Sys) : ({ b with sys := x } : Block).leg = b.leg := rfl
theorem Block.with_sys_mix (x : Sys) : ({ b with sys := x } : Block).mix = b.mix := rfl
theorem Block.with_sys_cvo (x : Sys) : ({ b with sys := x } : Block).cvo = b.cvo := rfl
theorem Block.with_sys_sap (x : Sys) : ({ b with sys := x } : Block).sap = b.sap := rfl
theorem Block.with_sys_wft (x : Sys) : ({ b with sys := x } : Block).wft = b.wft := rfl
theorem Block.with_sys_sec (x : Sys) : ({ b with sys := x } : Block).sec = b.sec := rfl
theorem Block.with_sys_pwr (x : Sys) : ({ b with sys := x } : Block).pwr = b.pwr := rfl
theorem Block.with_sys_img (x : Sys) : ({ b with sys := x } : Block).img = b.img := rfl
@[simp] theorem Block.setSys_regs (f : Sys → Sys) : (setSys f b).regs = b.regs := Block.with_sys_regs b _
@[simp] theorem Block.setSys_mem (f : Sys → Sys) : (setSys f b).mem = b.mem := Block.with_sys_mem b _
@[simp] theorem Block.setSys_bus (f : Sys → Sys) : (setSys f b).bus = b.bus := Block.with_sys_bus b _
@[simp] theorem Block.setSys_tbu (f : Sys → Sys) : (setSys f b).tbu = b.tbu := Block.with_sys_tbu b _
@[simp] theorem Block.setSys_efe (f : Sys → Sys) : (setSys f b).efe = b.efe := Block.with_sys_efe b _
@[simp] theorem Block.setSys_alc (f : Sys → Sys) : (setSys f b).alc = b.alc := Block.with_sys_alc b _
@[simp] theorem Block.setSys_dlr (f : Sys → Sys) : (setSys f b).dlr = b.dlr := Block.with_sys_dlr b _
@[simp] theorem Block.setSys_sht (f : Sys → Sys) : (setSys f b).sht = b.sht := Block.with_sys_sht b _
@[simp] theorem Block.setSys_mm (f : Sys → Sys) : (setSys f b).mm = b.mm := Block.with_sys_mm b _
@[simp] theorem Block.setSys_rel (f : Sys → Sys) : (setSys f b).rel = b.rel := Block.with_sys_rel b _
@[simp] theorem Block.setSys_leg (f : Sys → Sys) : (setSys f b).leg = b.leg := Block.with_sys_leg b _
@[simp] theorem Block.setSys_mix (f : Sys → Sys) : (setSys f b).mix = b.mix := Block.with_sys_mix b _
@[simp] theorem Block.setSys_cvo (f : Sys → Sys) : (setSys f b).cvo = b.cvo := Block.with_sys_cvo b _
@[simp] theorem Block.setSys_sap (f : Sys → Sys) : (setSys f b).sap = b.sap := Block.with_sys_sap b _
@[simp] theorem Block.setSys_wft (f : Sys → Sys) : (setSys f b).wft = b.wft := Block.with_sys_wft b _
@[simp] theorem Block.setSys_sec (f : Sys → Sys) : (setSys f b).sec = b.sec := Block.with_sys_sec b _
@[simp] theorem Block.setSys_sys (f : Sys → Sys) : (setSys f b).sys = f b.sys := rfl
@[simp] theorem Block.setSys_pwr (f : Sys → Sys) : (setSys f b).pwr = b.pwr := Block.with_sys_pwr b _
@[simp] theorem Block.setSys_img (f : Sys → Sys) : (setSys f b).img = b.img := Block.with_sys_img b _

/-! ### setPwr -/

@[simp] theorem Block.setPwr_regs (f : Pwr → Pwr) : (setPwr f b).regs = b.regs := rfl
@[simp] theorem Block.setPwr_mem (f : Pwr → Pwr) : (setPwr f b).mem = b.mem := rfl
@[simp] theorem Block.setPwr_bus (f : Pwr → Pwr) : (setPwr f b).bus = b.bus := rfl
@[simp] theorem Block.setPwr_tbu (f : Pwr → Pwr) : (setPwr f b).tbu = b.tbu := rfl
@[simp] theorem Block.setPwr_efe (f : Pwr → Pwr) : (setPwr f b).efe = b.efe := rfl
@[simp] theorem Block.setPwr_alc (f : Pwr → Pwr) : (setPwr f b).alc = b.alc := rfl
@[simp] theorem Block.setPwr_dlr (f : Pwr → Pwr) : (setPwr f b).dlr = b.dlr := rfl
@[simp] theorem Block.setPwr_sht (f : Pwr → Pwr) : (setPwr f b).sht = b.sht := rfl
@[simp] theorem Block.setPwr_mm (f : Pwr → Pwr) : (setPwr f b).mm = b.mm := rfl
@[simp] theorem Block.setPwr_rel (f : Pwr → Pwr) : (setPwr f b).rel = b.rel := rfl
@[simp] theorem Block.setPwr_leg (f : Pwr → Pwr) : (setPwr f b).leg = b.leg := rfl
@[simp] theorem Block.setPwr_mix (f : Pwr → Pwr) : (setPwr f b).mix = b.mix := rfl
@[simp] theorem Block.setPwr_cvo (f : Pwr → Pwr) : (setPwr f b).cvo = b.cvo := rfl
@[simp] theorem Block.setPwr_sap (f : Pwr → Pwr) : (setPwr f b).sap = b.sap := rfl
@[simp] theorem Block.setPwr_wft (f : Pwr → Pwr) : (setPwr f b).wft = b.wft := rfl
@[simp] theorem Block.setPwr_sec (f : Pwr → Pwr) : (setPwr f b).sec = b.sec := rfl
@[simp] theorem Block.setPwr_sys (f : Pwr → Pwr) : (setPwr f b).sys = b.sys := rfl
@[simp] theorem Block.setPwr_pwr (f : Pwr → Pwr) : (setPwr f b).pwr = f b.pwr := rfl
@[simp] theorem Block.setPwr_img (f : Pwr → Pwr) : (setPwr f b).img = b.img := rfl

/-! ### setWeft -/

@[simp] theorem Block.setWeft_regs (f : Weft → Weft) : (setWeft f b).regs = b.regs := rfl
@[simp] theorem Block.setWeft_mem (f : Weft → Weft) : (setWeft f b).mem = b.mem := rfl
@[simp] theorem Block.setWeft_bus (f : Weft → Weft) : (setWeft f b).bus = b.bus := rfl
@[simp] theorem Block.setWeft_tbu (f : Weft → Weft) : (setWeft f b).tbu = b.tbu := rfl
@[simp] theorem Block.setWeft_efe (f : Weft → Weft) : (setWeft f b).efe = b.efe := rfl
@[simp] theorem Block.setWeft_alc (f : Weft → Weft) : (setWeft f b).alc = b.alc := rfl
@[simp] theorem Block.setWeft_dlr (f : Weft → Weft) : (setWeft f b).dlr = b.dlr := rfl
@[simp] theorem Block.setWeft_sht (f : Weft → Weft) : (setWeft f b).sht = b.sht := rfl
@[simp] theorem Block.setWeft_mm (f : Weft → Weft) : (setWeft f b).mm = b.mm := rfl
@[simp] theorem Block.setWeft_rel (f : Weft → Weft) : (setWeft f b).rel = b.rel := rfl
@[simp] theorem Block.setWeft_leg (f : Weft → Weft) : (setWeft f b).leg = b.leg := rfl
@[simp] theorem Block.setWeft_mix (f : Weft → Weft) : (setWeft f b).mix = b.mix := rfl
@[simp] theorem Block.setWeft_cvo (f : Weft → Weft) : (setWeft f b).cvo = b.cvo := rfl
@[simp] theorem Block.setWeft_sap (f : Weft → Weft) : (setWeft f b).sap = b.sap := rfl
@[simp] theorem Block.setWeft_wft (f : Weft → Weft) : (setWeft f b).wft = f b.wft := rfl
@[simp] theorem Block.setWeft_sec (f : Weft → Weft) : (setWeft f b).sec = b.sec := rfl
@[simp] theorem Block.setWeft_sys (f : Weft → Weft) : (setWeft f b).sys = b.sys := rfl
@[simp] theorem Block.setWeft_pwr (f : Weft → Weft) : (setWeft f b).pwr = b.pwr := rfl
@[simp] theorem Block.setWeft_img (f : Weft → Weft) : (setWeft f b).img = b.img := rfl

/-! ### setResp -/


/-! ### The field bus -/

theorem Block.with_bus_regs (x : Bus) : ({ b with bus := x } : Block).regs = b.regs := rfl
theorem Block.with_bus_mem (x : Bus) : ({ b with bus := x } : Block).mem = b.mem := rfl
theorem Block.with_bus_tbu (x : Bus) : ({ b with bus := x } : Block).tbu = b.tbu := rfl
theorem Block.with_bus_efe (x : Bus) : ({ b with bus := x } : Block).efe = b.efe := rfl
theorem Block.with_bus_alc (x : Bus) : ({ b with bus := x } : Block).alc = b.alc := rfl
theorem Block.with_bus_dlr (x : Bus) : ({ b with bus := x } : Block).dlr = b.dlr := rfl
theorem Block.with_bus_sht (x : Bus) : ({ b with bus := x } : Block).sht = b.sht := rfl
theorem Block.with_bus_mm (x : Bus) : ({ b with bus := x } : Block).mm = b.mm := rfl
theorem Block.with_bus_rel (x : Bus) : ({ b with bus := x } : Block).rel = b.rel := rfl
theorem Block.with_bus_leg (x : Bus) : ({ b with bus := x } : Block).leg = b.leg := rfl
theorem Block.with_bus_mix (x : Bus) : ({ b with bus := x } : Block).mix = b.mix := rfl
theorem Block.with_bus_cvo (x : Bus) : ({ b with bus := x } : Block).cvo = b.cvo := rfl
theorem Block.with_bus_sap (x : Bus) : ({ b with bus := x } : Block).sap = b.sap := rfl
theorem Block.with_bus_wft (x : Bus) : ({ b with bus := x } : Block).wft = b.wft := rfl
theorem Block.with_bus_sec (x : Bus) : ({ b with bus := x } : Block).sec = b.sec := rfl
theorem Block.with_bus_sys (x : Bus) : ({ b with bus := x } : Block).sys = b.sys := rfl
theorem Block.with_bus_pwr (x : Bus) : ({ b with bus := x } : Block).pwr = b.pwr := rfl
theorem Block.with_bus_img (x : Bus) : ({ b with bus := x } : Block).img = b.img := rfl
@[simp] theorem Block.setResp_regs (m : Nat) (r : Resp) : (setResp m r b).regs = b.regs := Block.with_bus_regs b _
@[simp] theorem Block.setResp_mem (m : Nat) (r : Resp) : (setResp m r b).mem = b.mem := Block.with_bus_mem b _
@[simp] theorem Block.setResp_bus (m : Nat) (r : Resp) : (setResp m r b).bus = { b.bus with resp := FMap.set (fun _ => {}) b.bus.resp m r } := rfl
@[simp] theorem Block.setResp_tbu (m : Nat) (r : Resp) : (setResp m r b).tbu = b.tbu := Block.with_bus_tbu b _
@[simp] theorem Block.setResp_efe (m : Nat) (r : Resp) : (setResp m r b).efe = b.efe := Block.with_bus_efe b _
@[simp] theorem Block.setResp_alc (m : Nat) (r : Resp) : (setResp m r b).alc = b.alc := Block.with_bus_alc b _
@[simp] theorem Block.setResp_dlr (m : Nat) (r : Resp) : (setResp m r b).dlr = b.dlr := Block.with_bus_dlr b _
@[simp] theorem Block.setResp_sht (m : Nat) (r : Resp) : (setResp m r b).sht = b.sht := Block.with_bus_sht b _
@[simp] theorem Block.setResp_mm (m : Nat) (r : Resp) : (setResp m r b).mm = b.mm := Block.with_bus_mm b _
@[simp] theorem Block.setResp_rel (m : Nat) (r : Resp) : (setResp m r b).rel = b.rel := Block.with_bus_rel b _
@[simp] theorem Block.setResp_leg (m : Nat) (r : Resp) : (setResp m r b).leg = b.leg := Block.with_bus_leg b _
@[simp] theorem Block.setResp_mix (m : Nat) (r : Resp) : (setResp m r b).mix = b.mix := Block.with_bus_mix b _
@[simp] theorem Block.setResp_cvo (m : Nat) (r : Resp) : (setResp m r b).cvo = b.cvo := Block.with_bus_cvo b _
@[simp] theorem Block.setResp_sap (m : Nat) (r : Resp) : (setResp m r b).sap = b.sap := Block.with_bus_sap b _
@[simp] theorem Block.setResp_wft (m : Nat) (r : Resp) : (setResp m r b).wft = b.wft := Block.with_bus_wft b _
@[simp] theorem Block.setResp_sec (m : Nat) (r : Resp) : (setResp m r b).sec = b.sec := Block.with_bus_sec b _
@[simp] theorem Block.setResp_sys (m : Nat) (r : Resp) : (setResp m r b).sys = b.sys := Block.with_bus_sys b _
@[simp] theorem Block.setResp_pwr (m : Nat) (r : Resp) : (setResp m r b).pwr = b.pwr := Block.with_bus_pwr b _
@[simp] theorem Block.setResp_img (m : Nat) (r : Resp) : (setResp m r b).img = b.img := Block.with_bus_img b _

/-! ### setShuttle -/


/-! ### The field sht -/

theorem Block.with_sht_regs (x : FMap Shuttle) : ({ b with sht := x } : Block).regs = b.regs := rfl
theorem Block.with_sht_mem (x : FMap Shuttle) : ({ b with sht := x } : Block).mem = b.mem := rfl
theorem Block.with_sht_bus (x : FMap Shuttle) : ({ b with sht := x } : Block).bus = b.bus := rfl
theorem Block.with_sht_tbu (x : FMap Shuttle) : ({ b with sht := x } : Block).tbu = b.tbu := rfl
theorem Block.with_sht_efe (x : FMap Shuttle) : ({ b with sht := x } : Block).efe = b.efe := rfl
theorem Block.with_sht_alc (x : FMap Shuttle) : ({ b with sht := x } : Block).alc = b.alc := rfl
theorem Block.with_sht_dlr (x : FMap Shuttle) : ({ b with sht := x } : Block).dlr = b.dlr := rfl
theorem Block.with_sht_mm (x : FMap Shuttle) : ({ b with sht := x } : Block).mm = b.mm := rfl
theorem Block.with_sht_rel (x : FMap Shuttle) : ({ b with sht := x } : Block).rel = b.rel := rfl
theorem Block.with_sht_leg (x : FMap Shuttle) : ({ b with sht := x } : Block).leg = b.leg := rfl
theorem Block.with_sht_mix (x : FMap Shuttle) : ({ b with sht := x } : Block).mix = b.mix := rfl
theorem Block.with_sht_cvo (x : FMap Shuttle) : ({ b with sht := x } : Block).cvo = b.cvo := rfl
theorem Block.with_sht_sap (x : FMap Shuttle) : ({ b with sht := x } : Block).sap = b.sap := rfl
theorem Block.with_sht_wft (x : FMap Shuttle) : ({ b with sht := x } : Block).wft = b.wft := rfl
theorem Block.with_sht_sec (x : FMap Shuttle) : ({ b with sht := x } : Block).sec = b.sec := rfl
theorem Block.with_sht_sys (x : FMap Shuttle) : ({ b with sht := x } : Block).sys = b.sys := rfl
theorem Block.with_sht_pwr (x : FMap Shuttle) : ({ b with sht := x } : Block).pwr = b.pwr := rfl
theorem Block.with_sht_img (x : FMap Shuttle) : ({ b with sht := x } : Block).img = b.img := rfl
@[simp] theorem Block.setShuttle_regs (s : Nat) (x : Shuttle) : (b.setShuttle s x).regs = b.regs := Block.with_sht_regs b _
@[simp] theorem Block.setShuttle_mem (s : Nat) (x : Shuttle) : (b.setShuttle s x).mem = b.mem := Block.with_sht_mem b _
@[simp] theorem Block.setShuttle_bus (s : Nat) (x : Shuttle) : (b.setShuttle s x).bus = b.bus := Block.with_sht_bus b _
@[simp] theorem Block.setShuttle_tbu (s : Nat) (x : Shuttle) : (b.setShuttle s x).tbu = b.tbu := Block.with_sht_tbu b _
@[simp] theorem Block.setShuttle_efe (s : Nat) (x : Shuttle) : (b.setShuttle s x).efe = b.efe := Block.with_sht_efe b _
@[simp] theorem Block.setShuttle_alc (s : Nat) (x : Shuttle) : (b.setShuttle s x).alc = b.alc := Block.with_sht_alc b _
@[simp] theorem Block.setShuttle_dlr (s : Nat) (x : Shuttle) : (b.setShuttle s x).dlr = b.dlr := Block.with_sht_dlr b _
@[simp] theorem Block.setShuttle_sht (s : Nat) (x : Shuttle) : (b.setShuttle s x).sht = FMap.set (fun _ => {}) b.sht s x := rfl
@[simp] theorem Block.setShuttle_mm (s : Nat) (x : Shuttle) : (b.setShuttle s x).mm = b.mm := Block.with_sht_mm b _
@[simp] theorem Block.setShuttle_rel (s : Nat) (x : Shuttle) : (b.setShuttle s x).rel = b.rel := Block.with_sht_rel b _
@[simp] theorem Block.setShuttle_leg (s : Nat) (x : Shuttle) : (b.setShuttle s x).leg = b.leg := Block.with_sht_leg b _
@[simp] theorem Block.setShuttle_mix (s : Nat) (x : Shuttle) : (b.setShuttle s x).mix = b.mix := Block.with_sht_mix b _
@[simp] theorem Block.setShuttle_cvo (s : Nat) (x : Shuttle) : (b.setShuttle s x).cvo = b.cvo := Block.with_sht_cvo b _
@[simp] theorem Block.setShuttle_sap (s : Nat) (x : Shuttle) : (b.setShuttle s x).sap = b.sap := Block.with_sht_sap b _
@[simp] theorem Block.setShuttle_wft (s : Nat) (x : Shuttle) : (b.setShuttle s x).wft = b.wft := Block.with_sht_wft b _
@[simp] theorem Block.setShuttle_sec (s : Nat) (x : Shuttle) : (b.setShuttle s x).sec = b.sec := Block.with_sht_sec b _
@[simp] theorem Block.setShuttle_sys (s : Nat) (x : Shuttle) : (b.setShuttle s x).sys = b.sys := Block.with_sht_sys b _
@[simp] theorem Block.setShuttle_pwr (s : Nat) (x : Shuttle) : (b.setShuttle s x).pwr = b.pwr := Block.with_sht_pwr b _
@[simp] theorem Block.setShuttle_img (s : Nat) (x : Shuttle) : (b.setShuttle s x).img = b.img := Block.with_sht_img b _

/-! ### setPart -/


/-! ### The field alc -/

theorem Block.with_alc_regs (x : Alloc) : ({ b with alc := x } : Block).regs = b.regs := rfl
theorem Block.with_alc_mem (x : Alloc) : ({ b with alc := x } : Block).mem = b.mem := rfl
theorem Block.with_alc_bus (x : Alloc) : ({ b with alc := x } : Block).bus = b.bus := rfl
theorem Block.with_alc_tbu (x : Alloc) : ({ b with alc := x } : Block).tbu = b.tbu := rfl
theorem Block.with_alc_efe (x : Alloc) : ({ b with alc := x } : Block).efe = b.efe := rfl
theorem Block.with_alc_dlr (x : Alloc) : ({ b with alc := x } : Block).dlr = b.dlr := rfl
theorem Block.with_alc_sht (x : Alloc) : ({ b with alc := x } : Block).sht = b.sht := rfl
theorem Block.with_alc_mm (x : Alloc) : ({ b with alc := x } : Block).mm = b.mm := rfl
theorem Block.with_alc_rel (x : Alloc) : ({ b with alc := x } : Block).rel = b.rel := rfl
theorem Block.with_alc_leg (x : Alloc) : ({ b with alc := x } : Block).leg = b.leg := rfl
theorem Block.with_alc_mix (x : Alloc) : ({ b with alc := x } : Block).mix = b.mix := rfl
theorem Block.with_alc_cvo (x : Alloc) : ({ b with alc := x } : Block).cvo = b.cvo := rfl
theorem Block.with_alc_sap (x : Alloc) : ({ b with alc := x } : Block).sap = b.sap := rfl
theorem Block.with_alc_wft (x : Alloc) : ({ b with alc := x } : Block).wft = b.wft := rfl
theorem Block.with_alc_sec (x : Alloc) : ({ b with alc := x } : Block).sec = b.sec := rfl
theorem Block.with_alc_sys (x : Alloc) : ({ b with alc := x } : Block).sys = b.sys := rfl
theorem Block.with_alc_pwr (x : Alloc) : ({ b with alc := x } : Block).pwr = b.pwr := rfl
theorem Block.with_alc_img (x : Alloc) : ({ b with alc := x } : Block).img = b.img := rfl
@[simp] theorem Block.setPart_regs (p : Nat) (x : Part) : (b.setPart p x).regs = b.regs := Block.with_alc_regs b _
@[simp] theorem Block.setPart_mem (p : Nat) (x : Part) : (b.setPart p x).mem = b.mem := Block.with_alc_mem b _
@[simp] theorem Block.setPart_bus (p : Nat) (x : Part) : (b.setPart p x).bus = b.bus := Block.with_alc_bus b _
@[simp] theorem Block.setPart_tbu (p : Nat) (x : Part) : (b.setPart p x).tbu = b.tbu := Block.with_alc_tbu b _
@[simp] theorem Block.setPart_efe (p : Nat) (x : Part) : (b.setPart p x).efe = b.efe := Block.with_alc_efe b _
@[simp] theorem Block.setPart_dlr (p : Nat) (x : Part) : (b.setPart p x).dlr = b.dlr := Block.with_alc_dlr b _
@[simp] theorem Block.setPart_sht (p : Nat) (x : Part) : (b.setPart p x).sht = b.sht := Block.with_alc_sht b _
@[simp] theorem Block.setPart_mm (p : Nat) (x : Part) : (b.setPart p x).mm = b.mm := Block.with_alc_mm b _
@[simp] theorem Block.setPart_rel (p : Nat) (x : Part) : (b.setPart p x).rel = b.rel := Block.with_alc_rel b _
@[simp] theorem Block.setPart_leg (p : Nat) (x : Part) : (b.setPart p x).leg = b.leg := Block.with_alc_leg b _
@[simp] theorem Block.setPart_mix (p : Nat) (x : Part) : (b.setPart p x).mix = b.mix := Block.with_alc_mix b _
@[simp] theorem Block.setPart_cvo (p : Nat) (x : Part) : (b.setPart p x).cvo = b.cvo := Block.with_alc_cvo b _
@[simp] theorem Block.setPart_sap (p : Nat) (x : Part) : (b.setPart p x).sap = b.sap := Block.with_alc_sap b _
@[simp] theorem Block.setPart_wft (p : Nat) (x : Part) : (b.setPart p x).wft = b.wft := Block.with_alc_wft b _
@[simp] theorem Block.setPart_sec (p : Nat) (x : Part) : (b.setPart p x).sec = b.sec := Block.with_alc_sec b _
@[simp] theorem Block.setPart_sys (p : Nat) (x : Part) : (b.setPart p x).sys = b.sys := Block.with_alc_sys b _
@[simp] theorem Block.setPart_pwr (p : Nat) (x : Part) : (b.setPart p x).pwr = b.pwr := Block.with_alc_pwr b _
@[simp] theorem Block.setPart_img (p : Nat) (x : Part) : (b.setPart p x).img = b.img := Block.with_alc_img b _

/-! ### setNote -/

@[simp] theorem Block.setNote_regs (k : Nat) (x : Option Note) : (b.setNote k x).regs = b.regs := Block.with_alc_regs b _
@[simp] theorem Block.setNote_mem (k : Nat) (x : Option Note) : (b.setNote k x).mem = b.mem := Block.with_alc_mem b _
@[simp] theorem Block.setNote_bus (k : Nat) (x : Option Note) : (b.setNote k x).bus = b.bus := Block.with_alc_bus b _
@[simp] theorem Block.setNote_tbu (k : Nat) (x : Option Note) : (b.setNote k x).tbu = b.tbu := Block.with_alc_tbu b _
@[simp] theorem Block.setNote_efe (k : Nat) (x : Option Note) : (b.setNote k x).efe = b.efe := Block.with_alc_efe b _
@[simp] theorem Block.setNote_dlr (k : Nat) (x : Option Note) : (b.setNote k x).dlr = b.dlr := Block.with_alc_dlr b _
@[simp] theorem Block.setNote_sht (k : Nat) (x : Option Note) : (b.setNote k x).sht = b.sht := Block.with_alc_sht b _
@[simp] theorem Block.setNote_mm (k : Nat) (x : Option Note) : (b.setNote k x).mm = b.mm := Block.with_alc_mm b _
@[simp] theorem Block.setNote_rel (k : Nat) (x : Option Note) : (b.setNote k x).rel = b.rel := Block.with_alc_rel b _
@[simp] theorem Block.setNote_leg (k : Nat) (x : Option Note) : (b.setNote k x).leg = b.leg := Block.with_alc_leg b _
@[simp] theorem Block.setNote_mix (k : Nat) (x : Option Note) : (b.setNote k x).mix = b.mix := Block.with_alc_mix b _
@[simp] theorem Block.setNote_cvo (k : Nat) (x : Option Note) : (b.setNote k x).cvo = b.cvo := Block.with_alc_cvo b _
@[simp] theorem Block.setNote_sap (k : Nat) (x : Option Note) : (b.setNote k x).sap = b.sap := Block.with_alc_sap b _
@[simp] theorem Block.setNote_wft (k : Nat) (x : Option Note) : (b.setNote k x).wft = b.wft := Block.with_alc_wft b _
@[simp] theorem Block.setNote_sec (k : Nat) (x : Option Note) : (b.setNote k x).sec = b.sec := Block.with_alc_sec b _
@[simp] theorem Block.setNote_sys (k : Nat) (x : Option Note) : (b.setNote k x).sys = b.sys := Block.with_alc_sys b _
@[simp] theorem Block.setNote_pwr (k : Nat) (x : Option Note) : (b.setNote k x).pwr = b.pwr := Block.with_alc_pwr b _
@[simp] theorem Block.setNote_img (k : Nat) (x : Option Note) : (b.setNote k x).img = b.img := Block.with_alc_img b _

/-! ### setVoice -/

@[simp] theorem Block.setVoice_regs (v : Nat) (x : Voice) : (b.setVoice v x).regs = b.regs := Block.with_alc_regs b _
@[simp] theorem Block.setVoice_mem (v : Nat) (x : Voice) : (b.setVoice v x).mem = b.mem := Block.with_alc_mem b _
@[simp] theorem Block.setVoice_bus (v : Nat) (x : Voice) : (b.setVoice v x).bus = b.bus := Block.with_alc_bus b _
@[simp] theorem Block.setVoice_tbu (v : Nat) (x : Voice) : (b.setVoice v x).tbu = b.tbu := Block.with_alc_tbu b _
@[simp] theorem Block.setVoice_efe (v : Nat) (x : Voice) : (b.setVoice v x).efe = b.efe := Block.with_alc_efe b _
@[simp] theorem Block.setVoice_dlr (v : Nat) (x : Voice) : (b.setVoice v x).dlr = b.dlr := Block.with_alc_dlr b _
@[simp] theorem Block.setVoice_sht (v : Nat) (x : Voice) : (b.setVoice v x).sht = b.sht := Block.with_alc_sht b _
@[simp] theorem Block.setVoice_mm (v : Nat) (x : Voice) : (b.setVoice v x).mm = b.mm := Block.with_alc_mm b _
@[simp] theorem Block.setVoice_rel (v : Nat) (x : Voice) : (b.setVoice v x).rel = b.rel := Block.with_alc_rel b _
@[simp] theorem Block.setVoice_leg (v : Nat) (x : Voice) : (b.setVoice v x).leg = b.leg := Block.with_alc_leg b _
@[simp] theorem Block.setVoice_mix (v : Nat) (x : Voice) : (b.setVoice v x).mix = b.mix := Block.with_alc_mix b _
@[simp] theorem Block.setVoice_cvo (v : Nat) (x : Voice) : (b.setVoice v x).cvo = b.cvo := Block.with_alc_cvo b _
@[simp] theorem Block.setVoice_sap (v : Nat) (x : Voice) : (b.setVoice v x).sap = b.sap := Block.with_alc_sap b _
@[simp] theorem Block.setVoice_wft (v : Nat) (x : Voice) : (b.setVoice v x).wft = b.wft := Block.with_alc_wft b _
@[simp] theorem Block.setVoice_sec (v : Nat) (x : Voice) : (b.setVoice v x).sec = b.sec := Block.with_alc_sec b _
@[simp] theorem Block.setVoice_sys (v : Nat) (x : Voice) : (b.setVoice v x).sys = b.sys := Block.with_alc_sys b _
@[simp] theorem Block.setVoice_pwr (v : Nat) (x : Voice) : (b.setVoice v x).pwr = b.pwr := Block.with_alc_pwr b _
@[simp] theorem Block.setVoice_img (v : Nat) (x : Voice) : (b.setVoice v x).img = b.img := Block.with_alc_img b _

/-! ### setCvChan -/


/-! ### The field cvo -/

theorem Block.with_cvo_regs (x : Cvo) : ({ b with cvo := x } : Block).regs = b.regs := rfl
theorem Block.with_cvo_mem (x : Cvo) : ({ b with cvo := x } : Block).mem = b.mem := rfl
theorem Block.with_cvo_bus (x : Cvo) : ({ b with cvo := x } : Block).bus = b.bus := rfl
theorem Block.with_cvo_tbu (x : Cvo) : ({ b with cvo := x } : Block).tbu = b.tbu := rfl
theorem Block.with_cvo_efe (x : Cvo) : ({ b with cvo := x } : Block).efe = b.efe := rfl
theorem Block.with_cvo_alc (x : Cvo) : ({ b with cvo := x } : Block).alc = b.alc := rfl
theorem Block.with_cvo_dlr (x : Cvo) : ({ b with cvo := x } : Block).dlr = b.dlr := rfl
theorem Block.with_cvo_sht (x : Cvo) : ({ b with cvo := x } : Block).sht = b.sht := rfl
theorem Block.with_cvo_mm (x : Cvo) : ({ b with cvo := x } : Block).mm = b.mm := rfl
theorem Block.with_cvo_rel (x : Cvo) : ({ b with cvo := x } : Block).rel = b.rel := rfl
theorem Block.with_cvo_leg (x : Cvo) : ({ b with cvo := x } : Block).leg = b.leg := rfl
theorem Block.with_cvo_mix (x : Cvo) : ({ b with cvo := x } : Block).mix = b.mix := rfl
theorem Block.with_cvo_sap (x : Cvo) : ({ b with cvo := x } : Block).sap = b.sap := rfl
theorem Block.with_cvo_wft (x : Cvo) : ({ b with cvo := x } : Block).wft = b.wft := rfl
theorem Block.with_cvo_sec (x : Cvo) : ({ b with cvo := x } : Block).sec = b.sec := rfl
theorem Block.with_cvo_sys (x : Cvo) : ({ b with cvo := x } : Block).sys = b.sys := rfl
theorem Block.with_cvo_pwr (x : Cvo) : ({ b with cvo := x } : Block).pwr = b.pwr := rfl
theorem Block.with_cvo_img (x : Cvo) : ({ b with cvo := x } : Block).img = b.img := rfl
@[simp] theorem Block.setCvChan_regs (n : Nat) (c : CvChan) : (setCvChan n c b).regs = b.regs := Block.with_cvo_regs b _
@[simp] theorem Block.setCvChan_mem (n : Nat) (c : CvChan) : (setCvChan n c b).mem = b.mem := Block.with_cvo_mem b _
@[simp] theorem Block.setCvChan_bus (n : Nat) (c : CvChan) : (setCvChan n c b).bus = b.bus := Block.with_cvo_bus b _
@[simp] theorem Block.setCvChan_tbu (n : Nat) (c : CvChan) : (setCvChan n c b).tbu = b.tbu := Block.with_cvo_tbu b _
@[simp] theorem Block.setCvChan_efe (n : Nat) (c : CvChan) : (setCvChan n c b).efe = b.efe := Block.with_cvo_efe b _
@[simp] theorem Block.setCvChan_alc (n : Nat) (c : CvChan) : (setCvChan n c b).alc = b.alc := Block.with_cvo_alc b _
@[simp] theorem Block.setCvChan_dlr (n : Nat) (c : CvChan) : (setCvChan n c b).dlr = b.dlr := Block.with_cvo_dlr b _
@[simp] theorem Block.setCvChan_sht (n : Nat) (c : CvChan) : (setCvChan n c b).sht = b.sht := Block.with_cvo_sht b _
@[simp] theorem Block.setCvChan_mm (n : Nat) (c : CvChan) : (setCvChan n c b).mm = b.mm := Block.with_cvo_mm b _
@[simp] theorem Block.setCvChan_rel (n : Nat) (c : CvChan) : (setCvChan n c b).rel = b.rel := Block.with_cvo_rel b _
@[simp] theorem Block.setCvChan_leg (n : Nat) (c : CvChan) : (setCvChan n c b).leg = b.leg := Block.with_cvo_leg b _
@[simp] theorem Block.setCvChan_mix (n : Nat) (c : CvChan) : (setCvChan n c b).mix = b.mix := Block.with_cvo_mix b _
@[simp] theorem Block.setCvChan_sap (n : Nat) (c : CvChan) : (setCvChan n c b).sap = b.sap := Block.with_cvo_sap b _
@[simp] theorem Block.setCvChan_wft (n : Nat) (c : CvChan) : (setCvChan n c b).wft = b.wft := Block.with_cvo_wft b _
@[simp] theorem Block.setCvChan_sec (n : Nat) (c : CvChan) : (setCvChan n c b).sec = b.sec := Block.with_cvo_sec b _
@[simp] theorem Block.setCvChan_sys (n : Nat) (c : CvChan) : (setCvChan n c b).sys = b.sys := Block.with_cvo_sys b _
@[simp] theorem Block.setCvChan_pwr (n : Nat) (c : CvChan) : (setCvChan n c b).pwr = b.pwr := Block.with_cvo_pwr b _
@[simp] theorem Block.setCvChan_img (n : Nat) (c : CvChan) : (setCvChan n c b).img = b.img := Block.with_cvo_img b _

/-! ### setSapPort -/


/-! ### The field sap -/

theorem Block.with_sap_regs (x : FMap SapPort) : ({ b with sap := x } : Block).regs = b.regs := rfl
theorem Block.with_sap_mem (x : FMap SapPort) : ({ b with sap := x } : Block).mem = b.mem := rfl
theorem Block.with_sap_bus (x : FMap SapPort) : ({ b with sap := x } : Block).bus = b.bus := rfl
theorem Block.with_sap_tbu (x : FMap SapPort) : ({ b with sap := x } : Block).tbu = b.tbu := rfl
theorem Block.with_sap_efe (x : FMap SapPort) : ({ b with sap := x } : Block).efe = b.efe := rfl
theorem Block.with_sap_alc (x : FMap SapPort) : ({ b with sap := x } : Block).alc = b.alc := rfl
theorem Block.with_sap_dlr (x : FMap SapPort) : ({ b with sap := x } : Block).dlr = b.dlr := rfl
theorem Block.with_sap_sht (x : FMap SapPort) : ({ b with sap := x } : Block).sht = b.sht := rfl
theorem Block.with_sap_mm (x : FMap SapPort) : ({ b with sap := x } : Block).mm = b.mm := rfl
theorem Block.with_sap_rel (x : FMap SapPort) : ({ b with sap := x } : Block).rel = b.rel := rfl
theorem Block.with_sap_leg (x : FMap SapPort) : ({ b with sap := x } : Block).leg = b.leg := rfl
theorem Block.with_sap_mix (x : FMap SapPort) : ({ b with sap := x } : Block).mix = b.mix := rfl
theorem Block.with_sap_cvo (x : FMap SapPort) : ({ b with sap := x } : Block).cvo = b.cvo := rfl
theorem Block.with_sap_wft (x : FMap SapPort) : ({ b with sap := x } : Block).wft = b.wft := rfl
theorem Block.with_sap_sec (x : FMap SapPort) : ({ b with sap := x } : Block).sec = b.sec := rfl
theorem Block.with_sap_sys (x : FMap SapPort) : ({ b with sap := x } : Block).sys = b.sys := rfl
theorem Block.with_sap_pwr (x : FMap SapPort) : ({ b with sap := x } : Block).pwr = b.pwr := rfl
theorem Block.with_sap_img (x : FMap SapPort) : ({ b with sap := x } : Block).img = b.img := rfl
@[simp] theorem Block.setSapPort_regs (n : Nat) (p : SapPort) : (setSapPort n p b).regs = b.regs := Block.with_sap_regs b _
@[simp] theorem Block.setSapPort_mem (n : Nat) (p : SapPort) : (setSapPort n p b).mem = b.mem := Block.with_sap_mem b _
@[simp] theorem Block.setSapPort_bus (n : Nat) (p : SapPort) : (setSapPort n p b).bus = b.bus := Block.with_sap_bus b _
@[simp] theorem Block.setSapPort_tbu (n : Nat) (p : SapPort) : (setSapPort n p b).tbu = b.tbu := Block.with_sap_tbu b _
@[simp] theorem Block.setSapPort_efe (n : Nat) (p : SapPort) : (setSapPort n p b).efe = b.efe := Block.with_sap_efe b _
@[simp] theorem Block.setSapPort_alc (n : Nat) (p : SapPort) : (setSapPort n p b).alc = b.alc := Block.with_sap_alc b _
@[simp] theorem Block.setSapPort_dlr (n : Nat) (p : SapPort) : (setSapPort n p b).dlr = b.dlr := Block.with_sap_dlr b _
@[simp] theorem Block.setSapPort_sht (n : Nat) (p : SapPort) : (setSapPort n p b).sht = b.sht := Block.with_sap_sht b _
@[simp] theorem Block.setSapPort_mm (n : Nat) (p : SapPort) : (setSapPort n p b).mm = b.mm := Block.with_sap_mm b _
@[simp] theorem Block.setSapPort_rel (n : Nat) (p : SapPort) : (setSapPort n p b).rel = b.rel := Block.with_sap_rel b _
@[simp] theorem Block.setSapPort_leg (n : Nat) (p : SapPort) : (setSapPort n p b).leg = b.leg := Block.with_sap_leg b _
@[simp] theorem Block.setSapPort_mix (n : Nat) (p : SapPort) : (setSapPort n p b).mix = b.mix := Block.with_sap_mix b _
@[simp] theorem Block.setSapPort_cvo (n : Nat) (p : SapPort) : (setSapPort n p b).cvo = b.cvo := Block.with_sap_cvo b _
@[simp] theorem Block.setSapPort_wft (n : Nat) (p : SapPort) : (setSapPort n p b).wft = b.wft := Block.with_sap_wft b _
@[simp] theorem Block.setSapPort_sec (n : Nat) (p : SapPort) : (setSapPort n p b).sec = b.sec := Block.with_sap_sec b _
@[simp] theorem Block.setSapPort_sys (n : Nat) (p : SapPort) : (setSapPort n p b).sys = b.sys := Block.with_sap_sys b _
@[simp] theorem Block.setSapPort_pwr (n : Nat) (p : SapPort) : (setSapPort n p b).pwr = b.pwr := Block.with_sap_pwr b _
@[simp] theorem Block.setSapPort_img (n : Nat) (p : SapPort) : (setSapPort n p b).img = b.img := Block.with_sap_img b _

/-! ### setDvPort -/


/-! ### The field leg -/

theorem Block.with_leg_regs (x : Legacy) : ({ b with leg := x } : Block).regs = b.regs := rfl
theorem Block.with_leg_mem (x : Legacy) : ({ b with leg := x } : Block).mem = b.mem := rfl
theorem Block.with_leg_bus (x : Legacy) : ({ b with leg := x } : Block).bus = b.bus := rfl
theorem Block.with_leg_tbu (x : Legacy) : ({ b with leg := x } : Block).tbu = b.tbu := rfl
theorem Block.with_leg_efe (x : Legacy) : ({ b with leg := x } : Block).efe = b.efe := rfl
theorem Block.with_leg_alc (x : Legacy) : ({ b with leg := x } : Block).alc = b.alc := rfl
theorem Block.with_leg_dlr (x : Legacy) : ({ b with leg := x } : Block).dlr = b.dlr := rfl
theorem Block.with_leg_sht (x : Legacy) : ({ b with leg := x } : Block).sht = b.sht := rfl
theorem Block.with_leg_mm (x : Legacy) : ({ b with leg := x } : Block).mm = b.mm := rfl
theorem Block.with_leg_rel (x : Legacy) : ({ b with leg := x } : Block).rel = b.rel := rfl
theorem Block.with_leg_mix (x : Legacy) : ({ b with leg := x } : Block).mix = b.mix := rfl
theorem Block.with_leg_cvo (x : Legacy) : ({ b with leg := x } : Block).cvo = b.cvo := rfl
theorem Block.with_leg_sap (x : Legacy) : ({ b with leg := x } : Block).sap = b.sap := rfl
theorem Block.with_leg_wft (x : Legacy) : ({ b with leg := x } : Block).wft = b.wft := rfl
theorem Block.with_leg_sec (x : Legacy) : ({ b with leg := x } : Block).sec = b.sec := rfl
theorem Block.with_leg_sys (x : Legacy) : ({ b with leg := x } : Block).sys = b.sys := rfl
theorem Block.with_leg_pwr (x : Legacy) : ({ b with leg := x } : Block).pwr = b.pwr := rfl
theorem Block.with_leg_img (x : Legacy) : ({ b with leg := x } : Block).img = b.img := rfl
@[simp] theorem Block.setDvPort_regs (i : Nat) (p : DvPort) : (setDvPort i p b).regs = b.regs := Block.with_leg_regs b _
@[simp] theorem Block.setDvPort_mem (i : Nat) (p : DvPort) : (setDvPort i p b).mem = b.mem := Block.with_leg_mem b _
@[simp] theorem Block.setDvPort_bus (i : Nat) (p : DvPort) : (setDvPort i p b).bus = b.bus := Block.with_leg_bus b _
@[simp] theorem Block.setDvPort_tbu (i : Nat) (p : DvPort) : (setDvPort i p b).tbu = b.tbu := Block.with_leg_tbu b _
@[simp] theorem Block.setDvPort_efe (i : Nat) (p : DvPort) : (setDvPort i p b).efe = b.efe := Block.with_leg_efe b _
@[simp] theorem Block.setDvPort_alc (i : Nat) (p : DvPort) : (setDvPort i p b).alc = b.alc := Block.with_leg_alc b _
@[simp] theorem Block.setDvPort_dlr (i : Nat) (p : DvPort) : (setDvPort i p b).dlr = b.dlr := Block.with_leg_dlr b _
@[simp] theorem Block.setDvPort_sht (i : Nat) (p : DvPort) : (setDvPort i p b).sht = b.sht := Block.with_leg_sht b _
@[simp] theorem Block.setDvPort_mm (i : Nat) (p : DvPort) : (setDvPort i p b).mm = b.mm := Block.with_leg_mm b _
@[simp] theorem Block.setDvPort_rel (i : Nat) (p : DvPort) : (setDvPort i p b).rel = b.rel := Block.with_leg_rel b _
@[simp] theorem Block.setDvPort_mix (i : Nat) (p : DvPort) : (setDvPort i p b).mix = b.mix := Block.with_leg_mix b _
@[simp] theorem Block.setDvPort_cvo (i : Nat) (p : DvPort) : (setDvPort i p b).cvo = b.cvo := Block.with_leg_cvo b _
@[simp] theorem Block.setDvPort_sap (i : Nat) (p : DvPort) : (setDvPort i p b).sap = b.sap := Block.with_leg_sap b _
@[simp] theorem Block.setDvPort_wft (i : Nat) (p : DvPort) : (setDvPort i p b).wft = b.wft := Block.with_leg_wft b _
@[simp] theorem Block.setDvPort_sec (i : Nat) (p : DvPort) : (setDvPort i p b).sec = b.sec := Block.with_leg_sec b _
@[simp] theorem Block.setDvPort_sys (i : Nat) (p : DvPort) : (setDvPort i p b).sys = b.sys := Block.with_leg_sys b _
@[simp] theorem Block.setDvPort_pwr (i : Nat) (p : DvPort) : (setDvPort i p b).pwr = b.pwr := Block.with_leg_pwr b _
@[simp] theorem Block.setDvPort_img (i : Nat) (p : DvPort) : (setDvPort i p b).img = b.img := Block.with_leg_img b _

/-! ### setMb -/

@[simp] theorem Block.setMb_regs (m : Option MbCmd) : (setMb m b).regs = b.regs := Block.with_sys_regs b _
@[simp] theorem Block.setMb_mem (m : Option MbCmd) : (setMb m b).mem = b.mem := Block.with_sys_mem b _
@[simp] theorem Block.setMb_bus (m : Option MbCmd) : (setMb m b).bus = b.bus := Block.with_sys_bus b _
@[simp] theorem Block.setMb_tbu (m : Option MbCmd) : (setMb m b).tbu = b.tbu := Block.with_sys_tbu b _
@[simp] theorem Block.setMb_efe (m : Option MbCmd) : (setMb m b).efe = b.efe := Block.with_sys_efe b _
@[simp] theorem Block.setMb_alc (m : Option MbCmd) : (setMb m b).alc = b.alc := Block.with_sys_alc b _
@[simp] theorem Block.setMb_dlr (m : Option MbCmd) : (setMb m b).dlr = b.dlr := Block.with_sys_dlr b _
@[simp] theorem Block.setMb_sht (m : Option MbCmd) : (setMb m b).sht = b.sht := Block.with_sys_sht b _
@[simp] theorem Block.setMb_mm (m : Option MbCmd) : (setMb m b).mm = b.mm := Block.with_sys_mm b _
@[simp] theorem Block.setMb_rel (m : Option MbCmd) : (setMb m b).rel = b.rel := Block.with_sys_rel b _
@[simp] theorem Block.setMb_leg (m : Option MbCmd) : (setMb m b).leg = b.leg := Block.with_sys_leg b _
@[simp] theorem Block.setMb_mix (m : Option MbCmd) : (setMb m b).mix = b.mix := Block.with_sys_mix b _
@[simp] theorem Block.setMb_cvo (m : Option MbCmd) : (setMb m b).cvo = b.cvo := Block.with_sys_cvo b _
@[simp] theorem Block.setMb_sap (m : Option MbCmd) : (setMb m b).sap = b.sap := Block.with_sys_sap b _
@[simp] theorem Block.setMb_wft (m : Option MbCmd) : (setMb m b).wft = b.wft := Block.with_sys_wft b _
@[simp] theorem Block.setMb_sec (m : Option MbCmd) : (setMb m b).sec = b.sec := Block.with_sys_sec b _
@[simp] theorem Block.setMb_pwr (m : Option MbCmd) : (setMb m b).pwr = b.pwr := Block.with_sys_pwr b _
@[simp] theorem Block.setMb_img (m : Option MbCmd) : (setMb m b).img = b.img := Block.with_sys_img b _

/-! ### setCapPending -/

@[simp] theorem Block.setCapPending_regs (n : Nat) (v : Long) : (setCapPending n v b).regs = b.regs := Block.with_tbu_regs b _
@[simp] theorem Block.setCapPending_mem (n : Nat) (v : Long) : (setCapPending n v b).mem = b.mem := Block.with_tbu_mem b _
@[simp] theorem Block.setCapPending_bus (n : Nat) (v : Long) : (setCapPending n v b).bus = b.bus := Block.with_tbu_bus b _
@[simp] theorem Block.setCapPending_efe (n : Nat) (v : Long) : (setCapPending n v b).efe = b.efe := Block.with_tbu_efe b _
@[simp] theorem Block.setCapPending_alc (n : Nat) (v : Long) : (setCapPending n v b).alc = b.alc := Block.with_tbu_alc b _
@[simp] theorem Block.setCapPending_dlr (n : Nat) (v : Long) : (setCapPending n v b).dlr = b.dlr := Block.with_tbu_dlr b _
@[simp] theorem Block.setCapPending_sht (n : Nat) (v : Long) : (setCapPending n v b).sht = b.sht := Block.with_tbu_sht b _
@[simp] theorem Block.setCapPending_mm (n : Nat) (v : Long) : (setCapPending n v b).mm = b.mm := Block.with_tbu_mm b _
@[simp] theorem Block.setCapPending_rel (n : Nat) (v : Long) : (setCapPending n v b).rel = b.rel := Block.with_tbu_rel b _
@[simp] theorem Block.setCapPending_leg (n : Nat) (v : Long) : (setCapPending n v b).leg = b.leg := Block.with_tbu_leg b _
@[simp] theorem Block.setCapPending_mix (n : Nat) (v : Long) : (setCapPending n v b).mix = b.mix := Block.with_tbu_mix b _
@[simp] theorem Block.setCapPending_cvo (n : Nat) (v : Long) : (setCapPending n v b).cvo = b.cvo := Block.with_tbu_cvo b _
@[simp] theorem Block.setCapPending_sap (n : Nat) (v : Long) : (setCapPending n v b).sap = b.sap := Block.with_tbu_sap b _
@[simp] theorem Block.setCapPending_wft (n : Nat) (v : Long) : (setCapPending n v b).wft = b.wft := Block.with_tbu_wft b _
@[simp] theorem Block.setCapPending_sec (n : Nat) (v : Long) : (setCapPending n v b).sec = b.sec := Block.with_tbu_sec b _
@[simp] theorem Block.setCapPending_sys (n : Nat) (v : Long) : (setCapPending n v b).sys = b.sys := Block.with_tbu_sys b _
@[simp] theorem Block.setCapPending_pwr (n : Nat) (v : Long) : (setCapPending n v b).pwr = b.pwr := Block.with_tbu_pwr b _
@[simp] theorem Block.setCapPending_img (n : Nat) (v : Long) : (setCapPending n v b).img = b.img := Block.with_tbu_img b _

end Sys2Proof.Machine
end

