-- ==== Sys2Proof/Laws/Finish.lean ====
section
/-! SUPPORT. What follows every command (`finish`) and what it leaves alone. -/

namespace Sys2Proof.Machine

/-! ### The raised interrupts follow from the registers alone -/

theorem raised_congr {b c : Block} (h : b.regs = c.regs) : raised b = raised c := by
  have e : Block.num b = Block.num c := by funext a; simp only [Block.num, h]
  unfold raised; rw [e]

theorem msixOrs_congr {b c : Block} (h : b.regs = c.regs) : msixOrs b = msixOrs c := by
  unfold msixOrs; rw [raised_congr h]

/-! ### MSI-X bookkeeping -/

/-- One vector that has risen: only the pending bits and the messages sent change. -/
theorem msixRise_form (v : Nat) (b : Block) : ∃ p x,
    (if msixMasked b v then { b with sys := { b.sys with msixPend := insertBy (· ≤ ·) v (b.sys.msixPend.filter (· != v)) } }
      else msixSend v b) = { b with sys := { b.sys with msixPend := p, msixTx := x } } := by
  split
  · exact ⟨_, b.sys.msixTx, rfl⟩
  · exact ⟨b.sys.msixPend, _, rfl⟩

theorem msixRises_form (l : List Nat) : ∀ b : Block, ∃ p x,
    (l.foldl (fun acc v =>
      if msixMasked acc v then { acc with sys := { acc.sys with msixPend := insertBy (· ≤ ·) v (acc.sys.msixPend.filter (· != v)) } }
      else msixSend v acc) b) = { b with sys := { b.sys with msixPend := p, msixTx := x } } := by
  induction l with
  | nil => intro b; exact ⟨b.sys.msixPend, b.sys.msixTx, rfl⟩
  | cons v l ih =>
    intro b
    obtain ⟨p, x, h⟩ := msixRise_form v b
    obtain ⟨p', x', h'⟩ := ih { b with sys := { b.sys with msixPend := p, msixTx := x } }
    exact ⟨p', x', by rw [List.foldl_cons, h, h']⟩

/-- All that `msixUpdate` can do. -/
theorem msixUpdate_form (b : Block) : ∃ p x,
    msixUpdate b = { b with sys := { b.sys with msixPend := p, msixTx := x, msixWas := msixOrs b } } := by
  obtain ⟨p, x, h⟩ := msixRises_form ((msixOrs b).filter fun v => !b.sys.msixWas.contains v) b
  exact ⟨p, x, by unfold msixUpdate; simp only [h]⟩

/-! ### Requests -/

theorem clearRequests_quiet (b : Block) : (clearRequests b).quiet := ⟨rfl, rfl, rfl⟩

theorem clearRequests_of_quiet {b : Block} (h : b.quiet) : clearRequests b = b := by
  obtain ⟨h1, h2, h3⟩ := h
  cases b with | _ regs mem bus tbu efe alc dlr sht mm rel leg mix cvo sap wft sec sys pwr img =>
  cases sys
  simp only at h1 h2 h3
  simp only [clearRequests, setSys, h1, h2, h3]

/-- Whatever was asked for, nothing is still to be performed. -/
theorem performRequests_quiet (n : Nat) (b : Block) : (performRequests n b).quiet := by
  unfold performRequests
  dsimp only
  split
  · exact clearRequests_quiet _
  · exact clearRequests_quiet _

/-- With nothing asked for, nothing is performed. -/
theorem performRequests_of_quiet (n : Nat) {b : Block} (h : b.quiet) : performRequests n b = b := by
  have hc := clearRequests_of_quiet h
  obtain ⟨h1, h2, h3⟩ := h
  simp [performRequests, performResets, h1, h2, h3, hc]

/-! ### All that follows a command that asked for nothing -/

/-- All that `finish` does to a block in which nothing is asked for: CVO_STAT.safe and the MSI-X bookkeeping. -/
theorem finish_form (n : Nat) {b : Block} (h : b.quiet) : ∃ p x,
    finish n b = { b with
      regs := b.regs.setF CVO_STAT_safe (if b.tbu.holds.isEmpty then 0 else 1)
      sys := { b.sys with
        msixPend := p, msixTx := x, msixWas := msixOrs (b.put CVO_STAT_safe (if b.tbu.holds.isEmpty then 0 else 1)) } } := by
  obtain ⟨p, x, hm⟩ := msixUpdate_form (cvSafe (!b.tbu.holds.isEmpty) b)
  refine ⟨p, x, ?_⟩
  have e : (if (!b.tbu.holds.isEmpty) = true then 1 else 0) = (if b.tbu.holds.isEmpty = true then 0 else 1) := by
    cases b.tbu.holds.isEmpty <;> rfl
  unfold finish
  rw [performRequests_of_quiet n h]
  dsimp only
  rw [hm]
  unfold cvSafe
  rw [e]
  simp only [Block.put]

section
variable (n : Nat) {b : Block} (h : b.quiet)
include h

theorem finish_mem : (finish n b).mem = b.mem := by obtain ⟨p, x, e⟩ := finish_form n h; rw [e]
theorem finish_bus : (finish n b).bus = b.bus := by obtain ⟨p, x, e⟩ := finish_form n h; rw [e]
theorem finish_tbu : (finish n b).tbu = b.tbu := by obtain ⟨p, x, e⟩ := finish_form n h; rw [e]
theorem finish_efe : (finish n b).efe = b.efe := by obtain ⟨p, x, e⟩ := finish_form n h; rw [e]
theorem finish_alc : (finish n b).alc = b.alc := by obtain ⟨p, x, e⟩ := finish_form n h; rw [e]
theorem finish_dlr : (finish n b).dlr = b.dlr := by obtain ⟨p, x, e⟩ := finish_form n h; rw [e]
theorem finish_sht : (finish n b).sht = b.sht := by obtain ⟨p, x, e⟩ := finish_form n h; rw [e]
theorem finish_mm : (finish n b).mm = b.mm := by obtain ⟨p, x, e⟩ := finish_form n h; rw [e]
theorem finish_rel : (finish n b).rel = b.rel := by obtain ⟨p, x, e⟩ := finish_form n h; rw [e]
theorem finish_leg : (finish n b).leg = b.leg := by obtain ⟨p, x, e⟩ := finish_form n h; rw [e]
theorem finish_mix : (finish n b).mix = b.mix := by obtain ⟨p, x, e⟩ := finish_form n h; rw [e]
theorem finish_cvo : (finish n b).cvo = b.cvo := by obtain ⟨p, x, e⟩ := finish_form n h; rw [e]
theorem finish_sap : (finish n b).sap = b.sap := by obtain ⟨p, x, e⟩ := finish_form n h; rw [e]
theorem finish_wft : (finish n b).wft = b.wft := by obtain ⟨p, x, e⟩ := finish_form n h; rw [e]
theorem finish_sec : (finish n b).sec = b.sec := by obtain ⟨p, x, e⟩ := finish_form n h; rw [e]
theorem finish_pwr : (finish n b).pwr = b.pwr := by obtain ⟨p, x, e⟩ := finish_form n h; rw [e]
theorem finish_img : (finish n b).img = b.img := by obtain ⟨p, x, e⟩ := finish_form n h; rw [e]

/-- Every register but CVO_STAT is as it was. -/
theorem finish_rd {a : Nat} (ha : a ≠ CVO_STAT) : (finish n b).rd a = b.rd a := by
  obtain ⟨p, x, e⟩ := finish_form n h
  rw [e]
  exact Block.rd_put_ne b (f := CVO_STAT_safe) _ ha

theorem finish_num {a : Nat} (ha : a ≠ CVO_STAT) : (finish n b).num a = b.num a := by
  show ((finish n b).rd a).toNat = (b.rd a).toNat
  rw [finish_rd n h ha]

theorem finish_get {f : Fld} (ha : f.addr ≠ CVO_STAT) : (finish n b).get f = b.get f := by
  show f.of ((finish n b).rd f.addr) = f.of (b.rd f.addr)
  rw [finish_rd n h ha]

end

/-! ### What every command leaves behind it -/

/-- Whatever a command does, what follows it leaves the state settled. -/
theorem finish_settled (n : Nat) (b : Block) (l : List Instr) : State.settled { blk := finish n b, pending := l } := by
  obtain ⟨p, x, hm⟩ := msixUpdate_form (cvSafe (!(performRequests n b).tbu.holds.isEmpty) (performRequests n b))
  have hq := performRequests_quiet n b
  unfold finish
  dsimp only
  rw [hm]
  generalize performRequests n b = c at *
  obtain ⟨h1, h2, h3⟩ := hq
  refine ⟨⟨h1, h2, h3⟩, ?_, msixOrs_congr (Block.with_sys_regs _ _).symm⟩
  refine (Block.get_congr (Block.with_sys_regs _ _) _).trans ?_
  unfold cvSafe
  rw [Block.get_put c rfl]
  by_cases h : c.tbu.holds.isEmpty = true
  · simp only [Block.put, h]; decide
  · simp only [Block.put, h]; decide

/-- All that a command can answer: a next state, either the state itself (in reset) or that of an effect on its block and what follows
it. -/
theorem run_form (s : State) (f : Block → Block) : s.run f = .next s ∨ s.run f = .next (s.on f) := by
  unfold State.run State.ok; split <;> simp

theorem on_pending (s : State) (f : Block → Block) : (s.on f).pending = s.pending := rfl

theorem on_settled (s : State) (f : Block → Block) : (s.on f).settled := finish_settled 0 _ _

/-- A command runs where the compute die is out of reset. -/
theorem run_live {s : State} (h : s.live) (f : Block → Block) : s.run f = .next (s.on f) := by
  unfold State.run State.ok; rw [if_neg (by rw [h]; decide)]

theorem run_held {s : State} (h : s.blk.sys.held = true) (f : Block → Block) : s.run f = .next s := by
  unfold State.run; rw [if_pos h]

theorem at_live {s : State} (h : s.live) (t : Long) (f : Block → Block) : s.at t f = .next (s.on fun b => f (advanceTo t.toNat b)) :=
  run_live h _

end Sys2Proof.Machine
end

