-- ==== Sys2Proof/Laws/Access.lean ====
section
/-! SUPPORT. What a register access of a command that names its register comes to, where the access is made. -/

namespace Sys2Proof.Machine

/-- The four bytes of a word give the word again. -/
theorem leNat_wordBytes (v : Word) : BitVec.ofNat 32 (leNat ((wordBytes v 0xF).map fun x => x.getD 0)) = v := by
  have h : (wordBytes v 0xF).map (fun x => x.getD 0) = (List.range 4).map fun i => BitVec.ofNat 8 (v.toNat / 256 ^ i) := by
    simp [wordBytes, List.range_succ]
  rw [h]
  apply BitVec.eq_of_toNat_eq
  have := v.isLt
  simp [leNat, List.range_succ]
  omega

/-- An address of a register block of the peripheral region. -/
def inBlock (a : Nat) : Bool :=
  decide (0x40000000 ≤ a) && decide (a < 0x44000000) && decide (a % 4 = 0) && (regBlock (regBlockBase a)).isSome

theorem noCross {a : Nat} (h : a % 4 = 0) : ¬ a / 4096 ≠ (a + 4 - 1) / 4096 := by omega

/-- The conditions of `accessMade`, one by one. -/
theorem accessMade_iff {m a : Nat} {b : Block} : accessMade m a b = true ↔ reachesBlock m (regBlockBase a) = true ∧
    b.bit BMX_MSTAT_draining m = false ∧ (m = 11 → b.sec.tap = 0x10 ∧ debugOpen b = true) := by
  unfold accessMade
  by_cases h : m = 11 <;> simp [h, and_assoc]

/-- A register write that is made: the register's own effect, and an empty response. -/
theorem writeReg_eq {m a : Nat} {v hw : Word} {b : Block} (hm : accessMade m a b = true) (ha : inBlock a = true) (ht : a ≠ WFT_TUN_CTL) :
    writeReg m a v hw b = setResp m {} (regWrite m a v hw b) := by
  obtain ⟨h1, h2, h3⟩ := accessMade_iff.mp hm
  simp only [inBlock, Bool.and_eq_true, decide_eq_true_eq] at ha
  obtain ⟨⟨⟨h4, h5⟩, h6⟩, h7⟩ := ha
  have h8 : ¬(m = 11 ∧ ¬(b.sec.tap = 0x10 ∧ debugOpen b = true)) := fun h => h.2 (h3 h.1)
  have h9 : ¬((regBlock (regBlockBase a)).isNone = true ∨ ¬reachesBlock m (regBlockBase a) = true) := by
    simp [h1, Option.isNone_iff_eq_none, Option.isSome_iff_ne_none.mp h7]
  unfold writeReg request
  rw [if_neg h8, h2, if_neg Bool.false_ne_true]
  unfold transact
  dsimp only
  rw [if_neg (noCross h6), if_pos ⟨h4, h5⟩]
  unfold periphAccess periphBase
  rw [if_neg h9, if_neg (show ¬(4 ≠ 4 ∨ a % 4 ≠ 0) by omega)]
  simp only [Option.map_some, leNat_wordBytes, ht, false_and, if_false]

/-- A register read that is made: the value in the response, and what reading does. -/
theorem readReg_eq {m a : Nat} {hw : Word} {b : Block} (hm : accessMade m a b = true) (ha : inBlock a = true) :
    readReg m a hw b = setResp m { data := [(regRead m a hw b).1] } (regRead m a hw b).2 := by
  obtain ⟨h1, h2, h3⟩ := accessMade_iff.mp hm
  simp only [inBlock, Bool.and_eq_true, decide_eq_true_eq] at ha
  obtain ⟨⟨⟨h4, h5⟩, h6⟩, h7⟩ := ha
  have h8 : ¬(m = 11 ∧ ¬(b.sec.tap = 0x10 ∧ debugOpen b = true)) := fun h => h.2 (h3 h.1)
  have h9 : ¬((regBlock (regBlockBase a)).isNone = true ∨ ¬reachesBlock m (regBlockBase a) = true) := by
    simp [h1, Option.isNone_iff_eq_none, Option.isSome_iff_ne_none.mp h7]
  unfold readReg request
  rw [if_neg h8, h2, if_neg Bool.false_ne_true]
  unfold transact
  dsimp only
  rw [if_neg (noCross h6), if_pos ⟨h4, h5⟩]
  unfold periphAccess periphBase
  rw [if_neg h9, if_neg (show ¬(4 ≠ 4 ∨ a % 4 ≠ 0) by omega)]
  simp

end Sys2Proof.Machine
end

