-- ==== Sys2Proof/Laws/Memory.lean ====
section
/-! SUPPORT. The laws of the memory (R307): a read after a write, and the canonical form that every memory operation keeps. -/

namespace Sys2Proof.Machine

theorem Memory.byte_setByte (m : List Host.Cell) (a : Nat) (v : Byte) (x : Nat) :
    Memory.byte (Memory.setByte m a v) x = if x = a then v else Memory.byte m x := FMap.get_set _ m a v x

theorem Memory.wf_setByte {m : List Host.Cell} (a : Nat) (v : Byte) (h : Memory.wf m = true) :
    Memory.wf (Memory.setByte m a v) = true := FMap.wf_set _ a v h

theorem Memory.wf_setBytes (l : List Byte) : ∀ {m : List Host.Cell} (a : Nat), Memory.wf m = true →
    Memory.wf (Memory.setBytes m a l) = true := by
  induction l with
  | nil => intro m a h; exact h
  | cons x l ih => intro m a h; exact ih (a + 1) (Memory.wf_setByte a x h)

theorem Memory.wf_setNum {m : List Host.Cell} (a n v : Nat) (h : Memory.wf m = true) : Memory.wf (Memory.setNum m a n v) = true :=
  Memory.wf_setBytes _ a h

theorem Memory.wf_nil : Memory.wf [] = true := rfl

end Sys2Proof.Machine
end

