-- ==== Sys2Proof/Laws/RegWrite.lean ====
section
/-! SUPPORT. What a write of each register with an effect of its own comes to, where the access is made. -/

namespace Sys2Proof.Machine

/-- Two effects that agree on the block lead to the same state. -/
theorem on_congr {s : State} {f g : Block → Block} (h : f s.blk = g s.blk) : s.on f = s.on g := by unfold State.on; rw [h]

/-- The single registers whose writes have an effect of their own. -/
def singles : List Nat :=
  [TBU_REF_CFG, TBU_TEMPO_CFG, TBU_TEMPO, TBU_TOUT_CFG, EFE_CTL, DLR_CANCEL, DLR_SNAP_CTL, VAL_QRY_CMD, SHT_TAP, MIX_CTL, WFT_CTL, WFT_TUN_CTL, SYS_RST,
    SYS_KICK, SYS_BOOT_LEN, SYS_CFG, DRC_CFG, HIF_SPI_STAT, HIF_DB_STAT, XCH_MB_CTL, REL_CTL, SEC_UNLK]

/-- No bit that hardware sets in the same cycle: the effect stands (R6). -/
theorem setHw_idle {h : RegHit} {hw : Nat} (hx : hw &&& h.desc.w1c = 0) (b : Block) : setHw h hw b = b := by unfold setHw; rw [if_pos hx]

theorem writeSingle_none {k : Nat} (h : k ∉ singles) (m : Nat) (v hw : Word) (b : Block) : writeSingle m k v hw b = none := by
  simp only [singles, List.mem_cons, List.not_mem_nil, or_false, not_or] at h
  simp only [writeSingle, h, if_false, false_and]

/-- A register write that is made, to a 32-bit register. -/
theorem writeReg_word {m a : Nat} {v hw : Word} {b : Block} {h : RegHit} (hm : accessMade m a b = true) (ha : inBlock a = true)
    (ht : a ≠ WFT_TUN_CTL) (hh : regAt a = some h) (hn : h.desc.wide = false) :
    writeReg m a v hw b = wrote m (writeWord m h v hw) b := by
  rw [writeReg_eq hm ha ht]
  unfold wrote regWrite
  rw [hh]
  simp only [hn, Bool.false_eq_true, if_false]

/-- A write of a single register with an effect `f` of its own. -/
theorem writeReg_single {m a : Nat} {v hw : Word} {b c : Block} {h : RegHit} (hm : accessMade m a b = true) (ha : inBlock a = true)
    (ht : a ≠ WFT_TUN_CTL) (hh : regAt a = some h) (hn : h.desc.wide = false) (hx : hw.toNat &&& h.desc.w1c = 0)
    (hs : writeSingle m h.key v hw b = some c) : writeReg m a v hw b = setResp m {} c := by
  rw [writeReg_word hm ha ht hh hn]
  unfold wrote writeWord
  rw [hs]; exact congrArg _ (setHw_idle hx c)

/-- A write of an element of a register array with an effect `f` of its own. -/
theorem writeReg_element {m a : Nat} {v hw : Word} {b c : Block} {h : RegHit} (hm : accessMade m a b = true) (ha : inBlock a = true)
    (ht : a ≠ WFT_TUN_CTL) (hh : regAt a = some h) (hn : h.desc.wide = false) (hx : hw.toNat &&& h.desc.w1c = 0)
    (hk : h.key ∉ singles) (hs : writeElement h.key v h b = some c) : writeReg m a v hw b = setResp m {} c := by
  rw [writeReg_word hm ha ht hh hn]
  unfold wrote writeWord
  rw [writeSingle_none hk, hs]; exact congrArg _ (setHw_idle hx c)

/-- A write of a register whose writes have no effect of their own. -/
theorem writeReg_codes {m a : Nat} {v hw : Word} {b : Block} {h : RegHit} (hm : accessMade m a b = true) (ha : inBlock a = true)
    (ht : a ≠ WFT_TUN_CTL) (hh : regAt a = some h) (hn : h.desc.wide = false) (hk : writeSingle m h.key v hw b = none)
    (hs : writeElement h.key v h b = none) : writeReg m a v hw b =
      wrote m (fun b => writeCodes h v.toNat hw.toNat (if h.key = PWR_ILIM ∨ h.key = PWR_GOV then noteGovWrite b else b)) b := by
  rw [writeReg_word hm ha ht hh hn]
  unfold wrote writeWord
  rw [hk, hs]; rfl

/-! ### At the register's own address -/

/-- A 32-bit register of the map at its own address, other than WFT_TUN_CTL. -/
def plainReg (a : Nat) : Bool := inBlock a && decide (a ≠ WFT_TUN_CTL) && (regAt a).any fun h => h.key == a && !h.desc.wide

theorem plainReg_hit {a : Nat} (h : plainReg a = true) : inBlock a = true ∧ a ≠ WFT_TUN_CTL ∧
    ∃ r, regAt a = some r ∧ r.key = a ∧ r.desc.wide = false := by
  unfold plainReg at h
  simp only [Bool.and_eq_true, decide_eq_true_eq] at h
  obtain ⟨⟨h1, h2⟩, h3⟩ := h
  refine ⟨h1, h2, ?_⟩
  cases hr : regAt a with
  | none => rw [hr] at h3; cases h3
  | some r =>
    rw [hr] at h3
    simp only [Option.any_some, Bool.and_eq_true, beq_iff_eq, Bool.not_eq_true'] at h3
    exact ⟨r, rfl, h3.1, h3.2⟩

/-- A write of the single register at `a` with an effect of its own. -/
theorem writeReg_of_single {m a : Nat} {v hw : Word} {b c : Block} (hp : plainReg a = true) (hm : accessMade m a b = true)
    (hx : ∀ r, regAt a = some r → hw.toNat &&& r.desc.w1c = 0) (hs : writeSingle m a v hw b = some c) :
    writeReg m a v hw b = setResp m {} c := by
  obtain ⟨h1, h2, r, h3, h4, h5⟩ := plainReg_hit hp
  exact writeReg_single hm h1 h2 h3 h5 (hx r h3) (by rw [h4]; exact hs)

/-- A write of the register at `a` that is an element of an array whose writes have an effect of their own. -/
theorem writeReg_of_element {m a : Nat} {v hw : Word} {b c : Block} (hp : plainReg a = true) (hk : a ∉ singles)
    (hm : accessMade m a b = true) (hx : ∀ r, regAt a = some r → hw.toNat &&& r.desc.w1c = 0)
    (hs : ∀ r, r.key = a → writeElement a v r b = some c) : writeReg m a v hw b = setResp m {} c := by
  obtain ⟨h1, h2, r, h3, h4, h5⟩ := plainReg_hit hp
  exact writeReg_element hm h1 h2 h3 h5 (hx r h3) (by rw [h4]; exact hk) (by rw [h4]; exact hs r h4)

/-- A read of a 32-bit register at its own address. -/
theorem readReg_of {m a : Nat} {hw : Word} {b : Block} (hp : plainReg a = true) (hm : accessMade m a b = true) :
    ∃ r, regAt a = some r ∧ r.key = a ∧ r.desc.wide = false ∧
      readReg m a hw b = setResp m { data := [(readHit m r hw b).1] } (readHit m r hw b).2 := by
  obtain ⟨h1, h2, r, h3, h4, h5⟩ := plainReg_hit hp
  refine ⟨r, h3, h4, h5, ?_⟩
  rw [readReg_eq hm h1]; unfold regRead; rw [h3]

end Sys2Proof.Machine
end

