-- ==== Sys2Proof/Laws/Time.lean ====
section
/-! SUPPORT. What the passing of time (`advanceTo`, R27) leaves alone: everything but the counts of cycles. -/

namespace Sys2Proof.Machine

/-- Everything but the register file, the time base unit, the Dealer and the shuttles is the same in two blocks, and every register
outside a list. -/
structure SameBut (l : List Nat) (b c : Block) : Prop where
  rd : ∀ a, a ∉ l → c.rd a = b.rd a
  mem : c.mem = b.mem
  bus : c.bus = b.bus
  efe : c.efe = b.efe
  alc : c.alc = b.alc
  mm : c.mm = b.mm
  rel : c.rel = b.rel
  leg : c.leg = b.leg
  mix : c.mix = b.mix
  cvo : c.cvo = b.cvo
  sap : c.sap = b.sap
  wft : c.wft = b.wft
  sec : c.sec = b.sec
  sys : c.sys = b.sys
  pwr : c.pwr = b.pwr
  img : c.img = b.img

theorem SameBut.refl (l : List Nat) (b : Block) : SameBut l b b := by constructor <;> intros <;> rfl

theorem SameBut.trans {l : List Nat} {b c d : Block} (h : SameBut l b c) (k : SameBut l c d) : SameBut l b d where
  rd a ha := (k.rd a ha).trans (h.rd a ha)
  mem := k.mem.trans h.mem
  bus := k.bus.trans h.bus
  efe := k.efe.trans h.efe
  alc := k.alc.trans h.alc
  mm := k.mm.trans h.mm
  rel := k.rel.trans h.rel
  leg := k.leg.trans h.leg
  mix := k.mix.trans h.mix
  cvo := k.cvo.trans h.cvo
  sap := k.sap.trans h.sap
  wft := k.wft.trans h.wft
  sec := k.sec.trans h.sec
  sys := k.sys.trans h.sys
  pwr := k.pwr.trans h.pwr
  img := k.img.trans h.img

/-- A fold of steps that each leave the same things alone leaves them alone. -/
theorem SameBut.foldl {α : Type} {l : List Nat} {f : Block → α → Block} (h : ∀ b x, SameBut l b (f b x)) (xs : List α) :
    ∀ b, SameBut l b (xs.foldl f b) := by
  induction xs with
  | nil => intro b; exact SameBut.refl l b
  | cons x xs ih => intro b; exact (h b x).trans (ih (f b x))

/-- The registers that time moves: CYCLE_CNT and the counts of the timers. -/
def timeRegs : List Nat := TBU_CYCLE :: (List.range 8).map TBU_TMR_VAL

theorem setNum_sameBut {l : List Nat} {a : Nat} (v : Nat) (ha : a ∈ l) (b : Block) : SameBut l b (b.setNum a v) where
  rd x hx := Block.rd_wr_ne b _ (by rintro rfl; exact hx ha)
  mem := b.setNum_mem _ _
  bus := b.setNum_bus _ _
  efe := b.setNum_efe _ _
  alc := b.setNum_alc _ _
  mm := b.setNum_mm _ _
  rel := b.setNum_rel _ _
  leg := b.setNum_leg _ _
  mix := b.setNum_mix _ _
  cvo := b.setNum_cvo _ _
  sap := b.setNum_sap _ _
  wft := b.setNum_wft _ _
  sec := b.setNum_sec _ _
  sys := b.setNum_sys _ _
  pwr := b.setNum_pwr _ _
  img := b.setNum_img _ _

theorem tbu_sameBut (l : List Nat) (b : Block) (x : Tbu) : SameBut l b { b with tbu := x } := by constructor <;> intros <;> rfl

theorem shuttles_sameBut (l : List Nat) (b : Block) (x : Dealer) (y : FMap Shuttle) : SameBut l b { b with dlr := x, sht := y } := by
  constructor <;> intros <;> rfl

theorem timerDue_sameBut (l : List Nat) (n : Nat) (b : Block) : SameBut l b (timerDue n b) := tbu_sameBut l b _

theorem timerTick_sameBut {n : Nat} (hn : n < 8) (k : Nat) (b : Block) : SameBut timeRegs b (timerTick b n k) := by
  have hm : ∀ i, i < 8 → TBU_TMR_VAL i ∈ timeRegs :=
    fun i hi => List.mem_cons_of_mem _ (List.mem_map.mpr ⟨i, List.mem_range.mpr hi, rfl⟩)
  unfold timerTick
  dsimp only
  split
  · rename_i hp
    have hn1 : n + 1 < 8 := by
      simp only [timerPaired, Bool.and_eq_true, beq_iff_eq] at hp
      omega
    have h := fun u v => (setNum_sameBut u (hm n hn) b).trans (setNum_sameBut v (hm (n + 1) hn1) _)
    split
    · exact (h _ _).trans (timerDue_sameBut _ _ _)
    · exact h _ _
  · split
    · exact (setNum_sameBut _ (hm n hn) b).trans (timerDue_sameBut _ _ _)
    · exact setNum_sameBut _ (hm n hn) b

theorem tickTimers_sameBut (src k : Nat) (b : Block) : SameBut timeRegs b (tickTimers b src k) := by
  unfold tickTimers
  split
  · exact SameBut.refl _ b
  · have h : ∀ xs : List Nat, (∀ x ∈ xs, x < 8) → ∀ b, SameBut timeRegs b
        (xs.foldl (fun acc n => if timerOn acc n src then timerTick acc n k else acc) b) := by
      intro xs
      induction xs with
      | nil => intro _ b; exact SameBut.refl _ b
      | cons x xs ih =>
        intro hx b
        refine SameBut.trans ?_ (ih (fun y hy => hx y (List.mem_cons_of_mem _ hy)) _)
        dsimp only
        split
        · exact timerTick_sameBut (hx x (by simp)) k b
        · exact SameBut.refl _ b
    exact h _ (fun x hx => List.mem_range.mp hx) b

theorem shuttlesRun_sameBut (l : List Nat) (d : Nat) (b : Block) : SameBut l b (shuttlesRun d b) := by
  unfold shuttlesRun
  apply SameBut.foldl
  intro c s
  exact shuttles_sameBut l c _ _

/-- Time passes: CYCLE_CNT, the timers, the shuttles' fences and their busy counts move, and nothing else. -/
theorem advanceTo_sameBut (t : Nat) (b : Block) : SameBut timeRegs b (advanceTo t b) := by
  unfold advanceTo
  dsimp only
  split
  · exact SameBut.refl _ b
  · exact ((setNum_sameBut _ (List.mem_cons_self ..) b).trans (tickTimers_sameBut 0 _ _)).trans (shuttlesRun_sameBut _ _ _)

theorem advanceTo_get (t : Nat) (b : Block) {f : Fld} (h : f.addr ∉ timeRegs) : (advanceTo t b).get f = b.get f := by
  show f.of ((advanceTo t b).rd f.addr) = f.of (b.rd f.addr)
  rw [(advanceTo_sameBut t b).rd _ h]

theorem advanceTo_srcOn (t : Nat) (b : Block) (n : Nat) : srcOn (advanceTo t b) n = srcOn b n := by
  show ((advanceTo t b).get EFE_CTL_en).testBit n = (b.get EFE_CTL_en).testBit n
  rw [advanceTo_get t b (by decide)]

theorem advanceTo_quiet (t : Nat) {b : Block} (h : b.quiet) : (advanceTo t b).quiet := by
  unfold Block.quiet at *
  rw [(advanceTo_sameBut t b).sys]
  exact h

end Sys2Proof.Machine
end

