-- ==== Sys2Proof/Machine/Pins.lean ====
section
/-! DEFINITION. The states of the balls (R451, R455), read off the state of the engine. -/

namespace Sys2Proof.Machine

/-- XSPI_WP_N is driven low except during FLASH_PROGRAM (R451). -/
def xspiWpLow (b : Block) : Bool := (mbTaken b 0x51 0x51).isNone

/-- The rows of R455's table, with the xSPI and DRAM balls one by one where their states differ. -/
inductive Balls where
  | serialAudio
  | cv
  | inputs
  | gpio
  | midiTx
  | tempoOut
  | irqN
  | spiTarget
  | spiCsN
  | xspiCsN
  | xspiWpN
  | xspiResetN
  | xspiIo
  | powerDie
  | dramResetCke
  | dramOther
  | lanes
  | tdo
deriving DecidableEq, Repr

/-- What a ball does: high-impedance without and with a pull, an input with a pull-up, a level, an open drain released, or what the rule
that R455 names for it, or its interface, makes it do. -/
inductive BallState where
  | highZ
  | highZPullUp
  | highZPullDown
  | inputPullUp
  | low
  | high
  | released
  | idle
  | own
deriving DecidableEq, Repr

/-- The columns of R455's table. -/
inductive PinPhase where
  | unpowered
  | reset
  | startUp
  | running
deriving DecidableEq, Repr

/-- The column in force: start-up lasts until step 7 has applied the sections, and the recovery state belongs to it. -/
def pinPhase (b : Block) : PinPhase :=
  if !b.pwr.powered then .unpowered
  else if b.sys.held then .reset
  else if b.on SYS_STAT_recovery ∨ b.get SYS_STAT_step < 8 then .startUp
  else .running

/-- R455's table. -/
def ballState (b : Block) (x : Balls) : BallState :=
  match x, pinPhase b with
  | .serialAudio, _ => .own
  | .cv, .running => .own
  | .cv, _ => .highZ
  | .inputs, .unpowered => .highZ
  | .inputs, _ => .inputPullUp
  | .gpio, .unpowered => .highZ
  | .gpio, .running => .own
  | .gpio, _ => .inputPullUp
  | .midiTx, .unpowered => .highZ
  | .midiTx, .reset => .highZPullUp
  | .midiTx, .startUp => .high
  | .midiTx, .running => .own
  | .tempoOut, .unpowered => .highZPullDown
  | .tempoOut, .running => .own
  | .tempoOut, _ => .low
  | .irqN, .unpowered => .highZ
  | .irqN, .running => .own
  | .irqN, _ => .released
  | .spiTarget, .unpowered => .highZ
  | .spiTarget, .reset => .highZ
  | .spiTarget, _ => .own
  | .spiCsN, .unpowered => .highZ
  | .spiCsN, .reset => .inputPullUp
  | .spiCsN, _ => .own
  | .xspiCsN, .unpowered => .highZ
  | .xspiCsN, .reset => .highZPullUp
  | .xspiCsN, .startUp => .high
  | .xspiCsN, .running => .own
  | .xspiWpN, .unpowered => .highZ
  | .xspiWpN, .reset => .highZPullUp
  | .xspiWpN, _ => if xspiWpLow b then .low else .high
  | .xspiResetN, .unpowered => .highZPullDown
  | .xspiResetN, .reset => .low
  | .xspiResetN, .startUp => if b.get SYS_STAT_step < 4 then .low else .high
  | .xspiResetN, .running => .high
  | .xspiIo, .startUp => if b.get SYS_STAT_bootsel ≤ 1 ∧ 4 ≤ b.get SYS_STAT_step then .own else .low
  | .xspiIo, .running => if (mbTaken b 0x50 0x51).isSome then .own else .idle
  | .xspiIo, _ => .highZPullDown
  | .powerDie, .unpowered => .highZ
  | .powerDie, _ => .own
  | .dramResetCke, .unpowered => .highZ
  | .dramResetCke, .reset => .low
  | .dramResetCke, .startUp => if b.get SYS_STAT_step < 5 then .low else .own
  | .dramResetCke, .running => .own
  | .dramOther, .startUp => if b.get SYS_STAT_step < 5 then .highZ else .own
  | .dramOther, .running => .own
  | .dramOther, _ => .highZ
  | .lanes, .unpowered => .highZ
  | .lanes, .reset => .idle
  | .lanes, _ => .own
  | .tdo, .unpowered => .highZ
  | .tdo, _ => .own

end Sys2Proof.Machine
end

