-- ==== Sys2Proof/Tests/Slice0.lean ====
section
/-! SUPPORT. The author's tests: each check of well-formedness refuses an ill-formed command; the spec's words decode; a state and
operands that meet the hypotheses of every statement, clause by clause; and single steps whose results the spec states. -/

namespace Sys2Proof.Tests

set_option Elab.async false
open Sys2Proof Sys2Proof.Machine

/-! ### Well-formedness: every check refuses a term -/

theorem test_wf_bus : Instr.wf (.matrixTransaction 0 false 0 0 (.read 0) .clean 0 none false) = false ∧
    Instr.wf (.matrixTransaction 0 false 0 0 (.write (List.replicate 257 none)) .clean 0 none false) = false ∧
    Instr.wf (.matrixTransaction 0 false 0 0 (.read 4) .clean 0 (some (1, 0, List.replicate 257 none)) false) = false ∧
    Instr.wf (.registerWrite 0 2 0 0) = false ∧ Instr.wf (.rcFieldRead 0 3 0) = false ∧ Instr.wf (.wideLowRead 0 4) = false ∧
    Instr.wf (.wideLowWrite 0 12 0) = false ∧ Instr.wf (.wideHighWrite 0 8 0) = false ∧
    Instr.wf (.bar0Tlp 2 (.read [15])) = false ∧ Instr.wf (.bar0Tlp 0 (.write [])) = false ∧
    Instr.wf (.doorbellWrite 0xFFC [(0, 15), (0, 15)]) = false ∧ Instr.wf (.doorbellWrite 2 [(0, 15)]) = false ∧
    Instr.wf (.bar2Tlp 0 (.read 0) .clean) = false ∧ Instr.wf (.write 2 [] false) = false ∧ Instr.wf (.read 0 0 none .clean) = false := by
  decide +kernel

theorem test_wf_written_bits : Instr.wf (.dmaStart 0 0 2) = false ∧ Instr.wf (.dmaAbort 0 0 1) = false ∧
    Instr.wf (.tunnelStart 0 0x1000) = false ∧ Instr.wf (.tunnelAbort 0 0x800) = false ∧ Instr.wf (.softwareChipReset 0 2) = false ∧
    Instr.wf (.mpReset 0 1 0) = false ∧ Instr.wf (.cfgLock 0 1) = false ∧ Instr.wf (.doorbellClear 0 0x100) = false ∧
    Instr.wf (.challenge 0 0x200) = false ∧ Instr.wf (.submit 0 0x100) = false := by
  decide +kernel

theorem test_wf_events : Instr.wf (.midiNoteOn 0 0 60 0 0) = false ∧ Instr.wf (.midiSystemExclusive 0 [0xF0, 1] 0) = false ∧
    Instr.wf (.midiSystemExclusive 0 [0xF0, 0x80, 0xF7] 0) = false ∧ Instr.wf (.midiIgnoredSystem 0 0xF8 0) = false ∧
    Instr.wf (.umpSystem .spi 0 0xF0 0 0 0) = false ∧ Instr.wf (.umpMidi1ChannelVoice .spi 0 15 0 0 0) = false ∧
    Instr.wf (.umpDataSysex .spi 0 [0x80]) = false ∧ Instr.wf (.umpUnsupportedType .spi 0 4) = false ∧
    Instr.wf (.dv32TimedRegisterWrite 0 0x16 0) = false ∧ Instr.wf (.legacyIgnoredWrite 0 0x15 0) = false := by
  decide +kernel

/-- A housekeeping task declares at most 4,096 cycles. -/
theorem test_wf_cards : Instr.wf (.cardCreateFor [⟨0, 8448, 0, 0, 0, 4097⟩]) = false ∧
    Instr.wf (.cardCreateFor [⟨0, 8448, 0, 0, 0, 4096⟩]) = true := by
  decide +kernel

theorem test_wf_slots : Instr.wf (.ldw 0 false ⟨0, 0, 0, false, 3, 0⟩ .clean) = false ∧ Instr.wf (.ldz 0 false ⟨1, 0, 0, false, 0, 0⟩ .clean) = false ∧
    Instr.wf (.stwEcc 0 true ⟨0, 0, 0, false, 1, 1⟩ .clean) = false ∧ Instr.wf (.ldlEcc 0 false 0 0 3 .clean) = false ∧
    Instr.wf (.stlEcc 0 false 0 0 3 .clean) = false ∧
    Instr.wf (.rmac2 0 1 1 false false false 0 0 0 0) = false ∧ Instr.wf (.ext 0 0 0 9 false) = false ∧
    Instr.wf (.ext 0 1 0 0 true) = false ∧
    Instr.wf (.shi 0 0 0 3 0) = false ∧ Instr.wf (.br 0 0 63) = false ∧ Instr.wf (.call 0 0 63) = false ∧
    Instr.wf (.rep 0 1025) = false ∧ Instr.wf (.movx 0 0 0 7 0) = false ∧ Instr.wf (.movx 0 16 0 1 0) = false := by
  decide +kernel

theorem test_wf_rings : Instr.wf (.laneSetRequest 0 true 128 0) = false ∧ Instr.wf (.crossfadeDone true 128) = false ∧
    Instr.wf (.sapFrameStart 0 0 0 (List.replicate 17 0) [] []) = false ∧
    Instr.wf (.enumFrame ⟨0, 0, false, false, 0, true, false⟩ 0 (List.replicate 1025 (0, 0)) false) = false ∧
    Instr.wf (.enumDoneFrame ⟨0, 0, false, false, 0, true, false⟩ [] 0 false) = false ∧
    Instr.wf (.reservedMarker 5) = false ∧ Instr.wf (.audioFrame ⟨0, 0, false, false, 0, true, false⟩ false 0 0 (List.replicate 1025 0) false) = false ∧
    Instr.wf (.eventFrame ⟨0, 0, false, false, 0, true, false⟩ []) = false ∧
    Instr.wf (.tunnelRequestFrame ⟨0, 0, false, false, 0, true, false⟩ 0 false 2 0) = false ∧
    Instr.wf (.bootFrame ⟨0, 0, false, false, 0, true, false⟩ 0 1 (List.replicate 4097 0) false) = false ∧
    Instr.wf (.computeResetRelease ⟨(0, 0, 0), [1, 1], none, false, false, false⟩) = false := by
  decide +kernel

/-! ### The slots' words, spelled from the tables of chapter 09 -/

/-- Format A, bits [31:27] op, d, p, m, a, post, imm. -/
theorem test_words_format_a : decodeM 0x08C877FE#32 = some (.load .word ⟨3, 2, 1, true, 2, 0x7FE⟩ .clean) ∧
    decodeM 0x11158800#32 = some (.load .half ⟨4, 5, 6, false, 1, 0⟩ .clean) ∧
    decodeM 0x19158800#32 = some (.load .halfU ⟨4, 5, 6, false, 1, 0⟩ .clean) ∧
    decodeM 0x21158800#32 = some (.load .byte ⟨4, 5, 6, false, 1, 0⟩ .clean) ∧
    decodeM 0x29158800#32 = some (.load .pair ⟨4, 5, 6, false, 1, 0⟩ .clean) ∧
    decodeM 0x31158800#32 = some (.store .word ⟨4, 5, 6, false, 1, 0⟩ .clean) ∧ decodeM 0x39158800#32 = some (.store .half ⟨4, 5, 6, false, 1, 0⟩ .clean) ∧
    decodeM 0x41158800#32 = some (.store .byte ⟨4, 5, 6, false, 1, 0⟩ .clean) ∧ decodeM 0x49158800#32 = some (.store .pair ⟨4, 5, 6, false, 1, 0⟩ .clean) ∧
    decodeM 0x08001800#32 = none := by decide

/-- Formats S, L, N, P1, P2 and P3; 0x11 is reserved. -/
theorem test_words_m : decodeM 0x50450000#32 = some (.srd 1 2 true false .clean) ∧ decodeM 0x59CE0000#32 = some (.ldl 7 3 2 .clean) ∧
    decodeM 0x61CD0000#32 = some (.stl 7 3 1 .clean) ∧ decodeM 0x68201000#32 = some (.snd 0 16 0 true) ∧
    decodeM 0x74D7FFFF#32 = some (.padd 9 10 true 0x3FFFF) ∧ decodeM 0x7C530000#32 = some (.pmov 17 4 3) ∧
    decodeM 0x83600000#32 = some (.pli 6 true 0x200000) ∧ decodeM 0x88000000#32 = none ∧ decodeM 0#32 = some .nop := by decide

theorem test_words_x : decodeX 0x0D118000#32 = some (.cmac true false true false 2 3) ∧ decodeX 0x1714C000#32 = some (.rmac 3 true false 5 6) ∧
    decodeX 0x1B508864#32 = some (.rmac2 1 2 true false true 1 2 3 4) ∧ decodeX 0x21A88000#32 = some (.ext 6 2 8 true) ∧
    decodeX 0x20090000#32 = none ∧ decodeX 0x2DF00000#32 = some (.accset 2 31) ∧ decodeX 0x30000000#32 = none := by decide

theorem test_words_alu : decodeC 0x04221800#32 = some (.alu .add 1 2 3) ∧ decodeC 0x04221840#32 = some (.alu .sub 1 2 3) ∧
    decodeC 0x04221880#32 = some (.alu .adds 1 2 3) ∧ decodeC 0x042218C0#32 = some (.alu .subs 1 2 3) ∧
    decodeC 0x04221900#32 = some (.alu .and 1 2 3) ∧ decodeC 0x04221940#32 = some (.alu .or 1 2 3) ∧
    decodeC 0x04221980#32 = some (.alu .xor 1 2 3) ∧ decodeC 0x042219C0#32 = some (.alu .shl 1 2 3) ∧
    decodeC 0x04221A00#32 = some (.alu .shr 1 2 3) ∧ decodeC 0x04221A40#32 = some (.alu .asr 1 2 3) ∧
    decodeC 0x04221A80#32 = some (.alu .min 1 2 3) ∧ decodeC 0x04221AC0#32 = some (.alu .max 1 2 3) ∧
    decodeC 0x04221B00#32 = some (.alu .abs 1 2 3) ∧ decodeC 0x04221B40#32 = some (.alu .mul16 1 2 3) ∧
    decodeC 0x04021B80#32 = some (.cmp 2 3) ∧ decodeC 0x042203C0#32 = some (.mov 1 2) ∧ decodeC 0x04221C00#32 = none := by decide

theorem test_words_c : decodeC 0x0822FFFD#32 = some (.addi 1 2 0xFFFD) ∧ decodeC 0x0C2200FF#32 = some (.andi 1 2 0xFF) ∧
    decodeC 0x102200FF#32 = some (.ori 1 2 0xFF) ∧ decodeC 0x142200FF#32 = some (.xori 1 2 0xFF) ∧
    decodeC 0x1822BE00#32 = some (.shi 1 2 2 31) ∧ decodeC 0x1C020007#32 = some (.cmpi 2 7) ∧ decodeC 0x23FFFFFF#32 = some (.ldi 31 0x1FFFFF) ∧
    decodeC 0x27E08000#32 = some (.ldhi 31 0x8000) ∧ decodeC 0x28221F00#32 = some (.sel 1 2 3 14) ∧
    decodeC 0x2C220000#32 = some (.shp .exp2 1 2) ∧ decodeC 0x2C222000#32 = some (.shp .sin 1 2) ∧ decodeC 0x2C224000#32 = some (.shp .tanh 1 2) ∧
    decodeC 0x2C226000#32 = some (.shp .sclip 1 2) ∧ decodeC 0x2C228000#32 = some (.shp .blep 1 2) ∧
    decodeC 0x2C22A000#32 = some (.shp .blamp 1 2) ∧ decodeC 0x2C22C000#32 = some (.shp .win 1 2) ∧
    decodeC 0x2C22E000#32 = some (.shp .reserved 1 2) ∧ decodeC 0x30228000#32 = some (.movx 1 2 8 0) ∧
    decodeC 0x36C0004D#32 = some (.setbl 5 true 77) := by decide

theorem test_words_control : decodeC 0x42400040#32 = some (.br 9 64) ∧ decodeC 0x44601FFF#32 = some (.call 3 8191) ∧
    decodeC 0x48040000#32 = some (.brd 4) ∧ decodeC 0x4C000400#32 = some (.rep 1024) ∧ decodeC 0x50050000#32 = some (.repd 5) ∧
    decodeC 0x540027FF#32 = some (.loop 9 1023) ∧ decodeC 0x580F0007#32 = some (.loopd 15 7) ∧ decodeC 0x5C000003#32 = some (.waitl 3) ∧
    decodeC 0x60000001#32 = some (.done true) ∧ decodeC 0x64000000#32 = some .draw ∧ decodeC 0x68000000#32 = some .rte ∧
    decodeC 0x38000000#32 = none ∧ decodeC 0x6C000000#32 = none := by decide

/-- The table gives no row any bits: a word spells no command. -/
theorem test_no_words : decodeTableWord 32 0x68201000 = none := by decide

/-! ### States that meet the hypotheses of the statements

Each theorem names a statement of Obligations.lean and gives, clause by clause, a state and operands that meet its hypotheses together,
at a boundary where a clause has one. Statements without hypotheses need none. -/

/-- A state of the running engine: that of reset, released, with `f` applied. -/
def live (f : Block → Block) : State :=
  { State.reset with blk := f { State.reset.blk with sys := { State.reset.blk.sys with held := false } } }

theorem test_IdleIsOneCycle : (live id).pending = [] ∧ (live id).live ∧ State.reset.pending = [] ∧ ¬ State.reset.live := by
  delta State.live State.grants State.issues State.front State.presents State.serves State.bundles State.atIssue Block.quiet State.settled
  decide +kernel

theorem test_HeldTakesNothing : ¬ State.reset.live ∧ actsInReset .noteOn = false ∧ actsInReset (.referenceFrameEdge 0) = false := by
  delta State.live State.grants State.issues State.front State.presents State.serves State.bundles State.atIssue Block.quiet State.settled
  decide +kernel

theorem test_SettledKept : (live id).settled ∧ ∃ t, step { live id with pending := [.markRead 0] } = .next t :=
  ⟨by
      delta State.live State.grants State.issues State.front State.presents State.serves State.bundles State.atIssue Block.quiet State.settled
      decide +kernel, _, rfl⟩

theorem test_FollowsACommand : (live id).blk.quiet ∧ ((live id).blk.bump EFE_CNT_ump_unsup).quiet := by
  delta State.live State.grants State.issues State.front State.presents State.serves State.bundles State.atIssue Block.quiet State.settled
  decide +kernel

theorem test_SlotRoundTrip : (MOp.load .pair ⟨30, 15, 15, true, 2, 0x7FF⟩ .clean).ok ∧ (XOp.ext 30 2 8 true).ok ∧ (COp.rep 1024).ok ∧
    (COp.br 15 64).ok ∧ (COp.movx 31 31 8 0).ok := by decide +kernel

theorem test_BundleRoundTrip : let b : Bundle := ⟨.stl 31 15 2 .clean, .ldl 0 0 0 .clean, .rmac2 0 1 true false true 31 0 31 0, .call 31 64⟩
    b.m0.ok ∧ b.m1.ok ∧ b.x.ok ∧ b.c.ok := by decide +kernel

/-- A read of 8 bytes at the first word of the first block, and a write of 4 bytes that is not aligned. -/
theorem test_BadAccessRefused : (live id).live ∧ (live id).grants 0 0x40000000 ∧ 0x40000000 ≤ (0x40000000#40).toNat ∧
    (0x40000000#40).toNat < 0x44000000 ∧ (regBlock (regBlockBase (0x40000000#40).toNat)).isSome ∧ (Xact.read 8).wf ∧
    (0x40000000#40).toNat / 4096 = ((0x40000000#40).toNat + Xact.bytes (.read 8) - 1) / 4096 ∧ Xact.bytes (.read 8) ≠ 4 ∧
    (live id).grants 0 0x40000002 ∧ (regBlock (regBlockBase 0x40000002)).isSome ∧ (Xact.write (List.replicate 4 none)).wf ∧
    (0x40000002#40).toNat / 4096 = ((0x40000002#40).toNat + 3) / 4096 ∧ (0x40000002#40).toNat % 4 ≠ 0 := by
  delta State.live State.grants State.issues State.front State.presents State.serves State.bundles State.atIssue Block.quiet State.settled
  decide +kernel

theorem test_UnoccupiedOffset : (live id).live ∧ (live id).grants 0 0x4000FFFC ∧ (0x4000FFFC#40).toNat % 4 = 0 ∧
    (regBlock (regBlockBase (0x4000FFFC#40).toNat)).isSome ∧ regAt (0x4000FFFC#40).toNat = none := by
  delta State.live State.grants State.issues State.front State.presents State.serves State.bundles State.atIssue Block.quiet State.settled
  decide +kernel

theorem test_AccessCodes : (live id).live ∧ (live id).grants 0 EFE_IRQ_STAT ∧ EFE_IRQ_STAT % 4 = 0 ∧
    (regAt EFE_IRQ_STAT).any (fun h => !h.desc.wide && (writeSingle 0 h.key 1 0 (live id).blk).isNone && (writeElement h.key 1 h (live id).blk).isNone &&
      !([EFE_MARK, DCH_CROM_DATA, LEG_TBL_DATA, SEC_TRNG].contains h.key) && decide (∀ n : Fin 16, h.key ≠ EFE_SRC_STAT n.val)) ∧
    (regAt EFE_IRQ_STAT).any (fun h => let d := h.desc
      let plain := d.wo ||| d.rw ||| d.rwl
      decide (d.w1c ≠ 0 ∧ plain &&& d.w1c = 0 ∧ plain &&& d.w1s = 0 ∧ d.w1c &&& d.w1s = 0)) := by
  delta State.live State.grants State.issues State.front State.presents State.serves State.bundles State.atIssue Block.quiet State.settled
  decide +kernel

theorem test_WideRegisters : (live id).live ∧ (live id).grants 0 TBU_CYCLE ∧ (live id).grants 0 (TBU_CYCLE + 4) ∧ TBU_CYCLE % 8 = 0 ∧
    (match regAt TBU_CYCLE, regAt (TBU_CYCLE + 4) with
      | some lo, some hi => lo.desc.wide && !lo.high && hi.desc == lo.desc && hi.idx == lo.idx && hi.high &&
          decide (¬ ∃ n : Fin 8, lo.key = TBU_CAP_VAL n.val)
      | _, _ => false) = true ∧ regBlockBase (TBU_CYCLE + 4) = regBlockBase TBU_CYCLE := by
  delta State.live State.grants State.issues State.front State.presents State.serves State.bundles State.atIssue Block.quiet State.settled
  decide +kernel

/-- An edge a cycle short of half a nominal period (48 kHz: 10,416.67 ns) after the last. -/
theorem test_GlitchIgnored : let s := live fun b => { b.put TBU_REF_STAT_state 1 with tbu := { b.tbu with running := true, edgeT := some 0 } }
    let b := advanceTo 10416 s.blk
    s.live ∧ b.tbu.running ∧ b.tbu.sel.src ≠ 3 ∧ b.tbu.edgeT = some 0 ∧ 2 * since 0 10416 * nominalFs b < 1000000000 := by
  delta State.live State.grants State.issues State.front State.presents State.serves State.bundles State.atIssue Block.quiet State.settled
  decide +kernel

/-- An event of source 0 due at frame 0. -/
def timed (e : Ev) : Timed := ⟨e, 0, none, 0, some 0, none, false, false, 0⟩

/-- A presented event of opcode `op`, and a state with it in front. -/
def shown (op : Nat) : Timed := timed (Ev.mk' op 0 0 0 0x140000)
def presenting (op : Nat) : State := live fun b => { b with efe := { b.efe with present := [shown op] } }

/-- A state, that `f` leaves, with the event `e` released. -/
def releasing (e : Ev) (f : Block → Block) : State := live fun b => { f b with efe := { (f b).efe with released := [timed e] } }

/-- What every clause of ReleasedEventsAct asks of a state: it runs, nothing is asked for, and `e` stands in front. -/
def ready (e : Ev) (f : Block → Block) : Prop :=
  (releasing e f).live ∧ (releasing e f).blk.quiet ∧ (releasing e f).front e.op (timed e) []

theorem test_TempoClamped : (live id).live ∧ (live id).grants 0 TBU_TEMPO ∧ (presenting 0x0E).live ∧ (presenting 0x10).live ∧
    (presenting 0x0E).presents 0x0E (shown 0x0E) [] ∧
    (presenting 0x10).presents 0x10 (shown 0x10) [] ∧
    (live fun b => b.put TBU_TEMPO_CFG_run 0).blk.get TBU_TEMPO_CFG_src = 0 ∧
    (live fun b => b.put TBU_TEMPO_CFG_run 0).blk.get TBU_TEMPO_CFG_run = 0 := by
  delta State.live State.grants State.issues State.front State.presents State.serves State.bundles State.atIssue Block.quiet State.settled
  decide +kernel

theorem test_LocateTakesEffect : (presenting 0x0F).live ∧ (presenting 0x0F).blk.quiet ∧
    (presenting 0x0F).presents 0x0F (shown 0x0F) [] := by
  delta State.live State.grants State.issues State.front State.presents State.serves State.bundles State.atIssue Block.quiet State.settled
  decide +kernel

theorem test_CompareUnits : (live id).live ∧ (live id).grants 0 (TBU_CMP_VAL 0 + 4) ∧
    (live id).grants 1 (TBU_CMP_VAL 15 + 4) := by
  delta State.live State.grants State.issues State.front State.presents State.serves State.bundles State.atIssue Block.quiet State.settled
  decide +kernel

theorem test_CaptureUnits : let s := live fun b => (b.put (TBU_CAP_CFG_kind 7) 3).put (TBU_CAP_CFG_sel 7) 8
    let r := live fun b => b.put (TBU_CAP_STAT_pend 7) 1
    s.live ∧ captureHasSource s.blk 7 ∧ captureHasSource ((s.blk.put (TBU_CAP_CFG_kind 0) 2).put (TBU_CAP_CFG_sel 0) 23) 0 ∧
    captureHasSource (s.blk.put (TBU_CAP_CFG_kind 0) 1) 0 ∧ r.live ∧ r.grants 0 (TBU_CAP_VAL 7) ∧ r.blk.on (TBU_CAP_STAT_pend 7) := by
  delta State.live State.grants State.issues State.front State.presents State.serves State.bundles State.atIssue Block.quiet State.settled
  decide +kernel

/-- A timer of its own, an even one of a pair, and the odd one of a pair, at whose underflow both halves end. -/
theorem test_Timers : let s := live fun b => { b.put (TBU_TMR_CFG_en 6) 1 with tbu := { b.tbu with tmrDue := [6] } }
    let p := live fun b => { ((b.put (TBU_TMR_CFG_en 6) 1).put (TBU_TMR_CFG_en 7) 1).put (TBU_TMR_CFG_chain 7) 1 with
      tbu := { b.tbu with tmrDue := [6, 7] } }
    s.live ∧ 6 ∈ s.blk.tbu.tmrDue ∧ s.blk.on (TBU_TMR_CFG_en 6) ∧ ¬ (6 % 2 = 1 ∧ timerPaired s.blk (6 - 1)) ∧
    p.live ∧ 7 ∈ p.blk.tbu.tmrDue ∧ p.blk.on (TBU_TMR_CFG_en 7) ∧ 7 % 2 = 1 ∧ timerPaired p.blk (7 - 1) ∧
    6 ∈ p.blk.tbu.tmrDue ∧ p.blk.on (TBU_TMR_CFG_en 6) ∧ ¬ (6 % 2 = 1 ∧ timerPaired p.blk (6 - 1)) ∧
    s.grants 0 (TBU_TMR_RLD 7) := by
  delta State.live State.grants State.issues State.front State.presents State.serves State.bundles State.atIssue Block.quiet State.settled
  decide +kernel

theorem test_DisabledSourceIgnores : (live fun b => b.put EFE_CTL_en 0xFFF7).live ∧ ¬ srcOn (live fun b => b.put EFE_CTL_en 0xFFF7).blk 3 ∧
    ¬ umpOn (live id).blk UmpSrc.pcie.num := by
  delta State.live State.grants State.issues State.front State.presents State.serves State.bundles State.atIssue Block.quiet State.settled
  decide +kernel

theorem test_StatusAndMarks : let s := live fun b => { b with efe := { b.efe with status := [(15, [(65535, 7)])] } }
    s.live ∧ s.grants 0 (EFE_SRC_STAT 15) ∧ statusFifo s.blk 15 = [(65535, 7)] ∧ s.grants 1 (EFE_SRC_STAT 0) ∧ statusFifo s.blk 0 = [] ∧
    (presenting 0x11).live ∧ (presenting 0x11).presents 0x11 (shown 0x11) [] ∧
    s.grants 0 EFE_MARK := by
  delta State.live State.grants State.issues State.front State.presents State.serves State.bundles State.atIssue Block.quiet State.settled
  decide +kernel

theorem test_ParseErrorsCounted : let s := live fun b => { b.put EFE_CTL_en 8 with efe := { b.efe with synced := [3], running := [(3, 0x90)] } }
    s.live ∧ s.blk.quiet ∧ srcOn s.blk 3 ∧ 3 ∈ s.blk.efe.synced := by
  delta State.live State.grants State.issues State.front State.presents State.serves State.bundles State.atIssue Block.quiet State.settled
  decide +kernel

theorem test_ReleasedEventsAct : ∀ op ∈ [1, 2, 3, 4, 5, 6, 7, 9, 0x0A, 0x0B, 0x0C, 0x0D, 0x12, 0x13], ready (Ev.mk' op 0 0 0 0) id := by
  delta ready State.live State.grants State.issues State.front State.presents State.serves State.bundles State.atIssue Block.quiet State.settled
  decide +kernel

/-- PROGS with program 0 of one layer (R142): every key and velocity, one voice, template 0 as an ORGAN, on loom 3 alone. -/
def oneLayer : List Byte := [4, 0, 0, 0, 1, 0, 0, 0, 0, 127, 1, 8, 0, 0, 0xFF, 0xFF, 0, 0, 2] ++ List.replicate 21 0

/-- An engine with that program and cycles to spare on harness 31. -/
def withProgram (b : Block) : Block := { b.put (DLR_HCAP_A 31) 100000 with img := [(7, oneLayer)] }

theorem test_ReleasedEventsAct_noteOn : let e := keyEv 1 0 60 0x8000 0
    let b := (releasing e withProgram).blk
    let ly := layerAt oneLayer 8
    let g : Group := { note := b.alc.nextNote, ix := 0, ly := ly, pick := b.pickNo, offset := 0, cost := (admitCost b ly.prog).getD 0
                       bytes := b.tmplBytes ly.prog ly.template, book := false }
    ready e withProgram ∧ b.alc.pooled = [] ∧ (b.part 0).mode = 0 ∧ (b.part 0).retrig = 0 ∧ e.bits 23 16 = 0 ∧
    matching b e.part e.key (e.bits 15 0) = [(0, ly)] ∧ ly.unison = 1 ∧ admissionOpen b = true ∧ (admitCost b ly.prog).isSome ∧
    b.alc.started < 256 ∧ 31 < 32 ∧ fits b g 31 = true ∧ b.get VAL_CFG_slot_rsv < (freeSlots b 31).length := by
  delta ready State.live State.grants State.issues State.front State.presents State.serves State.bundles State.atIssue Block.quiet State.settled
  decide +kernel

/-- A note of part 0 with one voice, in the state `st`, and its part as `p`. -/
def held (st : VState) (nt : Note) (p : Part) (b : Block) : Block :=
  { b with alc := { b.alc with notes := [(1, some nt)], parts := [(0, p)]
                               voices := [(8191, { st := st, note := 1, key := 60, zoneKey := 60 })] } }

/-- Its note. -/
def aNote : Note := { part := 0, key := 60, noteId := 0, vel := 0x8000 }

/-- NOTE_OFF with the pedal up and down, and of one voice; and of a voice that is free. -/
theorem test_ReleasedEventsAct_noteOff : let e := keyEv 2 0 60 0x8000 0
    let v := Ev.mk' 2 0 1 8191 0x8000
    let up := held .sounding aNote {}
    let dn := held .sounding aNote { sustain := 0x8000 }
    ready e up ∧ e.kind ≠ 1 ∧ ((releasing e up).blk.part 0).mode = 0 ∧ findNote (releasing e up).blk e.part e.key (e.bits 23 16) = some 1 ∧
    (releasing e up).blk.note 1 = some aNote ∧ aNote.released = false ∧ pedalHolds (releasing e up).blk aNote = false ∧
    ready e dn ∧ findNote (releasing e dn).blk e.part e.key (e.bits 23 16) = some 1 ∧
    (releasing e dn).blk.note 1 = some aNote ∧ pedalHolds (releasing e dn).blk aNote = true ∧
    ready v up ∧ v.kind = 1 ∧ v.index = 8191 ∧ ((releasing v up).blk.voice 8191).st = .sounding ∧
    ready v id ∧ ((releasing v id).blk.voice 8191).st = .free := by
  delta ready State.live State.grants State.issues State.front State.presents State.serves State.bundles State.atIssue Block.quiet State.settled
  decide +kernel

/-- Per-note events to a key of the part and to one voice: of a note that sounds, and where none does. -/
theorem test_ReleasedEventsAct_perNote : ∀ op ∈ [3, 5, 7],
    let e := keyEv op 0 60 0x8000 0
    let v := Ev.mk' op 0 1 8191 0x8000
    let up := held .sounding aNote {}
    ready e up ∧ e.kind ≠ 1 ∧ (addressed (releasing e up).blk e.part e.key (e.bits 23 16)).map (·.1) = [8191] ∧
    ready v up ∧ v.kind = 1 ∧ v.index = 8191 ∧ ((releasing v up).blk.voice 8191).st ≠ .free ∧
    ready v id ∧ ((releasing v id).blk.voice 8191).st = .free := by
  delta ready State.live State.grants State.issues State.front State.presents State.serves State.bundles State.atIssue Block.quiet State.settled
  decide +kernel

/-- PARAM and KILL of one voice; a controller and a bend of a part. -/
theorem test_ReleasedEventsAct_part : let up := held .sounding aNote {}
    let m := Ev.mk' 9 0 1 8191 0x8000
    let k := Ev.mk' 0x0A 0 1 8191 0
    ready m up ∧ ((releasing m up).blk.voice 8191).st ≠ .free ∧ ready m id ∧ ((releasing m id).blk.voice 8191).st = .free ∧
    ready k id ∧ k.kind = 1 ∧ ((releasing k id).blk.voice 8191).st = .free ∧
    ready (Ev.mk' 4 0 0 0 0x0B123456) id ∧ (Ev.mk' 4 0 0 0 0x0B123456).ext = .none ∧ ready (Ev.mk' 6 0 0 63 0xFFFF) id := by
  delta ready State.live State.grants State.issues State.front State.presents State.serves State.bundles State.atIssue Block.quiet State.settled
  decide +kernel

theorem test_ReleasedEventsAct_pedal : let pd (which depth : Nat) := Ev.mk' 0x12 0 0 0 (depth * 65536 + which)
    ready (pd 0 0x8000) id ∧ (pd 0 0x8000).bits 1 0 = 0 ∧ ¬ (0x8000 ≤ ((releasing (pd 0 0x8000) id).blk.part 0).sustain ∧ (pd 0 0x8000).bits 31 16 < 0x8000) ∧
    ready (pd 1 0x7FFF) id ∧ (pd 1 0x7FFF).bits 1 0 = 1 ∧
    (0x8000 ≤ ((releasing (pd 1 0x7FFF) id).blk.part 0).sostenuto ↔ 0x8000 ≤ (pd 1 0x7FFF).bits 31 16) ∧
    ready (pd 2 0xFFFF) id ∧ (pd 2 0xFFFF).bits 1 0 = 2 := by
  delta ready State.live State.grants State.issues State.front State.presents State.serves State.bundles State.atIssue Block.quiet State.settled
  decide +kernel

/-- The pedal that kept a note goes up; the tuning table, the fine tune, and both. -/
theorem test_ReleasedEventsAct_kept : let e := Ev.mk' 0x12 0 0 0 0x7FFF0000
    let kept : Note := { aNote with released := true, sustained := true }
    let dn := held .sounding kept { sustain := 0x8000 }
    ready e dn ∧ e.bits 1 0 = 0 ∧ 0x8000 ≤ ((releasing e dn).blk.part 0).sustain ∧ e.bits 31 16 < 0x8000 ∧
    partNotes (releasing e dn).blk 0 = [(1, kept)] ∧ (releasing e dn).blk.note 1 = some kept ∧ kept.latched = false ∧
    (∀ o ∈ [1, 2, 3], ready (Ev.mk' 0x13 o 0 63 0xFF000002) id ∧ (Ev.mk' 0x13 o 0 63 0xFF000002).oflags % 4 = o) := by
  delta ready State.live State.grants State.issues State.front State.presents State.serves State.bundles State.atIssue Block.quiet State.settled
  decide +kernel

/-- KILL of a voice, of a part and of the chip, and ALL_OFF that heeds no pedal, and one that heeds it while it is up. -/
theorem test_ReleasedEventsAct_stops : let up := held .sounding aNote {}
    let dn := held .sounding aNote { sustain := 0x8000 }
    let k (kind ix : Nat) := Ev.mk' 0x0A 0 kind ix 512
    let a (o : Nat) := Ev.mk' 0x0B o 0 0 0
    (∀ kind ∈ [(1, 8191), (2, 0), (3, 0)], ready (k kind.1 kind.2) up ∧ (k kind.1 kind.2).kind = kind.1) ∧ (k 1 8191).index = 8191 ∧
    ((releasing (k 1 8191) up).blk.voice 8191).st = .sounding ∧ ((releasing (k 1 8191) up).blk.voice 8191).next = none ∧
    (releasing (k 2 0) up).blk.alc.voices.all (fun kv => kv.2.next.isNone && kv.2.st != .booked) ∧
    ready (a 0) up ∧ (a 0).kind ≠ 3 ∧ partNotes (releasing (a 0) up).blk 0 = [(1, aNote)] ∧ (releasing (a 0) up).blk.note 1 = some aNote ∧
    aNote.booked = false ∧ noteFading (releasing (a 0) up).blk 1 = false ∧ pedalHolds (releasing (a 0) up).blk aNote = false ∧
    ready (a 1) dn ∧ (a 1).oflags % 2 = 1 ∧ partNotes (releasing (a 1) dn).blk 0 = [(1, aNote)] ∧
    noteFading (releasing (a 1) dn).blk 1 = false ∧ pedalHolds (releasing (a 1) dn).blk aNote = true := by
  delta ready State.live State.grants State.issues State.front State.presents State.serves State.bundles State.atIssue Block.quiet State.settled
  decide +kernel

/-- A mix plan of one entry: bus 255, on loom 3. -/
def onePlan : List Byte := [1, 0, 0, 0] ++ List.replicate 0x23C 0 ++ [255, 1, 8] ++ List.replicate 29 0

/-- A bus card of that bus in service on loom 3. -/
def onBus : Card := ⟨1, 8447, 2, 2, 1, 1000, 0, 0, 35, .inService 159, 0, 0, none, none⟩

theorem test_ReleasedEventsAct_mix : let e := Ev.mk' 0x0C 0 2 255 0x12340010
    let p (b : Block) : Block := { b with img := [(0xD, onePlan)] }
    let q (b : Block) : Block := { p b with dlr := { b.dlr with cards := [onBus] } }
    let c := Ev.mk' 0x0D 0 3 31 0x8000
    let en (b : Block) : Block := b.put (CVO_CH_CFG_en 31) 1
    ready e p ∧ (entryFor (releasing e p).blk 3 e.index).isSome ∧ (∀ l ∈ [0, 1, 2], entryFor (releasing e p).blk l e.index = none) ∧
    busInService (releasing e p).blk 3 e.index = false ∧
    ready e q ∧ (entryFor (releasing e q).blk 3 e.index).isSome ∧ (∀ l ∈ [0, 1, 2], entryFor (releasing e q).blk l e.index = none) ∧
    busInService (releasing e q).blk 3 e.index = true ∧
    ready c en ∧ cvSrc (releasing c en).blk (c.index % 32) = 0 ∧ (releasing c en).blk.on (CVO_CH_CFG_en (c.index % 32)) := by
  delta ready State.live State.grants State.issues State.front State.presents State.serves State.bundles State.atIssue Block.quiet State.settled
  decide +kernel

theorem test_ProgramChangesPart : ready (Ev.mk' 8 0 0 63 0xFFF) id := by
  delta ready State.live State.grants State.issues State.front State.presents State.serves State.bundles State.atIssue Block.quiet State.settled
  decide +kernel

/-- Requests and cancels of a snapshot; DLR_CANCEL while busy, of flows just below and above the housekeeping flows, and of the first and
last of those, whose card is in service or ready; and queries. -/
theorem test_DealerRegisters : let p := live fun b => b.put DLR_SNAP_STAT_pending 1
    let r := live fun b => { b with dlr := { b.dlr with snap := some (0, []) } }
    let c := live fun b => b.put DLR_CANCEL_STAT_busy 1
    let q := live fun b => b.put VAL_QRY_STAT_busy 1
    let k (flow : Nat) (st : CardSt) : Card := { onBus with flow := flow, level := 7, type := 3, st := st }
    let hk := live fun b => { b with dlr := { b.dlr with cards := [k 8448 (.inService 159), k 8511 .ready] } }
    (live id).live ∧ (live id).grants 0 DLR_SNAP_CTL ∧ (live id).blk.quiet ∧ ¬ (live id).blk.on DLR_SNAP_STAT_pending ∧
    p.live ∧ p.grants 0 DLR_SNAP_CTL ∧ p.blk.quiet ∧ p.blk.on DLR_SNAP_STAT_pending ∧ p.blk.dlr.snap = none ∧
    r.live ∧ r.grants 0 DLR_SNAP_CTL ∧ r.blk.quiet ∧ r.blk.dlr.snap ≠ none ∧
    (live id).grants 0 DLR_CANCEL ∧ ¬ (live id).blk.on DLR_CANCEL_STAT_busy ∧ (8447 : Word).toNat % 16384 < 8448 ∧
    8512 ≤ (8512 : Word).toNat % 16384 ∧ c.live ∧ c.grants 0 DLR_CANCEL ∧ c.blk.on DLR_CANCEL_STAT_busy ∧
    hk.live ∧ hk.blk.quiet ∧ hk.grants 0 DLR_CANCEL ∧ ¬ hk.blk.on DLR_CANCEL_STAT_busy ∧ 8448 ≤ (8448 : Word).toNat % 16384 ∧
    (8511 : Word).toNat % 16384 < 8512 ∧
    (advanceTo 0 hk.blk).dlr.cards.find? (fun x => x.flow == 8448) = some (k 8448 (.inService 159)) ∧
    (advanceTo 0 hk.blk).dlr.cards.find? (fun x => x.flow == 8511) = some (k 8511 .ready) ∧
    (live id).grants 0 VAL_QRY_CMD ∧ ¬ (live id).blk.on VAL_QRY_STAT_busy ∧ q.live ∧ q.grants 0 VAL_QRY_CMD ∧ q.blk.on VAL_QRY_STAT_busy := by
  delta ready State.live State.grants State.issues State.front State.presents State.serves State.bundles State.atIssue Block.quiet State.settled
  decide +kernel

/-- A running engine in which shuttle 159 runs the card `c` and shuttle 158 a fault handler, their next bundle at 64. -/
def workingAs (c : Card) (x y : Shuttle) : State := live fun b =>
  { (((b.put (SHT_SSTAT_state 159) 1).put (SHT_SSTAT_state 158) 2).setShuttle 159 { x with card := some c.no, pc := 64, bundle := 1 }).setShuttle 158
      { y with pc := 64 } with dlr := { b.dlr with cards := [c] } }
def working (c : Card) : State := workingAs c {} {}

/-- A render card of voice 0 in service on shuttle 159. -/
def render : Card := ⟨1, 0, 0, 0, 64, 1000, 0, 0, 31, .inService 159, 0, 0, none, none⟩

/-- Loads and stores whose address has the size `n`. -/
def accesses (f : FmtA) (n : Nat) : List MOp :=
  if n = 1 then [.load .byte f .clean, .store .byte f .clean]
  else if n = 2 then [.load .half f .clean, .load .halfU f .clean, .store .half f .clean]
  else if n = 4 then [.load .word f .clean, .store .word f .clean]
  else [.load .pair f .clean, .store .pair f .clean]

/-- Shuttles that issue; and one with each instruction that a clause names in slot M1, M0 or X: the loads and stores at the ends of the
own scratch (R215). -/
theorem test_SlotsGiven : (working render).live ∧ (working render).issues 159 ∧ (working render).issues 158 := by
  delta State.live State.grants State.issues State.front State.presents State.serves State.bundles State.atIssue Block.quiet State.settled
  decide +kernel

theorem test_SlotsGiven_access : ∀ f ∈ ([⟨4, 3, 0, false, 0, 0⟩, ⟨4, 3, 1, true, 2, 8⟩] : List FmtA),
    ∀ an ∈ [((0x180000 : Word), 1), (0x180000, 2), (0x180000, 4), (0x180000, 8), (0x183FF7, 1), (0x183FF6, 2), (0x183FF4, 4), (0x183FF0, 8)],
    ∀ op ∈ accesses f an.2,
      let s := workingAs render { p := [(3, an.1)], m := [(1, 8)], m1 := op } {}
      let sh := s.atIssue 159
      s.bundles 159 ∧ 64 ≤ sh.pc ∧ sh.m1 = op ∧ sh.m0 = .nop ∧ sh.x = .nop ∧ op.ok ∧ sh.xfers = [] ∧
      (f.addr sh).toNat % an.2 = 0 ∧ 0x180000 ≤ (f.addr sh).toNat ∧ (f.addr sh).toNat < 0x184000 := by
  delta State.live State.grants State.issues State.front State.presents State.serves State.bundles State.atIssue Block.quiet State.settled
  decide +kernel

theorem test_SlotsGiven_others :
    (∀ op ∈ [MOp.padd 15 0 true 0x3FFFF, .pmov 31 15 0, .pmov 31 15 1, .pmov 31 15 2, .pmov 31 15 3, .pli 15 true 0x200000],
      let s := workingAs render { m0 := op } {}
      let sh := s.atIssue 159
      s.bundles 159 ∧ 64 ≤ sh.pc ∧ sh.m0 = op ∧ sh.m1 = .nop ∧ sh.x = .nop ∧ op.ok) ∧
    (∀ op ∈ [XOp.rmac 3 true true 31 31, .rmac2 0 1 false true true 0 31 0 31, .cmac true true false true 15 0, .ext 31 3 8 false, .accset 3 31],
      let s := workingAs render { x := op } {}
      let sh := s.atIssue 159
      s.bundles 159 ∧ 64 ≤ sh.pc ∧ sh.m0 = .nop ∧ sh.m1 = .nop ∧ sh.x = op ∧ op.ok) := by
  delta State.live State.grants State.issues State.front State.presents State.serves State.bundles State.atIssue Block.quiet State.settled
  decide +kernel

/-- A slot that is legal, and one that is not: RTE outside a handler. -/
theorem test_SlotCIssues : (working render).live ∧ (working render).issues 159 ∧ eventDue 159 (working render).blk = false ∧
    bundleLegal (shtState (working render).blk 159) (((working render).blk.shuttle 159).startBundle ((working render).blk.shuttle 159).bundle)
      (.rep 1024) ∧
    bundleLegal (shtState (working render).blk 159) (((working render).blk.shuttle 159).startBundle ((working render).blk.shuttle 159).bundle)
      .rte = false ∧
    bundleLegal (shtState (working render).blk 158) (((working render).blk.shuttle 158).startBundle ((working render).blk.shuttle 158).bundle)
      .rte := by
  delta State.live State.grants State.issues State.front State.presents State.serves State.bundles State.atIssue Block.quiet State.settled
  decide +kernel

/-- One bundle without its other slots: outside and inside a loop, with eight transfers in flight; registers that MOVX may name; and a fault
and a tap handler. -/
theorem test_SlotCIssues_alone :
    (∀ x ∈ [({ d := [(31, 64)] } : Shuttle), { levels := 1, le := [(0, 65)], lc := [(0, 2)] },
        { xfers := List.replicate 8 ⟨true, 0, 0x00180000, 64, .clean⟩ }],
      let s := workingAs render x {}
      let sh := s.atIssue 159
      s.bundles 159 ∧ sh.m0 = .nop ∧ sh.m1 = .nop ∧ sh.x = .nop ∧ 64 ≤ sh.pc ∧ sh.slotsLeft = 0 ∧ sh.rep = none ∧
      sh.isLoopEnd sh.pc = false ∧ sh.levels < 2 ∧ sh.xfers.length ≤ 8 ∧ (cardOf s.blk 159).all (fun c => c.type != 5)) ∧
    64 ≤ (((workingAs render { d := [(31, 64)] } {}).atIssue 159).rd 31).toNat % 8192 ∧
    (COp.movx 31 31 8 0).ok ∧ (COp.movx 31 15 0 2).ok ∧ (COp.movx 7 31 4 0).ok ∧
    (∀ st ∈ [2, 3],
      let t : State := { working render with blk := (working render).blk.put (SHT_SSTAT_state 158) st }
      let sh := t.atIssue 158
      t.live ∧ t.blk.quiet ∧ t.issues 158 ∧ eventDue 158 t.blk = false ∧ sh.m0 = .nop ∧ sh.m1 = .nop ∧ sh.x = .nop ∧ 64 ≤ sh.pc ∧
      sh.slotsLeft = 0 ∧ sh.rep = none ∧ shtState t.blk 158 = st) := by
  delta State.live State.grants State.issues State.front State.presents State.serves State.bundles State.atIssue Block.quiet State.settled
  decide +kernel

/-- Shifts of 31 and of 32. -/
theorem test_AluFunctions : (31#32).toNat % 64 < 32 ∧ 32 ≤ (32#32).toNat % 64 := by decide

theorem test_IllegalBundleFaults : (working render).live ∧ (working render).issues 159 ∧ (working render).blk.quiet := by
  delta State.live State.grants State.issues State.front State.presents State.serves State.bundles State.atIssue Block.quiet State.settled
  decide +kernel

theorem test_TableReads : (live id).live ∧ (live id).grants 0 DCH_CROM_DATA ∧ (live id).grants 0 LEG_TBL_DATA := by
  delta State.live State.grants State.issues State.front State.presents State.serves State.bundles State.atIssue Block.quiet State.settled
  decide +kernel

theorem test_SapCommands : let s := live fun b => (b.put (SAP_CTL_en 7) 1).put (SAP_STAT_clk 7) 1
    s.live ∧ s.blk.quiet ∧ s.blk.on (SAP_CTL_en 7) ∧ s.blk.on (SAP_STAT_clk 7) ∧ s.grants 0 (SAP_CTL 7) ∧ s.grants 0 (SAP_CFG 7) := by
  delta State.live State.grants State.issues State.front State.presents State.serves State.bundles State.atIssue Block.quiet State.settled
  decide +kernel

theorem test_CvWrites : (live id).live ∧ (live id).grants 0 (CVO_CH_VAL 31) ∧ cvSrc (live id).blk 31 = 0 ∧
    cvSrc (live fun b => b.put (CVO_CH_CFG_src 31) 1).blk 31 ≠ 0 := by
  delta State.live State.grants State.issues State.front State.presents State.serves State.bundles State.atIssue Block.quiet State.settled
  decide +kernel

/-- Owners 8 (the highest) of bank 0, and 1 of bank 31, the highest that chip SRAM may have; and an owner whose handover waits. -/
theorem test_BankHandover : let p := live fun b => (b.put (MEM_BANK_OWN_pending 95) 1).put (MEM_BANK_OWN_nxt 95) 2
    (live id).live ∧ (live id).grants 0 (MEM_BANK_OWN 0) ∧ (8 : Word).getLsbD 9 = false ∧ (8 : Word).toNat % 16 ≤ 8 ∧
    ¬ (live id).blk.on (MEM_BANK_OWN_pending 0) ∧ (live id).blk.get (MEM_BANK_OWN_owner 0) ≠ (8 : Word).toNat % 16 ∧
    (live id).grants 0 (MEM_BANK_OWN 31) ∧ (1 : Word).toNat % 16 ≤ 1 ∧ ¬ (live id).blk.on (MEM_BANK_OWN_pending 31) ∧
    (live fun b => b.put (MEM_BANK_OWN_owner 31) 1).blk.get (MEM_BANK_OWN_owner 31) = (1 : Word).toNat % 16 ∧
    p.live ∧ p.blk.quiet ∧ p.grants 0 (MEM_BANK_OWN 95) ∧ p.blk.on (MEM_BANK_OWN_pending 95) ∧
    FMap.get (fun _ => []) p.blk.mm.held 95 = [] := by
  delta State.live State.grants State.issues State.front State.presents State.serves State.bundles State.atIssue Block.quiet State.settled
  decide +kernel

theorem test_CapturesReleased : (live id).live ∧ (live id).blk.quiet ∧ (live id).grants 0 MEM_ECC_CAP_INFO ∧
    (live id).grants 0 MEM_NOCAP_INFO ∧ (live id).grants 0 BMX_DEFCAP_INFO := by
  delta State.live State.grants State.issues State.front State.presents State.serves State.bundles State.atIssue Block.quiet State.settled
  decide +kernel

theorem test_DmaAborts : let s := live fun b => { b with mm := { b.mm with dma := [(3, some ⟨0, 16, 16, false, false⟩)] } }
    s.live ∧ s.grants 0 (BMX_DMA_CTL 3) ∧ (2 : Word).getLsbD 0 = false ∧
    FMap.get (fun _ => none) s.blk.mm.dma 3 = some ⟨0, 16, 16, false, false⟩ ∧ s.grants 0 (BMX_DMA_CTL 0) ∧
    FMap.get (fun _ => none) s.blk.mm.dma 0 = none := by
  delta State.live State.grants State.issues State.front State.presents State.serves State.bundles State.atIssue Block.quiet State.settled
  decide +kernel

theorem test_Pos0Latches : let s := live fun b => b.put LEG_CTL_en 8
    s.live ∧ dvOn s.blk 3 ∧ s.blk.quiet := by
  delta State.live State.grants State.issues State.front State.presents State.serves State.bundles State.atIssue Block.quiet State.settled
  decide +kernel

/-- A state with the mailbox command `m` latched. -/
def mailing (m : MbCmd) : State := live fun b => { b.put XCH_MB_STAT_busy 1 with sys := { b.sys with mb := some m } }

theorem test_MailboxClaims : (mailing ⟨1, 1, 0, false, false⟩).live ∧ (mailing ⟨1, 1, 0, false, false⟩).blk.sys.mb = some ⟨1, 1, 0, false, false⟩ ∧
    (mailing ⟨1, 1, 0, false, false⟩).blk.sys.mpDown = false ∧ (mailing ⟨1, 1, 0, false, false⟩).blk.quiet ∧
    (mailing ⟨1, 1, 0, true, false⟩).live ∧ (mailing ⟨1, 1, 0, true, false⟩).blk.sys.mb = some ⟨1, 1, 0, true, false⟩ := by
  delta State.live State.grants State.issues State.front State.presents State.serves State.bundles State.atIssue Block.quiet State.settled
  decide +kernel

theorem test_DoorbellCleared : (live id).live ∧ (live id).grants 0 HIF_DB_STAT ∧ (live id).blk.quiet ∧ (0x200 : Word).getLsbD 9 = true := by
  delta State.live State.grants State.issues State.front State.presents State.serves State.bundles State.atIssue Block.quiet State.settled
  decide +kernel

theorem test_FirstCauseStays : let s := live fun b => (b.put REL_STAT_safe 1).put REL_STAT_cause 7
    (live id).live ∧ (live id).blk.quiet ∧ (live id).blk.on REL_STAT_safe = false ∧ s.live ∧ s.blk.quiet ∧ s.blk.on REL_STAT_safe = true := by
  delta State.live State.grants State.issues State.front State.presents State.serves State.bundles State.atIssue Block.quiet State.settled
  decide +kernel

theorem test_UnquarantineWaits : (live id).live ∧ (live id).grants 0 REL_CTL ∧ (live id).blk.quiet ∧ (8 : Word).toNat.testBit 3 := by
  delta State.live State.grants State.issues State.front State.presents State.serves State.bundles State.atIssue Block.quiet State.settled
  decide +kernel

/-- The 16th refused response, and the lockout; a password that matches and one that does not, the last that is examined; and a response
under a nonce. -/
theorem test_UnlockGuarded : let s := live fun b => { b with sec := { b.sec with fails := 16 } }
    let r := live fun b => { b with sec := { b.sec with lockout := true } }
    let p (w : List Byte) := live fun b => { b.put SEC_STAT_method 2 with
      sec := { b.sec with fails := 15, fuses := { b.sec.fuses with password := w } } }
    let n := live fun b => { b.put SEC_STAT_method 1 with sec := { b.sec with nonce := true } }
    (∀ w ∈ [List.replicate 16 0, List.replicate 16 1], (p w).live ∧ (p w).blk.quiet ∧ (p w).grants 0 SEC_UNLK ∧
      (0x207 : Word).getLsbD 9 = true ∧ (0x207 : Word).getLsbD 8 = false ∧ (p w).blk.sec.lockout = false ∧ (p w).blk.sec.fails < 16 ∧
      (p w).blk.get SEC_STAT_method = 2) ∧
    responseMatches ((p (List.replicate 16 0)).blk.put SEC_UNLK_scope 7) = true ∧
    responseMatches ((p (List.replicate 16 1)).blk.put SEC_UNLK_scope 7) = false ∧
    n.live ∧ n.blk.quiet ∧ n.grants 0 SEC_UNLK ∧ n.blk.sec.lockout = false ∧ n.blk.sec.fails < 16 ∧
    n.blk.get SEC_STAT_method = 1 ∧ n.blk.sec.nonce = true ∧
    s.live ∧ s.blk.quiet ∧ s.grants 0 SEC_UNLK ∧ (0x200 : Word).getLsbD 9 = true ∧ (0x200 : Word).getLsbD 8 = false ∧
    16 ≤ s.blk.sec.fails ∧ r.live ∧ r.blk.quiet ∧ r.grants 0 SEC_UNLK ∧ r.blk.sec.lockout = true := by
  delta State.live State.grants State.issues State.front State.presents State.serves State.bundles State.atIssue Block.quiet State.settled
  decide +kernel

theorem test_TrngHealth : (live fun b => b.put SEC_STAT_trng_fail 1).live ∧ (live fun b => b.put SEC_STAT_trng_fail 1).blk.on SEC_STAT_trng_fail := by
  delta State.live State.grants State.issues State.front State.presents State.serves State.bundles State.atIssue Block.quiet State.settled
  decide +kernel

theorem test_JtagTakesPins : (live id).blk.quiet ∧ (live id).live ∧ (live id).blk.on SYS_STAT_recovery = false ∧
    (live id).blk.on REL_STAT_safe = false ∧ 3 ≤ (6 : Byte) ∧ (6 : Byte) ≤ 6 ∧ State.reset.blk.quiet ∧ ¬ State.reset.live := by
  delta State.live State.grants State.issues State.front State.presents State.serves State.bundles State.atIssue Block.quiet State.settled
  decide +kernel

/-! The statements of what each family of commands does. -/

/-- 1.5 periods of 48 kHz are 31,250 ns: HOLDOVER begins there; its frame k + 1 lies k + 1 periods after the edge, and so do the frames in
which a pause fades; TBU_HOLD of 1 ms. -/
theorem test_TimeCommands : let e := live fun b => { b.put TBU_REF_STAT_state 1 with tbu := { b.tbu with running := true, edgeT := some 0 } }
    let b := advanceTo 31250 e.blk
    let h := live fun b => { (b.put TBU_REF_STAT_state 2).put TBU_HOLD_ms 1 with
      tbu := { b.tbu with running := true, edgeT := some 0, holdK := 1, holdT := 31250 } }
    let c := advanceTo 41667 h.blk
    let q := live fun b => { b.put TBU_REF_STAT_state 3 with
      tbu := { b.tbu with edgeT := some 0, holdK := 1, drain := some 64 } }
    let f := advanceTo 41667 q.blk
    let x := live fun b => { (b.put TBU_REF_STAT_state 1).put TBU_TEMPO_CFG_src 1 with tbu := { b.tbu with running := true } }
    let o := live fun b => { (((b.put TBU_REF_STAT_state 1).put TBU_TEMPO_CFG_src 1).put TBU_TEMPO_CFG_tmo 8).setNum TBU_SAMPLE 3 with
      tbu := { b.tbu with running := true, rhoI := 2 ^ 60, delta := 2 ^ 61 } }
    e.live ∧ b.tbu.edgeT = some 0 ∧ b.get TBU_REF_STAT_state = 1 ∧ 3000000000 ≤ 2 * since 0 31250 * b.fs ∧
    h.live ∧ c.tbu.edgeT = some 0 ∧ c.get TBU_REF_STAT_state = 2 ∧ (c.tbu.holdK + 1) * (period c).1 ≤ since 0 41667 * (period c).2 ∧
    q.live ∧ f.tbu.edgeT = some 0 ∧ f.get TBU_REF_STAT_state = 3 ∧ f.tbu.drain.isSome ∧
    (f.tbu.holdK + 1) * (period f).1 ≤ since 0 41667 * (period f).2 ∧
    (advanceTo 1031250 h.blk).get TBU_REF_STAT_state = 2 ∧
    holdMsRef (advanceTo 1031250 h.blk) * 1000000 ≤ since (advanceTo 1031250 h.blk).tbu.holdT 1031250 ∧ (live id).grants 0 TBU_REF_CFG ∧
    x.live ∧ x.blk.get TBU_TEMPO_CFG_src = 1 ∧ phiOf x.blk 0 20833 = some 0 ∧
    o.live ∧ internalTempo o.blk = false ∧ o.blk.tbu.rhoI ≠ 0 ∧
    12 * o.blk.tbu.delta * 2 ^ 24 ≤ (o.blk.sample * 2 ^ 24 - o.blk.tbu.lastPhi) * 8 * o.blk.tbu.rhoI ∧
    (live id).grants 0 (TBU_CMP_CFG 15) := by
  delta State.live State.grants State.issues State.front State.presents State.serves State.bundles State.atIssue Block.quiet State.settled
  decide +kernel

/-- A GPIO binding whose level has lasted its debounce of 1 ms to the cycle. -/
theorem test_EntryCommands : let w := live fun b => { b with efe := { b.efe with waiting := [⟨4, some 0, [Ev.mk' 1 0 0 0 0], 0, false, 0⟩] } }
    let g := live fun b => { ((((b.put EFE_CTL_en 0x200).put (EFE_GPB_CFG_en 7) 1).put (EFE_GPB_CFG_debounce 7) 1).setNum
      (EFE_GPB_PRESS0 7) 0x400).setNum TBU_CYCLE 1000000 with efe := { b.efe with gpio := [(7, ⟨true, true, 0, 0, false⟩)] } }
    let b := advanceTo 1000000 g.blk
    let d := gpioOf b 7
    let e := templateEv (b.num (EFE_GPB_PRESS0 7)) (b.num (EFE_GPB_PRESS1 7))
    w.live ∧ w.blk.efe.waiting = ⟨4, some 0, [Ev.mk' 1 0 0 0 0], 0, false, 0⟩ :: [] ∧ 4 ≠ 9 ∧
    g.live ∧ d.timing = true ∧ b.on (EFE_GPB_CFG_en 7) ∧ d.t0 + b.get (EFE_GPB_CFG_debounce 7) * 1000000 ≤ 1000000 ∧ d.level ≠ d.stable ∧
    b.get LEG_CTL_en = 0 ∧ (d.level != b.on (EFE_GPB_CFG_invert 7)) = true ∧ e.op ≠ 0 ∧
    g.blk.sys.mpDown = false ∧ srcOn g.blk 9 ∧ g.blk.efe.mpWait = [] ∧ queueFill g.blk 9 < queueRoom 9 ∧ g.grants 0 (EFE_MPE 19) := by
  delta State.live State.grants State.issues State.front State.presents State.serves State.bundles State.atIssue Block.quiet State.settled
  decide +kernel

theorem test_MidiMessages : let s := live fun b => { (((b.put EFE_CTL_en 8).put TBU_TEMPO_CFG_midi 3).put (EFE_MIDI_CFG_asense 3) 1) with
      efe := { b.efe with sense := [(3, 1)] } }
    let p := live fun b => (b.put (EFE_BIND_en 0) 1)
    s.live ∧ srcOn s.blk 3 ∧ s.blk.get TBU_TEMPO_CFG_midi = 3 ∧ s.blk.on (EFE_MIDI_CFG_asense 3) ∧
    FMap.get (fun _ => 0) s.blk.efe.sense 3 = 0 + 1 ∧ 0 + 300000000 ≤ (300000000 : Long).toNat ∧ chanOf p.blk 0 0 = ⟨some 0, false⟩ := by
  delta State.live State.grants State.issues State.front State.presents State.serves State.bundles State.atIssue Block.quiet State.settled
  decide +kernel

theorem test_UmpMessages : let s := live fun b => { ((b.put EFE_CTL_en 0x80).put (EFE_SRC_CFG_fmt 7) 1).put (EFE_BIND_en 80) 1 with
      efe := { b.efe with jrClock := [(7, some ⟨0, 65535⟩)] } }
    let b := (umpTime 7 1 s.blk).2
    s.live ∧ umpOn s.blk UmpSrc.weft.num ∧ chanOf b (4 + 1) 0 = ⟨some 0, false⟩ ∧ (127 : Byte).toNat ≤ 127 ∧
    ((31 : BitVec 7).toNat * 128 + (0 : BitVec 7).toNat) * 128 + (0 : BitVec 7).toNat ≥ 4096 ∧
    ((0 : BitVec 7).toNat * 128 + (31 : BitVec 7).toNat) * 128 + (127 : BitVec 7).toNat < 4096 ∧
    umpOn (advanceTo 1 s.blk) UmpSrc.weft.num ∧ jrClockOf s.blk UmpSrc.weft.num = some ⟨0, 65535⟩ := by
  delta State.live State.grants State.issues State.front State.presents State.serves State.bundles State.atIssue Block.quiet State.settled
  decide +kernel

theorem test_DealerCommands : let n := live fun b => { b.put DLR_STAT_running 1 with tbu := { b.tbu with started := true } }
    let r : Card := { render with st := .ready }
    let d := live fun b => { (b.put (DLR_LANE_spare 31) 0).setNum TBU_CYCLE 1 with dlr := { b.dlr with cards := [r] } }
    let w := live fun b => { (b.put (DLR_LANE_spare 31) 0).setNum TBU_CYCLE 1 with dlr := { b.dlr with cards := [{ onBus with st := .ready }] } }
    let c := working { render with cancel := some 0 }
    let v := live fun b => b.setVoice 8191 { st := .sounding }
    n.live ∧ n.blk.on DLR_STAT_running ∧ n.blk.tbu.started = true ∧ n.blk.dlr.createdPick ≠ n.blk.pickNo + 1 ∧ d.live ∧
    selected (advanceTo 1 d.blk) 31 1 = false ∧ selection (advanceTo 1 d.blk) 31 1 = some (156, r) ∧ r.deck = 31 ∧
    w.live ∧ selected (advanceTo 1 w.blk) 24 1 = false ∧ selection (advanceTo 1 w.blk) 24 1 = some (120, { onBus with st := .ready }) ∧
    losesLoom (advanceTo 1 w.blk) 24 35 1 = false ∧
    c.live ∧ cardOf (advanceTo 1 c.blk) 159 = some { render with cancel := some 0 } ∧
    ({ render with cancel := some 0 } : Card).cancelled 1 ∧ shtState (advanceTo 1 c.blk) 159 = 1 ∧
    ((advanceTo 1 c.blk).shuttle 159).done = none ∧ permitted (advanceTo 1 c.blk) 159 ∧
    (live fun b => { b with dlr := { b.dlr with snap := some (0, [1]) } }).blk.dlr.snap = some (0, [1]) ∧
    v.live ∧ (v.blk.voice 8191).st ≠ .free ∧ (v.blk.voice 8191).copied = false := by
  delta State.live State.grants State.issues State.front State.presents State.serves State.bundles State.atIssue Block.quiet State.settled
  decide +kernel

theorem test_VoiceCommands : let p : Pooled := { ev := timed (Ev.mk' 1 0 0 0 0), nt := 1, nb := 0, left := [0], booked := [], booking := true }
    let s := live fun b => { b with alc := { b.alc with pooled := [p] } }
    let v := live fun b => b.setVoice 8191 { st := .sounding }
    let bulk : List Byte := [0xF0, 0x7E, 0x7F, 0x08, 0x01, 0x00] ++ List.replicate 401 0 ++ [0xF7]
    let q (m : List Byte) := live fun b => { b with sys := { b.sys with syx := [(0, m)] } }
    let o : State := { s with blk := { s.blk with alc := { s.blk.alc with parts := [(0, { mode := 1 })], notes := [(1, some aNote)], voices := [(0, { st := .sounding, note := 1 })] } } }
    s.live ∧ s.blk.alc.pooled.find? (·.booking) = some p ∧ monoBusy s.blk 0 = false ∧ busInService s.blk 3 255 = false ∧
    o.live ∧ o.blk.alc.pooled.find? (·.booking) = some p ∧ monoBusy o.blk 0 = true ∧ fetchedBefore v.blk 8191 = false ∧
    (live id).blk.quiet ∧ (live id).blk.sys.mpDown = false ∧
    v.live ∧ (v.blk.voice 8191).st ≠ .free ∧ windowsWait v.blk 8191 = false ∧
    (v.blk.voice 8191).winPick < max v.blk.pickNo (v.blk.voice 8191).startPick + 1 ∧
    (syxTake (q bulk).blk).any (fun x => match x.1 with | .bulk 0 _ => true | _ => false) ∧
    (syxTake (q [0xF0, 0x7F, 0x7F, 0x08, 0x02, 0x0F, 0x01, 0x3C, 0x3C, 0x40, 0x00, 0xF7]).blk).any
      (fun x => match x.1 with | .notes 15 _ true => true | _ => false) ∧
    (syxTake (q [0xF0, 0x7E, 0x7F, 0x08, 0x00, 0x0F, 0xF7]).blk).any (fun x => match x.1 with | .request 15 => true | _ => false) ∧
    (q bulk).blk.sys.syx = [(0, bulk)] ∧ (match mtsOf ((q bulk).blk.get SYS_CFG_dev_id) bulk with | .bulk 0 _ => true | _ => false) = true := by
  delta State.live State.grants State.issues State.front State.presents State.serves State.bundles State.atIssue Block.quiet State.settled
  decide +kernel

theorem test_ShuttleEvents : let x := live fun b => b.setShuttle 159 { xfers := [⟨true, 0, 0x00180000, 64, .clean⟩] }
    let t := live fun b => ((b.put (SHT_SSTAT_state 0) 1).put SEC_STAT_opn 1).setShuttle 0 { tapReq := true }
    let g := { t with blk := { t.blk with sec := { t.blk.sec with tap := 0x10 } } }
    let w (f : Shuttle → Shuttle) : State := { working render with blk := (working render).blk.setShuttle 159 (f ((working render).blk.shuttle 159)) }
    x.live ∧ (x.blk.shuttle 159).xfers = [⟨true, 0, 0x00180000, 64, .clean⟩] ∧
    shtState (working render).blk 158 = 2 ∧ ((working render).blk.shuttle 158).fence = 0 ∧ (working render).issues 159 ∧
    t.live ∧ (t.blk.shuttle 0).tapReq = true ∧ debugOpen t.blk ∧ shtState t.blk 0 = 1 ∧ (t.blk.shuttle 0).done = none ∧ permitted t.blk 0 ∧
    (t.blk.shuttle 0).fault = none ∧ (t.blk.shuttle 0).fencePending = false ∧
    (w fun h => { h with done := some true }).live ∧ ((w fun h => { h with done := some true }).blk.shuttle 159).done = some true ∧
    cardOf (w fun h => { h with done := some true }).blk 159 = some render ∧ render.type ≠ 4 ∧ render.cancel = none ∧
    ((dvBankFault 159 render (completeTo 159 0 8 (w fun h => { h with done := some true }).blk)).shuttle 159).fault = none ∧
    render.cancelled 0 = false ∧
    shtState (working render).blk 159 = 1 ∧ ((working render).blk.shuttle 159).fence = 0 ∧ ((working render).blk.shuttle 159).done = none ∧
    (w fun h => { h with fencePending := true }).live ∧ cardOf (w fun h => { h with fencePending := true }).blk 159 = some render ∧
    ((w fun h => { h with fencePending := true }).blk.shuttle 159).fencePending = true ∧
    ((w fun h => { h with fencePending := true }).blk.shuttle 159).fault = none ∧ permitted (w fun h => { h with fencePending := true }).blk 159 ∧
    (w fun h => { h with fault := some (5, 64) }).live ∧ cardOf (w fun h => { h with fault := some (5, 64) }).blk 159 = some render ∧
    ((w fun h => { h with fault := some (5, 64) }).blk.shuttle 159).fault = some (5, 64) ∧
    issuing (w fun h => { h with fault := some (5, 64) }).blk 159 ∧ permitted (w fun h => { h with fault := some (5, 64) }).blk 159 ∧
    g.live ∧ g.grants 0 SHT_TAP ∧ (0x19F : Word).getLsbD 8 = true ∧ (0x19F : Word).toNat % 256 < 160 ∧ debugOpen g.blk := by
  delta State.live State.grants State.issues State.front State.presents State.serves State.bundles State.atIssue Block.quiet State.settled
  decide +kernel

/-- A loom whose fade has ended, a lane whose cross-fade of 16 samples has, and CV channels that are off, driven, and due an update. -/
theorem test_OutputCommands : let f := live fun b => { b.setBit MIX_STAT_fading 3 with mix := { b.mix with off := [3] } }
    let c := live fun b => setLane 255 { xf := 16, xk := 4 } (b.put (stXfade (DCH_LSTAT 255)) 1)
    let i := live fun b => setInput 127 { xf := 16, xk := 4 } (b.put (stXfade (DCH_ISTAT 127)) 1)
    let r := live fun b => (b.put (SAP_CTL_en 7) 1).put (SAP_STAT_running 7) 1
    let w := live fun b => b.put (SAP_CTL_en 7) 1
    let v := live fun b => (b.put CVO_STAT_applied 1).put (CVO_CH_CFG_en 31) 1
    let u := live fun b => setCvChan 31 { due := true } b
    f.live ∧ f.grants 0 MIX_CTL ∧ f.blk.bit MIX_STAT_fading 3 ∧ 3 ∈ f.blk.mix.off ∧ f.grants 0 (DCH_LCFG 255) ∧ f.grants 0 (DCH_ICFG 127) ∧
    c.live ∧ c.blk.on (stXfade (DCH_LSTAT 255)) ∧ 2 ^ (laneOf c.blk 255).xk ≤ (laneOf c.blk 255).xf ∧
    r.live ∧ sapEnabled 7 0 (advanceTo 0 r.blk) ∧ (advanceTo 0 r.blk).on (SAP_STAT_running 7) ∧
    w.live ∧ sapEnabled 7 0 (advanceTo 0 w.blk) ∧ (advanceTo 0 w.blk).on (SAP_STAT_running 7) = false ∧
    sapEnabled 7 0 (advanceTo 0 (live id).blk) = false ∧ i.live ∧ i.blk.on (stXfade (DCH_ISTAT 127)) ∧
    2 ^ (inputOf i.blk 127).xk ≤ (inputOf i.blk 127).xf ∧
    (live id).blk.on CVO_STAT_applied = false ∧ (cvChan (live id).blk 31).entries = [] ∧
    v.live ∧ v.blk.on CVO_STAT_applied ∧ v.blk.on (CVO_CH_CFG_en 31) ∧ (cvChan v.blk 31).entries = [] ∧ cvClear v.blk = false ∧
    u.live ∧ (cvChan u.blk 31).due = true := by
  delta State.live State.grants State.issues State.front State.presents State.serves State.bundles State.atIssue Block.quiet State.settled
  decide +kernel

theorem test_BusCommands : let m := live fun b => b.put MEM_CFG_scrub_en 1
    let d := live fun b => { b with mm := { b.mm with dma := [(3, some ⟨0, 16, 16, false, false⟩)] } }
    let r := live fun b => b.setBit BMX_MSTAT_draining 11
    (live id).live ∧ Xact.bytes (.read 1) ≠ 0 ∧ (live id).blk.bit BMX_MSTAT_draining 10 = false ∧ (10 : Master).val ≠ 11 ∧
    7 ≤ (7 : Master).val ∧ (7 : Master).val ≤ 10 ∧ (6 : Master).val < 7 ∧ 10 < (11 : Master).val ∧
    (live id).grants 0 SYS_CTL ∧ (regAt SYS_CTL).isSome ∧ m.live ∧ m.blk.on MEM_CFG_scrub_en ∧
    (live id).grants 0 (BMX_DMA_CTL 3) ∧ (1 : Word).getLsbD 1 = false ∧
    d.live ∧ FMap.get (fun _ => none) d.blk.mm.dma 3 = some ⟨0, 16, 16, false, false⟩ ∧
    r.live ∧ r.blk.bit BMX_MSTAT_draining 11 ∧ (11 : Master).val ≠ 0 ∧ r.blk.mm.drainHeld = [] := by
  delta State.live State.grants State.issues State.front State.presents State.serves State.bundles State.atIssue Block.quiet State.settled
  decide +kernel

/-- The root of the ring, and a node of it. -/
def root : State := live fun b => { ((b.put WFT_STAT_root 1).put WFT_STAT_enum 1).put WFT_CFG_auto_unwrap 1 with
  wft := { b.wft with enumerating := true } }

theorem test_RingCommands : let n := live fun b => (b.put WFT_STAT_enum 1).put WFT_NODE_id 1
    let u := live fun b => b.put (WFT_PORT_STAT_state 1) 2
    let k := live fun b => b.put TBU_TEMPO_CFG_src 3
    let p := { root with blk := root.blk.setNum TBU_PICK 2 }
    let w := live fun b => { b with tbu := { b.tbu with sel := ⟨2, 0, 2⟩ } }
    let h : WHdr := ⟨0, 1, true, false, 2, true, false⟩
    root.live ∧ root.blk.get (WFT_PORT_STAT_state 0) ≠ 2 ∧ inRing root.blk ∧ u.live ∧ u.blk.get (WFT_PORT_STAT_state 1) = 2 ∧
    u.blk.on (WFT_PORT_STAT_wrap 1) = false ∧ h.crcOk = true ∧ onSecondary h n.blk = false ∧ 1 < h.ttl.toNat ∧
    root.grants 0 WFT_CTL ∧ isRoot root.blk ∧ root.blk.wft.enumerating = true ∧ root.blk.on WFT_CFG_auto_unwrap ∧
    isRoot p.blk ∧ inRing p.blk ∧ p.blk.tbu.firstPick + 2 ≤ p.blk.pickNo ∧
    n.live ∧ isRoot n.blk = false ∧ nodeId n.blk ≠ 0 ∧ nodeId n.blk < [((0 : Long), (0 : Half)), (1, 0)].length ∧
    k.live ∧ isRoot k.blk = false ∧ k.blk.get TBU_TEMPO_CFG_src = 3 ∧
    w.live ∧ isRoot (timeMarker 0 (advanceTo 1 w.blk)) = false ∧ (timeMarker 0 (advanceTo 1 w.blk)).on WFT_CFG_tref = false ∧
    (timeMarker 0 (advanceTo 1 w.blk)).tbu.sel.src = 2 := by
  delta State.live State.grants State.issues State.front State.presents State.serves State.bundles State.atIssue Block.quiet State.settled
  decide +kernel

theorem test_FrameCommands : let n := live fun b => (b.put WFT_STAT_enum 1).put WFT_NODE_id 1
    let h : WHdr := ⟨0, 1, false, false, 2, true, false⟩
    let bad : WHdr := ⟨0, 2, false, false, 2, false, false⟩
    let t := live fun b => { ((b.put WFT_STAT_enum 1).put WFT_NODE_id 1).put WFT_TUN_STAT_result 1 with wft := { b.wft with tunTag := 65535 } }
    let z := live fun b => ((b.put WFT_STAT_enum 1).put SYS_STAT_bootsel 4).put SYS_STAT_step 6
    n.live ∧ h.crcOk = true ∧ onSecondary h n.blk = false ∧ h.bcast = false ∧ inRing n.blk ∧ h.dst.val = nodeId n.blk ∧ isRoot n.blk = false ∧
    1 < h.ttl.toNat ∧ bad.crcOk = false ∧ endsHere bad n.blk = false ∧ 1 < bad.ttl.toNat ∧ bad.leg = false ∧ n.blk.wft.crcA < 3 ∧
    n.blk.quiet ∧ t.live ∧ t.blk.get WFT_TUN_STAT_result = 1 ∧ (65535 : Half).toNat = t.blk.wft.tunTag ∧ inRing t.blk ∧ nodeId t.blk = 1 ∧
    z.live ∧ weftBooting z.blk ∧ inRing z.blk ∧ nodeId z.blk = 0 ∧ root.live ∧ isRoot root.blk ∧ inRing root.blk ∧ nodeId root.blk = 0 ∧
    n.grants 0 WFT_TUN_CTL ∧ (0 : Word).getLsbD 12 = false ∧ (0 : Word).getLsbD 11 = false ∧ n.blk.get WFT_TUN_STAT_result ≠ 1 ∧
    (0 : Word).toNat % 1024 ≠ nodeId n.blk ∧ t.grants 0 WFT_TUN_CTL := by
  delta State.live State.grants State.issues State.front State.presents State.serves State.bundles State.atIssue Block.quiet State.settled
  decide +kernel

/-- A port buffer with room, one that is full with 64 events, and the time before pick 0. -/
theorem test_Dv32Writes : let s := live fun b => { (b.put LEG_CTL_en 8).put EFE_CTL_en 0x40 with tbu := { b.tbu with started := true } }
    let f := live fun b => { (b.put LEG_CTL_en 8).put EFE_CTL_en 0x40 with
      efe := { b.efe with waiting := List.replicate 64 ⟨6, some 0, [Ev.mk' 0 0 0 0 0], 0, false, 0⟩ } }
    queueFull s.blk 6 1 = false ∧ f.live ∧ dvOn f.blk 3 ∧ srcOn f.blk 6 ∧ queueFull f.blk 6 1 = true ∧ f.blk.tbu.started = false ∧
    s.live ∧ dvOn s.blk 3 ∧ dvTimedAddr 1 ∧ dvTimedAddr 0x15 ∧ dvTimedAddr 0x22 ∧ dvIgnoredAddr 0x16 ∧ dvIgnoredAddr 0x3E ∧
    s.blk.tbu.started = true ∧ srcOn s.blk 6 := by
  delta State.live State.grants State.issues State.front State.presents State.serves State.bundles State.atIssue Block.quiet State.settled
  decide +kernel

theorem test_HostCommands : let p : State := { State.reset with blk := { State.reset.blk with pwr := { State.reset.blk.pwr with powered := true } } }
    let d := live fun b => ((b.put DRC_STAT_trained 1).put DRC_CAP_units 1)
    let r (x : Nat) (test : Bool) : Release := ⟨(Fin.ofNat 16 x, 15, Fin.ofNat 16 x), [], some (4, true, 4), false, test, false⟩
    p.blk.quiet ∧ (r 2 true).testEn = true ∧ (r 2 false).testEn = false ∧ bootOf (r 2 false) = 2 ∧ bootOf (r 3 false) = 3 ∧
    (r 3 false).dram = some (4, true, 4) ∧ (r 3 false).trngBad = false ∧ d.blk.bit BMX_MSTAT_draining 2 = false ∧
    p.blk.sys.held = true ∧ p.blk.pwr.powered = true ∧ (live id).live ∧ (live id).grants 0 SYS_RST ∧
    (0xC1A50001 : Word).toNat / 65536 = 0xC1A5 ∧ (live id).grants 0 SYS_BOOT_LEN ∧ 0 < (0x20000000 : Word).toNat % 2 ^ 30 ∧
    (0x20000000 : Word).toNat % 2 ^ 30 ≤ 0x20000000 ∧ (live id).grants 0 SYS_KICK ∧ (0x03FFEFFC#26).toNat < 0x03FFF000 ∧
    d.live ∧ bar2Addr d.blk 0 256 = some 0x100000000 := by
  delta State.live State.grants State.issues State.front State.presents State.serves State.bundles State.atIssue Block.quiet State.settled
  decide +kernel

/-- A PATCH_APPLY container of one empty REGS section; its digest is SHA-256 of 16 zero bytes. -/
def container (b : Block) : Block :=
  let put (a n v : Nat) (m : List Host.Cell) := Memory.setNum m (mbCommandBase + 0x40 + a) n v
  { b with mem := put 0 4 0x4D49564C (put 4 2 0x100 (put 6 2 256 (put 8 4 0x150 (put 0xC 2 1 (put 0x10 4 0x100 (put 0x14 2 0x4096
      (put 0x100 2 0x16 (put 0x104 4 0x140 (put 0x108 4 16 (put 0x110 32 0xbb37ec28ab2a63253b7a31ecf73c6d6f28d26cd575c89e97d59d71f7ff084737 b.mem)))))))))) }

theorem test_MailboxAnswers : (∀ op ∈ [1, 2, 3, 0x10, 0x20, 0x21, 0x22, 0x30, 0x50, 0x51, 0x60, 0x61, 0x70, 65535],
      let s := mailing ⟨1, op, 131008, true, false⟩
      s.live ∧ s.blk.quiet ∧ s.serves op ⟨1, op, 131008, true, false⟩) ∧ mbKnown 65535 = false ∧
    (let s := mailing ⟨1, 0x40, 0x150, true, false⟩
     let p := { s with blk := container s.blk }
     p.live ∧ p.serves 0x40 ⟨1, 0x40, 0x150, true, false⟩ ∧ patchStatus (mbPayload p.blk 0 0x150) p.blk = 0) ∧
    (mailing ⟨1, 1, 0, true, true⟩).live ∧ (mailing ⟨1, 1, 0, true, true⟩).blk.sys.mb = some ⟨1, 1, 0, true, true⟩ ∧
    (mailing ⟨1, 1, 0, true, true⟩).blk.sys.mpDown = false ∧
    (live fun b => { b with sys := { b.sys with resetDue := true } }).blk.sys.resetDue = true := by
  delta State.live State.grants State.issues State.front State.presents State.serves State.bundles State.atIssue Block.quiet State.settled
  decide +kernel

/-- A claimed command with a payload, in a block that `f` leaves. -/
def asking (op len : Nat) (payload : List Byte) (f : Block → Block) : State :=
  live fun b => { f b with mem := Memory.setBytes b.mem 0x103C0040 payload, sys := { (f b).sys with mb := some ⟨1, op, len, true, false⟩ } }

/-- SAMPLE_LOAD of the last 8 bytes of DRAM. -/
theorem test_MailboxAnswers_sample : let pay := leBytes 8 0x1FFF8 ++ leBytes 4 0 ++ leBytes 4 8 ++ leBytes 8 0 ++ List.replicate 8 0x55
    let s := asking 0x10 0x20 pay fun b => (b.put DRC_CAP_units 2).put SYS_DRAM_FREE_units 1
    let arg (o n : Nat) : Nat := Memory.num s.blk.mem (0x103C0040 + o) n
    s.live ∧ s.blk.quiet ∧ s.serves 0x10 ⟨1, 0x10, 0x20, true, false⟩ ∧ arg 8 1 = 0 ∧
    (∀ r ∈ List.range 4, s.blk.on (DRC_PROT_BASE_en r) = false) ∧ s.blk.get SYS_DRAM_FREE_units * 65536 ≤ arg 0 8 ∧
    arg 0 8 + arg 0xC 4 ≤ dramSize s.blk ∧ 0x18 + arg 0xC 4 ≤ 0x20 := by
  delta State.live State.grants State.issues State.front State.presents State.serves State.bundles State.atIssue Block.quiet State.settled
  decide +kernel

/-- The last voice, part and harness, and the indices after them. -/
theorem test_MailboxAnswers_query : ∀ x ∈ [(0x20, 0, 8191), (0x21, 1, 63), (0x22, 2, 31)],
    let s := asking x.1 4 (leBytes 2 x.2.2) id
    let t := asking x.1 4 (leBytes 2 (x.2.2 + 1)) id
    s.live ∧ s.blk.quiet ∧ s.serves x.1 ⟨1, x.1, 4, true, false⟩ ∧ t.live ∧ t.blk.quiet ∧ t.serves x.1 ⟨1, x.1, 4, true, false⟩ ∧
    (queryAnswer s.blk x.2.1 (Memory.num s.blk.mem 0x103C0040 2)).isSome ∧ queryAnswer t.blk x.2.1 (Memory.num t.blk.mem 0x103C0040 2) = none := by
  delta State.live State.grants State.issues State.front State.presents State.serves State.bundles State.atIssue Block.quiet State.settled
  decide +kernel

/-- The end of the flash, and its last page. -/
theorem test_MailboxAnswers_flash : let f (b : Block) : Block := { b with sys := { b.sys with flashSize := 65536 } }
    let r := asking 0x50 8 (leBytes 4 64 ++ leBytes 4 65472) f
    let w := asking 0x51 4104 (leBytes 4 61440 ++ leBytes 4 4096) f
    let arg (s : State) (o : Nat) : Nat := Memory.num s.blk.mem (0x103C0040 + o) 4
    r.live ∧ r.blk.quiet ∧ r.serves 0x50 ⟨1, 0x50, 8, true, false⟩ ∧ r.blk.get SYS_STAT_bootsel ≤ 1 ∧ arg r 4 ≤ 65472 ∧
    arg r 0 + arg r 4 ≤ r.blk.sys.flashSize ∧
    w.live ∧ w.blk.quiet ∧ w.serves 0x51 ⟨1, 0x51, 4104, true, false⟩ ∧ w.blk.get SYS_STAT_bootsel ≤ 1 ∧ arg w 0 % 4096 = 0 ∧
    arg w 0 + arg w 4 ≤ w.blk.sys.flashSize ∧ 8 + arg w 4 ≤ 4104 ∧ arg w 4 ≤ 4096 ∧ 0 < arg w 4 := by
  delta State.live State.grants State.issues State.front State.presents State.serves State.bundles State.atIssue Block.quiet State.settled
  decide +kernel

/-- A challenge; and a password that matches, and one that does not, the last that is examined. -/
theorem test_MailboxAnswers_unlock : let c := asking 0x60 4 [1] fun b => b.put SEC_STAT_method 1
    let u (w : Byte) := asking 0x61 36 ([7, 0, 0, 0] ++ List.replicate 16 w ++ List.replicate 16 0) fun b =>
      { b.put SEC_STAT_method 2 with sec := { b.sec with fails := 15 } }
    let given (s : State) : List Byte := (List.range 32).map fun i => Memory.byte s.blk.mem (0x103C0044 + i)
    let word (s : State) : List Byte := (s.blk.sec.fuses.password ++ List.replicate 16 0).take 16 ++ List.replicate 16 0
    c.live ∧ c.blk.quiet ∧ c.serves 0x60 ⟨1, 0x60, 4, true, false⟩ ∧ c.blk.get SEC_STAT_method ≠ 0 ∧ ¬ c.blk.on SEC_STAT_trng_fail ∧
    (∀ w ∈ [0, 1], (u w).live ∧ (u w).blk.quiet ∧ (u w).serves 0x61 ⟨1, 0x61, 36, true, false⟩ ∧ (u w).blk.get SEC_STAT_method = 2 ∧
      (u w).blk.sec.lockout = false ∧ (u w).blk.sec.fails < 16) ∧
    (given (u 0) == word (u 0)) = true ∧ (given (u 1) == word (u 1)) = false := by
  delta State.live State.grants State.issues State.front State.presents State.serves State.bundles State.atIssue Block.quiet State.settled
  decide +kernel

theorem test_PowerCommands : let p (f : Pwr → Pwr) : State := { State.reset with blk := { State.reset.blk with pwr := f State.reset.blk.pwr } }
    let h (l : List Hold) : State := live fun b => { b with tbu := { b.tbu with holds := l } }
    let ph : State := live fun b => b.put PWR_STAT_phase_ok 7
    let r : State := live fun b => { b.put PWR_STAT_rail_ok 0x3F with
      pwr := { b.pwr with good := some 0 }, tbu := { b.tbu with holds := [.brownOut] } }
    let b := advanceTo 1000000 ({ r with blk := (r.blk.setNum TBU_CYCLE 1000000).put PWR_HOLD_ms 1 } : State).blk
    let t : State := live fun b => { (b.put THM_STAT_critical 1).put THM_LIM_t3_auto 1 with pwr := { b.pwr with cool := 1000 } }
    (p fun x => { x with overVolt := true }).blk.pwr.overVolt = true ∧ (p id).blk.sys.held = true ∧
    (p fun x => { x with retry := true }).blk.pwr.retry = true ∧ ph.blk.bit PWR_STAT_phase_ok 2 = true ∧
    2 ≤ phasesOk (ph.blk.clrBit PWR_STAT_phase_ok 2) ∧ Hold.brownOut ∈ (h [.brownOut]).blk.tbu.holds ∧
    (p fun x => { x with shut := true }).blk.pwr.shut = true ∧ (p fun x => { x with shut := true }).blk.pwr.pfw = false ∧
    (live id).live ∧ (advanceTo 0 (live fun b => b.put SYS_STAT_step 9).blk).pwr.pfw = false ∧
    (advanceTo 0 (live fun b => b.put SYS_STAT_step 9).blk).get SYS_STAT_step < 10 ∧
    (advanceTo 0 (live fun b => { b with pwr := { b.pwr with pfw := true } }).blk).pwr.pfw = true ∧
    b.sys.held = false ∧ b.pwr.good = some 0 ∧ Hold.brownOut ∈ b.tbu.holds ∧ 0 + 1000000 ≤ 1000000 ∧
    1000000 ≤ b.pwr.boT + holdMs b * 1000000 ∧ b.get PWR_STAT_rail_ok = 0x3F ∧
    (live fun b => b.put TBU_REF_STAT_state 1).blk.get TBU_REF_STAT_state = 1 ∧
    t.live ∧ t.blk.on THM_STAT_critical ∧ t.blk.on THM_LIM_t3_auto ∧ 1000 ≤ t.blk.pwr.cool ∧ t.blk.tbu.holds.contains .safe = false ∧
    Hold.safe ∈ (live fun b => { b.put REL_CFG_auto_reset 1 with tbu := { b.tbu with holds := [.safe] } }).blk.tbu.holds ∧
    (live fun b => { b.put REL_CFG_auto_reset 1 with tbu := { b.tbu with holds := [.safe] } }).blk.on REL_CFG_auto_reset ∧
    (live id).grants 0 SEC_UNLK ∧ (0x100 : Word).getLsbD 8 = true ∧ (0x100 : Word).getLsbD 9 = false := by
  delta State.live State.grants State.issues State.front State.presents State.serves State.bundles State.atIssue Block.quiet State.settled
  decide +kernel

/-! ### Single operations and steps, with the results that the spec states -/

/-- Min-center-max scaling of 7-bit values (R69): 0, the centre and the maximum map to 0, the centre and the maximum. -/
theorem test_scaling : scaleUp 7 16 0 = 0 ∧ scaleUp 7 16 64 = 0x8000 ∧ scaleUp 7 16 127 = 0xFFFF ∧ scaleUp 14 16 0x2000 = 0x8000 ∧
    scaleUp 14 16 0x3FFF = 0xFFFF := by decide

/-- R245 at the limits: saturation, the overflow of SUB, ASR by 32 or more, ABS of the lowest number. -/
theorem test_alu_limits : (aluOut .adds 0x7FFFFFFF 1).val = 0x7FFFFFFF ∧ (aluOut .subs 0x80000000 1).val = 0x80000000 ∧
    (aluOut .sub 0 1).flags.testBit 2 = false ∧ (aluOut .sub 1 1).flags.testBit 2 = true ∧ (aluOut .asr 0x80000000 40).val = 0xFFFFFFFF ∧
    (aluOut .abs 0x80000000 0).val = 0x7FFFFFFF ∧ (aluOut .mul16 0x8000 0x8000).val = 0x40000000 := by decide

/-- The block after a command at the live state `s`. -/
def after (c : Instr) (s : State) : Block :=
  match exec c s with
  | .next t => t.blk
  | .fault _ => s.blk
  | .refused _ => s.blk

/-- R35, R9: 0 BPM is taken as 20 BPM (0x14.0000), a tempo above 400 as 400, and a negative one as 20. -/
theorem test_tempo_clamps : (after (.registerWrite 0 (BitVec.ofNat 40 TBU_TEMPO) 0 0) (live id)).num TBU_TEMPO = 0x140000 ∧
    (after (.registerWrite 0 (BitVec.ofNat 40 TBU_TEMPO) 0x7FFFFFFF 0) (live id)).num TBU_TEMPO = 0x1900000 ∧
    (after (.registerWrite 0 (BitVec.ofNat 40 TBU_TEMPO) 0xFFFFFFFF 0) (live id)).num TBU_TEMPO = 0x140000 := by decide +kernel

/-- R79: the 17th tag is lost and counted. -/
theorem test_marks_overflow : let s := { presenting 0x11 with blk := { (presenting 0x11).blk with
      efe := { (presenting 0x11).blk.efe with marks := List.replicate 16 0 } } }
    (after .mark s).get EFE_MARK_STAT_ovf = 1 ∧ (after .mark s).efe.marks.length = 16 ∧ (after .mark (presenting 0x11)).efe.marks = [0x140000] := by
  decide +kernel

/-- R254: a bundle with a reserved field is illegal; the fault names cause 5 and the bundle. -/
theorem test_illegal_bundle : ((after (.rte 159) (working render)).shuttle 159).fault = some (5, 64) := by decide +kernel

/-- R148, R405: a tuning request to the firmware waits with its source. -/
theorem test_sysex_waits : (after (.midiSystemExclusive 3 [0xF0, 0x7E, 0x7F, 0x08, 0x00, 0x0F, 0xF7] 0) (live fun b => b.put EFE_CTL_en 8)).sys.syx =
    [(3, [0xF0, 0x7E, 0x7F, 0x08, 0x00, 0x0F, 0xF7])] := by decide +kernel


/-- R188: code 65,535 is 60 s, and code 1 is 10 µs, which is less than one sample at 96 kHz. -/
theorem test_time_codes : timeLen 96000 65535 0 = 5760000 ∧ timeLen 96000 1 0 = 1 ∧ timeLen 96000 0 0 = 1 := by decide +kernel

/-- A parameter block whose envelope 0 has one straight segment of 16 internal samples at 96 kHz, to 0x4000, and no sustain. -/
def envBlock : List Byte :=
  setAt (setAt (setAt (setAt (setAt (List.replicate 1024 0) 0x200 1) 0x201 0xFF) 0x211 0x40) 0x212 0x26) 0x213 0x2E

/-- R189, R190: the segment is half way after 8 samples, and after 16 it is complete and holds its level. -/
theorem test_envelope : let x : VCtx := { blk := envBlock, key := 60, vel := 32768, sr := 96000, tempo := 0x780000 }
    let a := (envFirst x 0).block x 0 false 0 8
    let b := a.block x 0 false 0 8
    a.v = 536870912 ∧ a.done = false ∧ b.v = 1073741824 ∧ b.done = true := by decide +kernel

/-- R166: one step of the generator from 1, by hand. -/
theorem test_xorshift : xorshift 1 = 270369 := by decide

/-- R153: half way between 0 and 16 with equal neighbours, (−a + 9b + 9c − d) / 16 = 8. -/
theorem test_cubic : catmull 0 0 16 16 2147483648 = 8 := by decide +kernel

/-- R177: in the middle the linear law gives a half on each side, and balance gives one. -/
theorem test_pan : panGains 1 0 = (1073741824, 1073741824) ∧ panGains 2 0 = (2147483648, 2147483648) := by decide +kernel

end Sys2Proof.Tests
end

namespace Sys2Proof.Machine

/-! ### What the commands of the time base need beside the laws above (chapter 02) -/

theorem Block.on_eq (b : Block) (f : Fld) : b.on f = (b.get f != 0) := rfl

/-- A presented event whose frame has come is taken, and the rest of the list stays. -/
theorem takePresented_of_presents {s : State} {op : Nat} {x : Timed} {rest : List Timed} (h : s.presents op x rest) :
    takePresented op s.blk = some (x, s.blk.presented rest) := by
  obtain ⟨hlist, hop, hframe⟩ := h
  unfold takePresented
  rw [hlist]
  exact if_pos ⟨hop, hframe⟩

/-- A command that runs has the effect `g` where its own effect agrees with `g` on the block. -/
theorem run_live_congr {s : State} {f g : Block → Block} (h : s.live) (hfg : f s.blk = g s.blk) : s.run f = .next (s.on g) := by
  rw [run_live h, on_congr hfg]

/-- A write of the high word of a 64-bit register commits it with the staged low word (R7). -/
theorem writeReg_pair {m a : Nat} {v hw : Word} {b : Block} {h : RegHit} (hm : accessMade m a b = true) (ha : inBlock a = true)
    (ht : a ≠ WFT_TUN_CTL) (hh : regAt a = some h) (hwide : h.desc.wide = true) (hhigh : h.high = true) :
    writeReg m a v hw b = wrote m (writePair h (Long.mk v (wrShadow b m))) b := by
  rw [writeReg_eq hm ha ht]
  unfold wrote regWrite
  rw [hh]
  simp only [hwide, hhigh, if_true]

/-! ### The tempo (R34, R35) -/

theorem tempoReg_has_no_w1c : ∀ r ∈ regAt TBU_TEMPO, r.desc.w1c = 0 := by decide

/-- A register write of TBU_TEMPO that is made has the effect of R35, whatever hardware sets in the same cycle. -/
theorem writeReg_tempo {m : Nat} {v hw : Word} {b : Block} (hm : accessMade m TBU_TEMPO b = true) :
    writeReg m TBU_TEMPO v hw b = wrote m (writeTempo v) b := by
  have hidle : ∀ r, regAt TBU_TEMPO = some r → hw.toNat &&& r.desc.w1c = 0 := fun r hr => by
    rw [tempoReg_has_no_w1c r hr, Nat.and_zero]
  exact writeReg_of_single (by decide) hm hidle rfl

/-- R35's limits in Q16.16: 20 BPM is 0x14.0000 and 400 BPM 0x190.0000. -/
theorem clampTempo_eq (v : Word) : clampTempo v = (min (max v.toInt 0x140000) 0x1900000).toNat := rfl

theorem writeTempo_eq (v : Word) (b : Block) :
    writeTempo v b = b.setNum TBU_TEMPO (min (max v.toInt 0x140000) 0x1900000).toNat := by
  rw [writeTempo, clampTempo_eq]

theorem tempoEvent_of_presents {s : State} {x : Timed} {rest : List Timed} (h : s.presents 0x0E x rest) :
    tempoEvent s.blk = writeTempo x.ev.data (s.blk.presented rest) := by
  rw [tempoEvent, takePresented_of_presents h]

theorem transportEvent_of_presents {s : State} {x : Timed} {rest : List Timed} (h : s.presents 0x10 x rest) :
    transportEvent s.blk = (s.blk.presented rest).put TBU_TEMPO_CFG_run (x.ev.data.toNat % 2) := by
  rw [transportEvent, takePresented_of_presents h]

/-- The internal tempo is source 0; with run = 0 it advances BEAT_POS by nothing (R34, R35). -/
theorem beatRate_internal_stopped {b : Block} (hsrc : b.get TBU_TEMPO_CFG_src = 0) (hrun : b.get TBU_TEMPO_CFG_run = 0) :
    beatRate b = 0 := by
  have hint : internalTempo b = true := by simp [internalTempo, hsrc]
  have hoff : b.on TBU_TEMPO_CFG_run = false := by simp [Block.on_eq, hrun]
  simp [beatRate, hint, hoff]

/-- Settles O17: the register and the event both go through `writeTempo`, whose value is clamped; the front presented TRANSPORT is taken;
and the internal tempo's rate is 0 while it is stopped. -/
theorem tempoClamped : Obligations.TempoClamped := by
  unfold Obligations.TempoClamped
  refine ⟨fun m v hw s hlive hgrants => ?register, fun s x rest hlive hx => ?tempo, fun s x rest hlive hx => ?transport, fun b => ?stopped⟩
  case register => exact run_live_congr hlive ((writeReg_tempo hgrants).trans (congrArg (setResp m.val {}) (writeTempo_eq v s.blk)))
  case tempo => exact run_live_congr hlive ((tempoEvent_of_presents hx).trans (writeTempo_eq x.ev.data _))
  case transport => exact run_live_congr hlive (transportEvent_of_presents hx)
  case stopped => exact beatRate_internal_stopped

/-! ### The compares (R43, R44) -/

/-- The register table's entry for TBU_CMPn_VAL. -/
def compareValReg : RegDesc := ⟨0x40100108, 0x10, 16, true, 0x0, 0xffffffffffffffff, 0x0, 0x0, 0x0, 0x0, 0x0, 0x0⟩

/-- Where the high word of TBU_CMPn_VAL falls in the register table. -/
def compareValHigh (n : Nat) : RegHit := ⟨compareValReg, n, true⟩

theorem regAt_compareValHigh : ∀ n : Fin 16, regAt (TBU_CMP_VAL n.val + 4) = some (compareValHigh n.val) := by decide

theorem inBlock_compareValHigh : ∀ n : Fin 16, inBlock (TBU_CMP_VAL n.val + 4) = true := by decide

theorem elemOf_compareVal : ∀ n : Fin 16, elemOf (compareValHigh n.val).key (TBU_CMP_VAL 0) 0x10 16 = some n.val := by decide

/-- A commit of TBU_CMPn_VAL arms compare `n` (R43). -/
theorem writePair_compareVal (n : Fin 16) (x : Long) (b : Block) :
    writePair (compareValHigh n.val) x b = Machine.compareArm n.val x b := by
  rw [writePair, elemOf_compareVal n]

theorem writeReg_compareVal {m : Nat} {n : Fin 16} {v hw : Word} {b : Block} (hm : accessMade m (TBU_CMP_VAL n.val + 4) b = true) :
    writeReg m (TBU_CMP_VAL n.val + 4) v hw b = wrote m (Machine.compareArm n.val (Long.mk v (wrShadow b m))) b := by
  have htun : TBU_CMP_VAL n.val + 4 ≠ WFT_TUN_CTL := by
    unfold TBU_CMP_VAL WFT_TUN_CTL
    omega
  rw [writeReg_pair hm (inBlock_compareValHigh n) htun (regAt_compareValHigh n) rfl rfl]
  exact congrArg (setResp m {}) (writePair_compareVal n _ b)

/-- Settles O19: the write of the high word commits the value, which arms the unit; firing is the model's own `compareFire`. -/
theorem compareUnits : Obligations.CompareUnits := by
  unfold Obligations.CompareUnits
  refine ⟨fun m n v s hlive hgrants => ?arm, fun n s hlive => ?fire⟩
  case arm => exact run_live_congr hlive (writeReg_compareVal hgrants)
  case fire => exact run_live hlive _

end Sys2Proof.Machine

namespace Sys2Proof.Machine

/-! ### What the commands of the released events need beside the laws above (chapters 03 and 05) -/

/-- A released event in front, of the opcode asked for, is taken, and the rest of the list stays. -/
theorem takeReleased_of_front {s : State} {op : Nat} {x : Timed} {rest : List Timed} (h : s.front op x rest) :
    takeReleased op s.blk = some (x, s.blk.popped rest) := by
  obtain ⟨hlist, hop⟩ := h
  unfold takeReleased
  rw [hlist]
  exact if_pos hop

/-- The command of the front released event's opcode gives the event its effect. -/
theorem onReleased_of_front {s : State} {op : Nat} {x : Timed} {rest : List Timed} (h : s.front op x rest) (f : Timed → Block → Block) :
    onReleased op f s.blk = f x (s.blk.popped rest) := by
  rw [onReleased, takeReleased_of_front h]

/-- Such a command, in an engine that runs, is the event's effect on the block without the event. -/
theorem run_onReleased {s : State} {op : Nat} {x : Timed} {rest : List Timed} (hlive : s.live) (h : s.front op x rest)
    (f : Timed → Block → Block) : s.run (onReleased op f) = .next (s.on fun b => f x (b.popped rest)) :=
  run_live_congr hlive (onReleased_of_front h f)

/-! ### Parts, voices and notes after a change of a part -/

section
variable (b : Block) (p : Nat) (x : Part)

@[simp] theorem Block.part_setPart_same : (b.setPart p x).part p = x := FMap.get_set_same _ _ _ _

theorem Block.part_setPart_ne {q : Nat} (h : q ≠ p) : (b.setPart p x).part q = b.part q := FMap.get_set_ne _ _ _ h

@[simp] theorem Block.voice_setPart (v : Nat) : (b.setPart p x).voice v = b.voice v := rfl

@[simp] theorem Block.notes_setPart : (b.setPart p x).alc.notes = b.alc.notes := rfl

end

section
variable (n : Nat) {b : Block} (h : b.quiet)
include h

theorem finish_part (p : Nat) : (finish n b).part p = b.part p := by
  unfold Block.part
  rw [finish_alc n h]

theorem finish_voice (v : Nat) : (finish n b).voice v = b.voice v := by
  unfold Block.voice
  rw [finish_alc n h]

end

/-! ### PROGRAM (R116) -/

/-- A PROGRAM event asks for no reset and no boot, so that nothing is performed after it. -/
theorem program_quiet {b : Block} (x : Timed) (rest : List Timed) (h : b.quiet) : (program x (b.popped rest)).quiet := h

/-- Settles O26: the command is `program` on the block without the event, which sets one part; what follows the command changes CVO_STAT
alone of what the statement names. -/
theorem programChangesPart : Obligations.ProgramChangesPart := by
  unfold Obligations.ProgramChangesPart
  intro s x rest hlive hfront hquiet
  have hq := program_quiet x rest hquiet
  have hpart : (finish 0 (program x (s.blk.popped rest))).part x.ev.part = { s.blk.part x.ev.part with program := x.ev.bits 11 0 } :=
    (finish_part 0 hq _).trans (Block.part_setPart_same _ _ _)
  refine ⟨_, run_onReleased hlive hfront program, congrArg Part.program hpart, hpart, fun p hp => ?parts, fun v => ?voices, ?notes,
    ?released, finish_mem 0 hq, fun a ha => ?registers⟩
  case parts => exact (finish_part 0 hq p).trans (Block.part_setPart_ne _ _ _ hp)
  case voices => exact (finish_voice 0 hq v).trans (Block.voice_setPart _ _ _ v)
  case notes => exact (congrArg Alloc.notes (finish_alc 0 hq)).trans (Block.notes_setPart _ _ _)
  case released => exact congrArg Efe.released (finish_efe 0 hq)
  case registers => exact finish_rd 0 hq ha

end Sys2Proof.Machine

namespace Sys2Proof.Machine

/-- Two choices agree where their conditions do. -/
theorem ite_of_iff {α : Sort _} {p q : Prop} [Decidable p] [Decidable q] {x y u v : α} (h : p ↔ q) (hx : x = u) (hy : y = v) :
    (if p then x else y) = if q then u else v := by
  by_cases hp : p
  · rw [if_pos hp, if_pos (h.mp hp), hx]
  · rw [if_neg hp, if_neg fun hq => hp (h.mpr hq), hy]


/-! ### What a command can answer -/

/-- Every command is one effect on the block: one of the power die, the TAP, the lockout and the resets has it in reset too, any other
only where the compute die runs. -/
theorem exec_form (c : Instr) :
    (actsInReset c = true ∧ ∃ f, ∀ s, exec c s = s.ok f) ∨ (actsInReset c = false ∧ ∃ f, ∀ s, exec c s = s.run f) := by
  cases c
  case powerOn | rstN | computeResetRelease | uvloFall | overVoltage | overVoltageRelease | railStartTimeout | railRetry | currentLimit
    | phaseFailure | brownOut | vinGood | brownOutRecovery | brownOutShutdown | brownOutRepower | thermalSample | lockoutEnd
    | jtagInstructionLoad | trstN => exact .inl ⟨rfl, _, fun _ => rfl⟩
  case midiNoteOff n ch key vel zero t =>
    cases zero
    · exact .inr ⟨rfl, _, fun _ => rfl⟩
    · exact .inr ⟨rfl, _, fun _ => rfl⟩
  all_goals exact .inr ⟨rfl, _, fun _ => rfl⟩

/-- A command answers the state itself or that of an effect on its block and what follows it. -/
theorem exec_answer (c : Instr) (s : State) : exec c s = .next s ∨ ∃ f, exec c s = .next (s.on f) := by
  rcases exec_form c with ⟨_, f, h⟩ | ⟨_, f, h⟩
  · exact .inr ⟨f, h s⟩
  · rcases run_form s f with hr | hr
    · exact .inl ((h s).trans hr)
    · exact .inr ⟨f, (h s).trans hr⟩

/-- Settles O3: a command answers the state itself or `s.on f`, and neither touches the queue. -/
theorem everyCommandAnswers : Obligations.EveryCommandAnswers := by
  unfold Obligations.EveryCommandAnswers
  intro c s
  rcases exec_answer c s with h | ⟨f, h⟩
  · exact ⟨s, h, rfl⟩
  · exact ⟨s.on f, h, on_pending s f⟩

/-- Settles O4: a command that does not act in reset is a `run`, which answers the state itself where the die is held. -/
theorem heldTakesNothing : Obligations.HeldTakesNothing := by
  unfold Obligations.HeldTakesNothing
  intro c s hheld hc
  rcases exec_form c with ⟨hacts, _⟩ | ⟨_, f, h⟩
  · exact absurd (hacts.symm.trans hc) (by decide)
  · exact (h s).trans (run_held (eq_true_of_ne_false hheld) f)

/-- The cycle of an empty queue is the state itself in reset, and else an effect and what follows it. -/
theorem cycle_form (s : State) : s.cycle = s ∨ ∃ f, s.cycle = s.on f := by
  unfold State.cycle
  split
  · exact .inl rfl
  · exact .inr ⟨_, rfl⟩

/-- Being settled is about the block alone. -/
theorem State.settled_of_blk {s t : State} (h : s.settled) (hb : t.blk = s.blk) : t.settled := by
  unfold State.settled at *
  rwa [hb]

/-- Settles O5: a step keeps the state, but for the queue, or ends in `finish`, which leaves any state settled. -/
theorem settledKept : Obligations.SettledKept := by
  unfold Obligations.SettledKept
  intro s t hs hstep
  unfold step at hstep
  split at hstep
  · obtain rfl : s.cycle = t := Host.Outcome.next.inj hstep
    rcases cycle_form s with h | ⟨f, h⟩
    · rwa [h]
    · rw [h]
      exact on_settled s f
  · rename_i c rest _
    rcases exec_answer c { s with pending := rest } with h | ⟨f, h⟩
    · obtain rfl := Host.Outcome.next.inj (h.symm.trans hstep)
      exact State.settled_of_blk hs rfl
    · obtain rfl := Host.Outcome.next.inj (h.symm.trans hstep)
      exact on_settled _ f

/-- Settles O1: the step's second case. -/
theorem stepTakesFront : Obligations.StepTakesFront := by
  unfold Obligations.StepTakesFront
  intro c rest s
  rfl

/-- Settles O2: with nothing waiting a step is the model's `cycle`, which asks whether the die is held. -/
theorem idleIsOneCycle : Obligations.IdleIsOneCycle := by
  unfold Obligations.IdleIsOneCycle
  intro s hidle
  have hstep : step s = .next s.cycle := by
    unfold step
    rw [hidle]
  rw [hstep]
  unfold State.cycle
  refine ⟨fun hlive => ?live, fun hheld => ?held⟩
  case live => rw [if_neg (by rw [hlive]; exact Bool.false_ne_true)]
  case held => rw [if_pos (eq_true_of_ne_false hheld)]

/-- Settles O6: in reset no picks are held, no group of vectors is raised, and the memory and the queue are empty. -/
theorem settledAtReset : Obligations.SettledAtReset := by
  unfold Obligations.SettledAtReset
  exact ⟨⟨⟨rfl, rfl, rfl⟩, rfl, rfl⟩, Memory.wf_nil, rfl⟩

/-- Settles O7: `finish_form` says all that follows an effect that asks for nothing. -/
theorem followsACommand : Obligations.FollowsACommand := by
  unfold Obligations.FollowsACommand
  intro s f hq
  obtain ⟨p, x, hform⟩ := finish_form 0 hq
  have happlied := Block.get_put_apart (f s.blk) (f := CVO_STAT_safe) (g := CVO_STAT_applied)
    (if (f s.blk).tbu.holds.isEmpty then 0 else 1) rfl rfl rfl rfl
  have hpin := Block.get_put_apart (f s.blk) (f := CVO_STAT_safe) (g := CVO_STAT_clr_pin)
    (if (f s.blk).tbu.holds.isEmpty then 0 else 1) rfl rfl rfl rfl
  have hblk : (s.on f).blk = finish 0 (f s.blk) := rfl
  refine ⟨rfl, finish_mem 0 hq, fun a ha => finish_rd 0 hq ha, ?_, ?_, ?_, ?_⟩
  · rw [hblk, hform]; exact happlied
  · rw [hblk, hform]; exact hpin
  · rw [hblk, hform]
  · rw [hblk, hform]

end Sys2Proof.Machine

namespace Sys2Proof.Machine

/-! ### The fields of a word that is put together from its fields (chapter 09) -/

theorem getLsbD_append_high {n m i : Nat} {x : BitVec n} {y : BitVec m} (h : m ≤ i) : (x ++ y).getLsbD i = x.getLsbD (i - m) := by
  rw [BitVec.getLsbD_append, if_neg (Nat.not_lt.mpr h)]

theorem getLsbD_append_low {n m i : Nat} {x : BitVec n} {y : BitVec m} (h : i < m) : (x ++ y).getLsbD i = y.getLsbD i := by
  rw [BitVec.getLsbD_append, if_pos h]

theorem getLsbD_bit1 (b : Bool) : (bit1 b).getLsbD 0 = b := by cases b <;> rfl

theorem decodeFmtA_append (op : BitVec 5) (f : FmtA) : decodeFmtA (op ++ encodeFmtA f) = f := by
  simp (disch := decide) only [decodeFmtA, encodeFmtA, BitVec.extractLsb'_append_eq_of_le, BitVec.extractLsb'_append_eq_of_add_le,
    getLsbD_append_high, getLsbD_append_low, Nat.reduceSub, BitVec.extractLsb'_eq_self, getLsbD_bit1]

theorem shaperOf_shaperCode (fn : ShpFn) : shaperOf (shaperCode fn) = fn := by cases fn <;> rfl

theorem fieldsAlu_code (fn : AluFn) (d a b : BitVec 5) : fieldsAlu (AluFn.code fn).toNat d a b = .alu fn d a b := by cases fn <;> rfl

theorem fieldsM_encodeM (op : MOp) : fieldsM (encodeM op) = unmarked op := by
  cases op with
  | nop => rfl
  | load k f e =>
    cases k <;> simp (disch := decide) only [fieldsM, encodeM, unmarked, Load.code, decodeFmtA_append, BitVec.extractLsb'_append_eq_of_le,
      Nat.reduceSub, BitVec.extractLsb'_eq_self, BitVec.reduceToNat]
  | store k f e =>
    cases k <;> simp (disch := decide) only [fieldsM, encodeM, unmarked, StoreKind.code, decodeFmtA_append,
      BitVec.extractLsb'_append_eq_of_le, Nat.reduceSub, BitVec.extractLsb'_eq_self, BitVec.reduceToNat]
  | _ =>
    simp (disch := decide) only [fieldsM, encodeM, unmarked, BitVec.extractLsb'_append_eq_of_le, BitVec.extractLsb'_append_eq_of_add_le,
      getLsbD_append_high, getLsbD_append_low, Nat.reduceSub, BitVec.extractLsb'_eq_self, getLsbD_bit1, BitVec.reduceToNat]

theorem fieldsX_encodeX (op : XOp) : fieldsX (encodeX op) = op := by
  cases op with
  | nop => rfl
  | _ =>
    simp (disch := decide) only [fieldsX, encodeX, BitVec.extractLsb'_append_eq_of_le, BitVec.extractLsb'_append_eq_of_add_le,
      getLsbD_append_high, getLsbD_append_low, Nat.reduceSub, BitVec.extractLsb'_eq_self, getLsbD_bit1, BitVec.reduceToNat]

theorem fieldsC_encodeC (op : COp) : fieldsC (encodeC op) = op := by
  cases op with
  | nop => rfl
  | alu =>
    simp (disch := decide) only [fieldsC, encodeC, BitVec.extractLsb'_append_eq_of_le, BitVec.extractLsb'_append_eq_of_add_le,
      Nat.reduceSub, BitVec.extractLsb'_eq_self, BitVec.reduceToNat, fieldsAlu_code]
  | _ =>
    simp (disch := decide) only [fieldsC, encodeC, encodeImm, BitVec.extractLsb'_append_eq_of_le, BitVec.extractLsb'_append_eq_of_add_le,
      getLsbD_append_high, getLsbD_append_low, Nat.reduceSub, BitVec.extractLsb'_eq_self, getLsbD_bit1, BitVec.reduceToNat,
      shaperOf_shaperCode, fieldsAlu]

/-! ### Decode of encode -/

/-- What the ECC check will find is no part of an instruction's legality. -/
theorem unmarked_ok (op : MOp) : (unmarked op).ok = op.ok := by cases op <;> rfl

/-- What the ECC check will find is no part of an instruction's word. -/
theorem encodeM_unmarked (op : MOp) : encodeM (unmarked op) = encodeM op := by cases op <;> rfl

theorem decodeM_encodeM {op : MOp} (h : op.ok) : decodeM (encodeM op) = some (unmarked op) := by
  unfold decodeM
  rw [fieldsM_encodeM]
  exact if_pos ⟨(unmarked_ok op).trans h, encodeM_unmarked op⟩

theorem decodeX_encodeX {op : XOp} (h : op.ok) : decodeX (encodeX op) = some op := by
  unfold decodeX
  rw [fieldsX_encodeX]
  exact if_pos ⟨h, rfl⟩

theorem decodeC_encodeC {op : COp} (h : op.ok) : decodeC (encodeC op) = some op := by
  unfold decodeC
  rw [fieldsC_encodeC]
  exact if_pos ⟨h, rfl⟩

/-- Settles O9: the fields of a word put together from an instruction's fields are that instruction's, and it is legal. -/
theorem slotRoundTrip : Obligations.SlotRoundTrip := by
  unfold Obligations.SlotRoundTrip
  exact ⟨fun _ => decodeM_encodeM, fun _ => decodeX_encodeX, fun _ => decodeC_encodeC⟩

/-! ### A decoded word is the one that its instruction spells -/

theorem encodeM_of_decodeM {w : Word} {op : MOp} (h : decodeM w = some op) : encodeM op = w := by
  obtain ⟨⟨-, hw⟩, hop⟩ := Option.ite_none_right_eq_some.mp h
  rw [← Option.some.inj hop]
  exact hw

theorem encodeX_of_decodeX {w : Word} {op : XOp} (h : decodeX w = some op) : encodeX op = w := by
  obtain ⟨⟨-, hw⟩, hop⟩ := Option.ite_none_right_eq_some.mp h
  rw [← Option.some.inj hop]
  exact hw

theorem encodeC_of_decodeC {w : Word} {op : COp} (h : decodeC w = some op) : encodeC op = w := by
  obtain ⟨⟨-, hw⟩, hop⟩ := Option.ite_none_right_eq_some.mp h
  rw [← Option.some.inj hop]
  exact hw

/-- A bundle decodes where its four words do. -/
theorem decodeBundle_eq_some {w : BitVec 128} {b : Bundle} : decodeBundle w = some b ↔ decodeM (w.extractLsb' 0 32) = some b.m0 ∧
    decodeM (w.extractLsb' 32 32) = some b.m1 ∧ decodeX (w.extractLsb' 64 32) = some b.x ∧ decodeC (w.extractLsb' 96 32) = some b.c := by
  obtain ⟨m0, m1, x, c⟩ := b
  unfold decodeBundle
  split
  · rename_i h0 h1 hx hc
    simp only [h0, h1, hx, hc, Option.some.injEq, Bundle.mk.injEq]
  · rename_i hnone
    exact ⟨fun h => absurd h (Option.some_ne_none _).symm, fun ⟨h0, h1, hx, hc⟩ => (hnone _ _ _ _ h0 h1 hx hc).elim⟩

/-- The four words of an encoded bundle. -/
theorem words_encodeBundle (b : Bundle) : (encodeBundle b).extractLsb' 0 32 = encodeM b.m0 ∧
    (encodeBundle b).extractLsb' 32 32 = encodeM b.m1 ∧ (encodeBundle b).extractLsb' 64 32 = encodeX b.x ∧
    (encodeBundle b).extractLsb' 96 32 = encodeC b.c := by
  simp (disch := decide) only [encodeBundle, BitVec.extractLsb'_append_eq_of_le, BitVec.extractLsb'_append_eq_of_add_le, Nat.reduceSub,
    BitVec.extractLsb'_eq_self, and_self]

/-- Four words make the 128 bits that they were cut from. -/
theorem append_words (w : BitVec 128) :
    w.extractLsb' 96 32 ++ w.extractLsb' 64 32 ++ w.extractLsb' 32 32 ++ w.extractLsb' 0 32 = w := by
  have hc_x : w.extractLsb' 96 32 ++ w.extractLsb' 64 32 = w.extractLsb' 64 64 := BitVec.extractLsb'_append_extractLsb'_eq_extractLsb' rfl
  have hcx_m1 : w.extractLsb' 64 64 ++ w.extractLsb' 32 32 = w.extractLsb' 32 96 := BitVec.extractLsb'_append_extractLsb'_eq_extractLsb' rfl
  have hall : w.extractLsb' 32 96 ++ w.extractLsb' 0 32 = w.extractLsb' 0 128 := BitVec.extractLsb'_append_extractLsb'_eq_extractLsb' rfl
  rw [hc_x]
  exact (congrArg (· ++ _) hcx_m1).trans (hall.trans BitVec.extractLsb'_eq_self)

/-- Settles O10: the four words of a bundle decode slot by slot (O9), and words that decode to the same slots are the same. -/
theorem bundleRoundTrip : Obligations.BundleRoundTrip := by
  unfold Obligations.BundleRoundTrip
  intro b hm0 hm1 hx hc
  obtain ⟨w0, w1, w2, w3⟩ := words_encodeBundle b
  refine ⟨decodeBundle_eq_some.mpr ⟨?_, ?_, ?_, ?_⟩, fun w hw => ?_⟩
  · rw [w0, decodeM_encodeM hm0]
  · rw [w1, decodeM_encodeM hm1]
  · rw [w2, decodeX_encodeX hx]
  · rw [w3, decodeC_encodeC hc]
  · obtain ⟨h0, h1, h2, h3⟩ := decodeBundle_eq_some.mp hw
    have e0 := encodeM_of_decodeM h0
    have e1 := encodeM_of_decodeM h1
    rw [encodeM_unmarked] at e0 e1
    rw [← append_words w, ← e0, ← e1, ← encodeX_of_decodeX h2, ← encodeC_of_decodeC h3]
    rfl

/-- Settles O11: each word is decoded by evaluation. -/
theorem workedWords : Obligations.WorkedWords := by
  unfold Obligations.WorkedWords
  decide

/-! ### Memory: what reads back -/

theorem Memory.byte_setBytes (l : List Byte) : ∀ (m : List Host.Cell) (a x : Nat),
    Memory.byte (Memory.setBytes m a l) x = if a ≤ x ∧ x < a + l.length then l.getD (x - a) 0 else Memory.byte m x := by
  induction l with
  | nil =>
    intro m a x
    rw [if_neg (by simp only [List.length_nil]; omega)]
    rfl
  | cons v l ih =>
    intro m a x
    unfold Memory.setBytes
    rw [ih, Memory.byte_setByte, List.length_cons]
    by_cases hx : x = a
    · subst hx
      rw [if_neg (by omega), if_pos rfl, if_pos (by omega), Nat.sub_self]
      rfl
    · rw [if_neg hx]
      by_cases hin : a + 1 ≤ x ∧ x < a + 1 + l.length
      · obtain ⟨k, rfl⟩ : ∃ k, x = a + 1 + k := ⟨x - (a + 1), by omega⟩
        rw [if_pos hin, if_pos (by omega), Nat.add_sub_cancel_left, Nat.add_assoc, Nat.add_sub_cancel_left, Nat.add_comm 1 k]
        rfl
      · rw [if_neg hin, if_neg (by omega)]

theorem length_leBytes (n : Nat) : ∀ v, (leBytes n v).length = n := by
  induction n with
  | zero => intro v; rfl
  | succ n ih => intro v; exact congrArg Nat.succ (ih _)

theorem leNat_leBytes (n : Nat) : ∀ v, leNat (leBytes n v) = v % 256 ^ n := by
  induction n with
  | zero => intro v; rw [Nat.pow_zero, Nat.mod_one]; rfl
  | succ n ih =>
    intro v
    show (BitVec.ofNat 8 v).toNat + 256 * leNat (leBytes n (v / 256)) = v % 256 ^ (n + 1)
    rw [ih, Nat.pow_succ', Nat.mod_mul, BitVec.toNat_ofNat]

theorem Memory.bytes_setBytes (m : List Host.Cell) (a : Nat) (l : List Byte) : Memory.bytes (Memory.setBytes m a l) a l.length = l := by
  apply List.ext_getElem
  · simp [Memory.bytes]
  · intro i h1 h2
    simp [Memory.bytes, Memory.byte_setBytes, h2]

/-- A number of `n` bytes reads back, modulo its width (R8). -/
theorem Memory.num_setNum (m : List Host.Cell) (a n v : Nat) : Memory.num (Memory.setNum m a n v) a n = v % 256 ^ n := by
  have h := Memory.bytes_setBytes m a (leBytes n v)
  rw [length_leBytes] at h
  unfold Memory.num Memory.setNum
  rw [h, leNat_leBytes]

/-- Settles O8. -/
theorem memoryReadsBack : Obligations.MemoryReadsBack := by
  unfold Obligations.MemoryReadsBack
  exact ⟨fun m a l x => Memory.byte_setBytes l m a x, Memory.num_setNum⟩

end Sys2Proof.Machine

namespace Sys2Proof.Machine

/-! ### Where an address falls in the register table (chapter 00) -/

theorem findReg_key {a : Nat} {h : RegHit} : ∀ {l : List RegDesc}, findReg a l = some h → h.desc.wide = false → h.key = a := by
  intro l
  induction l with
  | nil => intro hf; cases hf
  | cons d l ih =>
    intro hf hn
    unfold findReg at hf
    split at hf
    · rename_i hin
      obtain ⟨hbase, -, hword⟩ := hin
      obtain rfl := Option.some.inj hf
      have hmod : (a - d.base) % d.stride = 0 := hword.resolve_right fun hw => by rw [hn] at hw; exact Bool.false_ne_true hw.1
      have hdiv := Nat.mod_add_div (a - d.base) d.stride
      show d.base + d.stride * ((a - d.base) / d.stride) = a
      omega
    · exact ih hf hn

/-- A 32-bit register lies at its own address. -/
theorem regAt_key {a : Nat} {h : RegHit} (hh : regAt a = some h) (hn : h.desc.wide = false) : h.key = a := by
  unfold regAt at hh
  split at hh
  · cases hh
  · exact findReg_key hh hn

theorem regBlock_of_regAt {a : Nat} {h : RegHit} (hh : regAt a = some h) : (regBlock (regBlockBase a)).isSome = true := by
  unfold regAt at hh
  split at hh
  · cases hh
  · rename_i hb; rw [hb]; rfl

theorem inBlock_of {a : Nat} (hlo : 0x40000000 ≤ a) (hhi : a < 0x44000000) (hmod : a % 4 = 0)
    (hb : (regBlock (regBlockBase a)).isSome = true) : inBlock a = true := by
  simp [inBlock, hlo, hhi, hmod, hb]

theorem tunCtl_narrow : ∀ h ∈ regAt WFT_TUN_CTL, h.desc.wide = false := by decide

theorem ne_tunCtl_of_wide {a : Nat} {h : RegHit} (hh : regAt a = some h) (hw : h.desc.wide = true) : a ≠ WFT_TUN_CTL := by
  rintro rfl
  rw [tunCtl_narrow h hh] at hw
  exact Bool.false_ne_true hw

/-- A register whose writes have no effect of their own is not WFT_TUN_CTL. -/
theorem ne_tunCtl_of_writeSingle {a m : Nat} {v hw : Word} {b : Block} {h : RegHit} (hh : regAt a = some h) (hn : h.desc.wide = false)
    (hs : writeSingle m h.key v hw b = none) : a ≠ WFT_TUN_CTL := by
  rintro rfl
  rw [regAt_key hh hn] at hs
  exact Option.some_ne_none _ hs

/-! ### Accesses that have no effect (R3, R4) -/

/-- A transaction on the peripheral region that its master may make now. -/
theorem request_periph {m a n id : Nat} {host : Bool} {data : Option (List (Option Byte))} {e : Ecc} {hw : Word} {b : Block}
    (hm : accessMade m a b = true) (hlo : 0x40000000 ≤ a) (hhi : a < 0x44000000) (hpage : a / 4096 = (a + n - 1) / 4096) :
    request { master := m, host := host } a n id data e hw none b =
      setResp m (periphAccess m a n id (data.map fun d => BitVec.ofNat 32 (leNat (d.map fun x => x.getD 0))) hw b).1
        (periphAccess m a n id (data.map fun d => BitVec.ofNat 32 (leNat (d.map fun x => x.getD 0))) hw b).2 := by
  obtain ⟨-, hdrain, hdebug⟩ := accessMade_iff.mp hm
  have hopen : ¬(m = 11 ∧ ¬(b.sec.tap = 0x10 ∧ debugOpen b = true)) := fun h => h.2 (hdebug h.1)
  unfold request
  rw [if_neg hopen, hdrain, if_neg Bool.false_ne_true]
  unfold transact
  dsimp only
  rw [if_neg (not_not_intro hpage), if_pos ⟨hlo, hhi⟩]

/-- An access that leaves the block as it is starts no tunnelled access. -/
theorem periphAccess_of_base_same {m a n id : Nat} {v : Option Word} {hw : Word} {b : Block} {r : Resp}
    (h : periphBase m a n id v hw b = (r, b)) : periphAccess m a n id v hw b = (r, b) := by
  unfold periphAccess
  rw [h]
  exact if_neg fun ⟨_, _, hidle, hbusy, _⟩ => hidle hbusy

/-- An access of another width or alignment to a block that its master reaches is an error and nothing else (R3). -/
theorem periphBase_bad {m a n id : Nat} {v : Option Word} {hw : Word} {b : Block} (hb : (regBlock (regBlockBase a)).isSome = true)
    (hr : reachesBlock m (regBlockBase a) = true) (hbad : n ≠ 4 ∨ a % 4 ≠ 0) :
    periphBase m a n id v hw b = ({ data := if v.isNone then [0] else [], err := true }, b) := by
  have hreach : ¬((regBlock (regBlockBase a)).isNone = true ∨ ¬reachesBlock m (regBlockBase a) = true) := by
    simp [hr, Option.isNone_iff_eq_none, Option.isSome_iff_ne_none.mp hb]
  unfold periphBase
  rw [if_neg hreach, if_pos hbad]

theorem bytes_ne_zero_of_wf {x : Xact} (h : x.wf = true) : Xact.bytes x ≠ 0 := by
  cases x <;> simp only [Xact.wf, decide_eq_true_eq] at h <;> exact Nat.ne_of_gt h.1

theorem isNone_of_map {α β : Type} (o : Option α) (f : α → β) : (o.map f).isNone = o.isNone := by cases o <;> rfl

/-- Settles O12: the transaction reaches the peripheral region, whose answer to such an access is the error response alone. -/
theorem badAccessRefused : Obligations.BadAccessRefused := by
  unfold Obligations.BadAccessRefused
  intro m host a id x e hw s hlive hm hlo hhi hblock hwf hpage hbad
  have hreach := (accessMade_iff.mp hm).1
  refine run_live_congr hlive ?_
  rw [if_neg Bool.false_ne_true, if_neg (bytes_ne_zero_of_wf hwf)]
  refine (request_periph hm hlo hhi hpage).trans ?_
  rw [periphAccess_of_base_same (periphBase_bad hblock hreach hbad), isNone_of_map]

/-- Settles O13: at such an offset the register table has no entry. -/
theorem unoccupiedOffset : Obligations.UnoccupiedOffset := by
  unfold Obligations.UnoccupiedOffset
  intro m a v hw s hlive hm hlo hhi hmod hblock hnone
  have hin := inBlock_of hlo hhi hmod hblock
  have htun : a.toNat ≠ WFT_TUN_CTL := fun h => absurd (h ▸ hnone) (by decide)
  refine ⟨run_live_congr hlive ?read, run_live_congr hlive ?write⟩
  case read =>
    refine (readReg_eq hm hin).trans ?_
    unfold regRead
    rw [hnone]
  case write =>
    refine (writeReg_eq hm hin htun).trans ?_
    unfold regWrite
    rw [hnone]

/-! ### The access codes (R5, R6) -/

/-- A read of a register whose reads have no effect of their own. -/
theorem readHit_codes {m : Nat} {h : RegHit} {hw : Word} {b : Block} (hn : h.desc.wide = false)
    (hk : h.key ∉ [EFE_MARK, DCH_CROM_DATA, LEG_TBL_DATA, SEC_TRNG]) (hstat : ∀ n : Fin 16, h.key ≠ EFE_SRC_STAT n.val) :
    readHit m h hw b = ((shownValue b h.key (b.rd h.key) &&&
      BitVec.ofNat 64 (h.desc.rw ||| h.desc.rwl ||| h.desc.w1c ||| h.desc.w1s ||| h.desc.rc ||| h.desc.ro)).lo, clearRc h hw.toNat b) := by
  simp only [List.mem_cons, List.not_mem_nil, or_false, not_or] at hk
  obtain ⟨hmark, hcrom, htbl, htrng⟩ := hk
  have hfifo : (decide (EFE_SRC_STAT 0 ≤ h.key ∧ h.key ≤ EFE_SRC_STAT 15) && (h.key - EFE_SRC_STAT 0) % 0x20 == 0) = false := by
    simp only [Bool.and_eq_false_iff, decide_eq_false_iff_not, beq_eq_false_iff_ne]
    by_cases hmod : (h.key - EFE_SRC_STAT 0) % 0x20 = 0
    · refine Or.inl fun ⟨hge, hle⟩ => ?_
      refine hstat ⟨(h.key - EFE_SRC_STAT 0) / 0x20, ?_⟩ ?_ <;> simp only [EFE_SRC_STAT] at * <;> omega
    · exact Or.inr hmod
  unfold readHit
  simp only [hn, hfifo, hmark, hcrom, htbl, htrng, Bool.false_eq_true, if_false]

theorem testBit_num_setNum {b : Block} {a v i : Nat} (hi : i < 64) : ((b.setNum a v).num a).testBit i = v.testBit i := by
  show (((b.wr a (BitVec.ofNat 64 v)).rd a).toNat).testBit i = _
  rw [Block.rd_wr, BitVec.toNat_ofNat, Nat.testBit_mod_two_pow]
  simp [hi]

/-- The plain bits of a register (R5): WO, RW, and RWL until cfg_lock is set. -/
def RegHit.plain (h : RegHit) (b : Block) : Nat :=
  h.desc.wo ||| (if b.on SYS_CTL_cfg_lock then h.desc.rw else h.desc.rw ||| h.desc.rwl)

theorem writeCodes_testBit (h : RegHit) (v hw : Nat) (b : Block) {i : Nat} (hi : i < 64) (h1 : h.plain b &&& h.desc.w1c = 0)
    (h2 : h.plain b &&& h.desc.w1s = 0) (h3 : h.desc.w1c &&& h.desc.w1s = 0) :
    ((writeCodes h v hw b).num h.key).testBit i =
      (if (h.plain b).testBit i then v.testBit i
       else if h.desc.w1c.testBit i then hw.testBit i || ((b.num h.key).testBit i && !v.testBit i)
       else if h.desc.w1s.testBit i then (b.num h.key).testBit i || v.testBit i
       else (b.num h.key).testBit i) := by
  have d1 := congrArg (Nat.testBit · i) h1
  have d2 := congrArg (Nat.testBit · i) h2
  have d3 := congrArg (Nat.testBit · i) h3
  unfold writeCodes
  unfold RegHit.plain at *
  dsimp only at *
  rw [testBit_num_setNum hi]
  generalize (if b.on SYS_CTL_cfg_lock then h.desc.rw else h.desc.rw ||| h.desc.rwl) = rw' at *
  simp only [Nat.testBit_or, Nat.testBit_and, testBit_sub_and, Nat.zero_testBit] at *
  generalize h.desc.wo.testBit i = wo, rw'.testBit i = p, h.desc.w1c.testBit i = c, h.desc.w1s.testBit i = k,
    (b.num h.key).testBit i = x, v.testBit i = y, hw.testBit i = z at *
  revert wo p c k x y z
  decide

theorem clearRc_testBit (h : RegHit) (hw : Nat) (b : Block) {i : Nat} (hi : i < 64) :
    ((clearRc h hw b).num h.key).testBit i = if h.desc.rc.testBit i then hw.testBit i else (b.num h.key).testBit i := by
  unfold clearRc
  show (((b.wr h.key _).rd h.key).getLsbD i) = if h.desc.rc.testBit i then hw.testBit i else (b.rd h.key).getLsbD i
  rw [Block.rd_wr]
  simp only [BitVec.getLsbD_or, BitVec.getLsbD_and, BitVec.getLsbD_not, BitVec.getLsbD_ofNat, Nat.testBit_and, hi, decide_true,
    Bool.true_and]
  cases h.desc.rc.testBit i <;> simp

/-- Settles O14: a register without an effect of its own is written and read by its codes, which are said bit by bit. -/
theorem accessCodes : Obligations.AccessCodes := by
  unfold Obligations.AccessCodes
  refine ⟨fun m a v hw h s hlive hm hlo hhi hmod hh hnarrow => ?access, fun h v hw b i => ?bits⟩
  case access =>
    have hn : h.desc.wide = false := Bool.eq_false_iff.mpr hnarrow
    have hin := inBlock_of hlo hhi hmod (regBlock_of_regAt hh)
    refine ⟨fun hs he => run_live_congr hlive ?_, fun hk hstat => run_live_congr hlive ?_⟩
    · exact writeReg_codes hm hin (ne_tunCtl_of_writeSingle hh hn hs) hh hn hs he
    · refine (readReg_eq hm hin).trans ?_
      unfold regRead
      rw [hh]
      dsimp only
      rw [readHit_codes hn hk hstat]
      rfl
  case bits =>
    have hi : i.val < 64 := Nat.lt_trans i.isLt (by decide)
    exact fun h1 h2 h3 => ⟨writeCodes_testBit h v.toNat hw.toNat b hi h1 h2 h3, clearRc_testBit h hw.toNat b hi,
      fun k hk => ⟨Block.rd_wr_ne b _ hk, Block.rd_wr_ne b _ hk⟩⟩

/-! ### 64-bit registers (R7) -/

/-- A read of the low word of a pair that is no capture. -/
theorem readHit_wideLow {m : Nat} {h : RegHit} {hw : Word} {b : Block} (hwide : h.desc.wide = true) (hlow : h.high = false)
    (hcap : ¬ ∃ n : Fin 8, h.key = TBU_CAP_VAL n.val) : readHit m h hw b =
      ((shownValue b h.key (b.rd h.key)).lo, setRdShadow m (shownValue b h.key (b.rd h.key)).hi b) := by
  have hno : (decide (TBU_CAP_VAL 0 ≤ h.key ∧ h.key ≤ TBU_CAP_VAL 7) && (h.key - TBU_CAP_VAL 0) % 0x10 == 0) = false := by
    simp only [Bool.and_eq_false_iff, decide_eq_false_iff_not, beq_eq_false_iff_ne]
    by_cases hmod : (h.key - TBU_CAP_VAL 0) % 0x10 = 0
    · refine Or.inl fun ⟨hge, hle⟩ => ?_
      refine hcap ⟨⟨(h.key - TBU_CAP_VAL 0) / 0x10, ?_⟩, ?_⟩ <;> simp only [TBU_CAP_VAL] at * <;> omega
    · exact Or.inr hmod
  unfold readHit
  simp only [hwide, hlow, hno, if_true, Bool.false_eq_true, if_false]

theorem readHit_wideHigh {m : Nat} {h : RegHit} {hw : Word} {b : Block} (hwide : h.desc.wide = true) (hhigh : h.high = true) :
    readHit m h hw b = (rdShadow b m, b) := by
  unfold readHit
  simp only [hwide, hhigh, if_true]

/-- Both words of a pair commit it alike. -/
theorem writePair_congr {h k : RegHit} (hdesc : h.desc = k.desc) (hidx : h.idx = k.idx) (x : Long) (b : Block) :
    writePair h x b = writePair k x b := by
  unfold writePair writeCodes RegHit.key
  rw [hdesc, hidx]

/-- Settles O15. -/
theorem wideRegisters : Obligations.WideRegisters := by
  unfold Obligations.WideRegisters
  refine ⟨fun m => ⟨rfl, rfl⟩, fun m a lo hi v s hlive hmlo hmhi hge hlt hmod hblock hlo hhi hwide hlow hdesc hidx hhigh hbase => ?_⟩
  have hlow : lo.high = false := Bool.eq_false_iff.mpr hlow
  have hwide' : hi.desc.wide = true := hdesc ▸ hwide
  have ha4 : (a + 4).toNat = a.toNat + 4 := by
    simp only [BitVec.toNat_add, BitVec.ofNat_eq_ofNat, BitVec.toNat_ofNat]
    omega
  have hinlo := inBlock_of hge (by omega) (by omega) hblock
  have hinhi : inBlock (a + 4).toNat = true := by
    rw [ha4]
    exact inBlock_of (Nat.le_add_right_of_le hge) hlt (by omega) (by rw [hbase]; exact hblock)
  rw [← ha4] at hmhi hhi
  refine ⟨fun hcap => run_live_congr hlive ?lowRead, run_live_congr hlive ?highRead, run_live_congr hlive ?lowWrite,
    run_live_congr hlive ?highWrite, fun k x => ⟨FMap.get_set _ _ _ _ _, rfl, FMap.get_set _ _ _ _ _, rfl⟩⟩
  case lowRead =>
    refine (readReg_eq hmlo hinlo).trans ?_
    unfold regRead
    rw [hlo]
    dsimp only
    rw [readHit_wideLow hwide hlow hcap]
    rfl
  case highRead =>
    refine (readReg_eq hmhi hinhi).trans ?_
    unfold regRead
    rw [hhi]
    dsimp only
    rw [readHit_wideHigh hwide' hhigh]
    rfl
  case lowWrite =>
    refine (writeReg_eq hmlo hinlo (ne_tunCtl_of_wide hlo hwide)).trans ?_
    unfold regWrite
    rw [hlo]
    simp only [hwide, hlow, if_true, Bool.false_eq_true, if_false]
    rfl
  case highWrite =>
    refine (writeReg_pair hmhi hinhi (ne_tunCtl_of_wide hhi hwide') hhi hwide' hhigh).trans ?_
    unfold wrote
    rw [writePair_congr hdesc hidx]

end Sys2Proof.Machine

namespace Sys2Proof.Machine

/-! ### Registers as numbers -/

theorem Block.num_setNum (b : Block) (a : Nat) {v : Nat} (h : v < 2 ^ 64) : (b.setNum a v).num a = v := by
  show ((b.wr a (BitVec.ofNat 64 v)).rd a).toNat = v
  rw [Block.rd_wr, BitVec.toNat_ofNat, Nat.mod_eq_of_lt h]

theorem Block.num_wr_ne (b : Block) {a a' : Nat} (v : Long) (h : a' ≠ a) : (b.wr a v).num a' = b.num a' :=
  congrArg BitVec.toNat (Block.rd_wr_ne b v h)

theorem Block.num_setNum_ne (b : Block) {a a' : Nat} (v : Nat) (h : a' ≠ a) : (b.setNum a v).num a' = b.num a' :=
  Block.num_wr_ne b _ h

theorem Block.num_put_ne (b : Block) {f : Fld} {a : Nat} (v : Nat) (h : a ≠ f.addr) : (b.put f v).num a = b.num a :=
  congrArg BitVec.toNat (Block.rd_put_ne b v h)

theorem Block.num_flag_ne (b : Block) {f : Fld} {a : Nat} (h : a ≠ f.addr) : (b.flag f).num a = b.num a := Block.num_put_ne b 1 h

/-! ### Effects on the register file alone -/

/-- From `b` to `c` the register file alone changes, and there no register outside the list. -/
def RegsMoved (l : List Nat) (b c : Block) : Prop := c = { b with regs := c.regs } ∧ ∀ a, a ∉ l → c.rd a = b.rd a

theorem RegsMoved.refl (l : List Nat) (b : Block) : RegsMoved l b b := ⟨rfl, fun _ _ => rfl⟩

theorem RegsMoved.trans {l : List Nat} {b c d : Block} (h : RegsMoved l b c) (k : RegsMoved l c d) : RegsMoved l b d := by
  obtain ⟨hc, hrc⟩ := h
  obtain ⟨hd, hrd⟩ := k
  refine ⟨?_, fun a ha => (hrd a ha).trans (hrc a ha)⟩
  rw [hd, hc]

theorem RegsMoved.put {l : List Nat} (b : Block) (f : Fld) (v : Nat) (h : f.addr ∈ l) : RegsMoved l b (b.put f v) :=
  ⟨rfl, fun _ ha => Block.rd_put_ne b v fun e => ha (e ▸ h)⟩

theorem RegsMoved.wr {l : List Nat} (b : Block) (a : Nat) (v : Long) (h : a ∈ l) : RegsMoved l b (b.wr a v) :=
  ⟨rfl, fun _ ha => Block.rd_wr_ne b v fun e => ha (e ▸ h)⟩

/-- A fold of steps that each move registers of the list alone. -/
theorem RegsMoved.foldl {α : Type} {l : List Nat} {f : Block → α → Block} {xs : List α}
    (h : ∀ x ∈ xs, ∀ b, RegsMoved l b (f b x)) : ∀ b, RegsMoved l b (xs.foldl f b) := by
  induction xs with
  | nil => exact RegsMoved.refl l
  | cons x xs ih =>
    intro b
    exact (h x (List.mem_cons_self ..) b).trans (ih (fun y hy => h y (List.mem_cons_of_mem _ hy)) (f b x))

/-- What does not depend on the register file is as before. -/
theorem RegsMoved.field {α : Type} {l : List Nat} {b c : Block} (h : RegsMoved l b c) (f : Block → α)
    (hf : ∀ (x : Block) (r : Regs), f { x with regs := r } = f x) :
    f c = f b := by
  rw [h.1]
  exact hf b _

theorem RegsMoved.get {l : List Nat} {b c : Block} (h : RegsMoved l b c) {f : Fld} (hf : f.addr ∉ l) : c.get f = b.get f := by
  show f.of (c.rd f.addr) = f.of (b.rd f.addr)
  rw [h.2 _ hf]

theorem RegsMoved.num {l : List Nat} {b c : Block} (h : RegsMoved l b c) {a : Nat} (ha : a ∉ l) : c.num a = b.num a := by
  show (c.rd a).toNat = (b.rd a).toNat
  rw [h.2 _ ha]

/-! ### Reference edges (R30) -/

/-- Nothing that waits for the outputs to have faded takes effect while picks run or fade. -/
theorem applyPending_of_busy {b : Block} (h : b.tbu.running = true ∨ b.tbu.drain.isSome = true) : applyPending b = b := if_pos h

theorem isGlitch_of_near {b : Block} {t last : Nat} (hlast : b.tbu.edgeT = some last)
    (hnear : 2 * since last t * nominalFs b < 1000000000) : isGlitch b t = true := by
  unfold isGlitch
  rw [hlast]
  exact decide_eq_true hnear

/-- A glitch is counted, where picks run or fade. -/
theorem refEdge_glitch {b : Block} {num : Option Nat} {t : Nat} (hbusy : b.tbu.running = true ∨ b.tbu.drain.isSome = true)
    (hstate : b.tbu.running = true ∨ b.get TBU_REF_STAT_state ≠ 3) (hsrc : b.tbu.sel.src ≠ 3) (hglitch : isGlitch b t = true) :
    refEdge num t b = b.bump TBU_REF_CNT_glitches := by
  have hmute : ¬((!b.tbu.running) = true ∧ b.get TBU_REF_STAT_state = 3) := fun ⟨hstopped, hpaused⟩ =>
    hstate.elim (fun h => by rw [h] at hstopped; cases hstopped) fun h => h hpaused
  unfold refEdge
  rw [if_neg hmute, applyPending_of_busy hbusy]
  simp only [hsrc, hglitch, if_false, if_true]

/-- Settles O16. -/
theorem glitchIgnored : Obligations.GlitchIgnored := by
  unfold Obligations.GlitchIgnored
  intro t s last
  dsimp only
  intro hlive hbusy hstate hsrc hlast hnear
  exact run_live_congr hlive (refEdge_glitch hbusy hstate hsrc (isGlitch_of_near hlast hnear))

/-! ### LOCATE (R41, R44) -/

/-- The registers in which compares show that a LOCATE skipped them. -/
def skipRegs : List Nat := TBU_CMP_STAT :: (List.range 16).map TBU_CMP_CFG

theorem notMem_skipRegs : TBU_BEAT ∉ skipRegs ∧ TBU_LOC_TGT ∉ skipRegs := by decide

theorem cmpCfg_mem_skipRegs {n : Nat} (h : n ∈ List.range 16) : TBU_CMP_CFG n ∈ skipRegs :=
  List.mem_cons_of_mem _ (List.mem_map_of_mem h)

theorem compareSkip_moves (old new : Long) (b : Block) : RegsMoved skipRegs b (compareSkip old new b) := by
  unfold compareSkip
  refine RegsMoved.foldl (fun n hn c => ?_) b
  split
  · exact (RegsMoved.put c TBU_CMP_STAT_skipped _ (List.mem_cons_self ..)).trans
      (RegsMoved.put _ (TBU_CMP_CFG_armed n) 0 (cmpCfg_mem_skipRegs hn))
  · exact RegsMoved.refl _ c

/-- A block with another count of TEMPO_OUT. -/
def withTout (k : Nat) (b : Block) : Block := setTbu (fun u => { u with toutLeft := k }) b

theorem withTout_same (b : Block) : withTout b.tbu.toutLeft b = b := rfl

/-- TEMPO_OUT moves its own count alone. -/
theorem tempoOut_form (b : Block) (hit : Bool) : ∃ k, tempoOut b hit = withTout k b := ⟨_, rfl⟩

/-- What a LOCATE sets before it looks at the compares: BEAT_POS, the target, and the loop. -/
def located (target : Nat) (keep : Bool) (left : List Timed) (b : Block) : Block :=
  setTbu (fun u => { u with
    phase := target * 2 ^ 40, sub := 0, freeB := target * 2 ^ 40, freePhi := b.sample * 2 ^ 24, clamp := none, rebase := true,
    frontier := none, located := true, keepPast := keep })
  ((((({ b with efe := { b.efe with delayed := left } } : Block).bump TBU_TEMPO_CNT_discarded (b.efe.delayed.length - left.length)).setNum
    TBU_BEAT target).setNum TBU_LOC_TGT target).flag TBU_EVT_STAT_locate)

/-- A LOCATE on the block that it has set: TEMPO_OUT may rise, and the compares that it passes are skipped. -/
theorem locate_eq (target : Nat) (keep : Bool) (b : Block) : locate target keep b =
    compareSkip (b.rd TBU_BEAT) (BitVec.ofNat 64 target)
      (if b.tbu.running ∧ target * ppqnOf (b.get TBU_TOUT_CFG_ppqn) % 2 ^ 24 < ppqnOf (b.get TBU_TOUT_CFG_ppqn) then
        tempoOut (located target keep (b.efe.delayed.filterMap (locateOne target keep)) b) true
      else located target keep (b.efe.delayed.filterMap (locateOne target keep)) b) := rfl

/-- All that a LOCATE does. -/
theorem locate_form (target : Nat) (keep : Bool) (b : Block) :
    ∃ left k, RegsMoved skipRegs (withTout k (located target keep left b)) (locate target keep b) := by
  rw [locate_eq]
  generalize b.efe.delayed.filterMap (locateOne target keep) = left
  have hmoved := compareSkip_moves (b.rd TBU_BEAT) (BitVec.ofNat 64 target)
  refine ⟨left, ?_⟩
  generalize located target keep left b = c
  split
  · obtain ⟨k, hk⟩ := tempoOut_form c true
    exact ⟨k, hk ▸ hmoved (tempoOut c true)⟩
  · exact ⟨c.tbu.toutLeft, (withTout_same c).symm ▸ hmoved c⟩

theorem located_num (target : Nat) (keep : Bool) (left : List Timed) (k : Nat) (b : Block) (h : target < 2 ^ 64) :
    (withTout k (located target keep left b)).num TBU_BEAT = target ∧
    (withTout k (located target keep left b)).num TBU_LOC_TGT = target := by
  unfold withTout
  rw [Block.num_congr (Block.setTbu_regs _ _), Block.num_congr (Block.setTbu_regs _ _)]
  unfold located
  rw [Block.num_congr (Block.setTbu_regs _ _), Block.num_congr (Block.setTbu_regs _ _), Block.num_flag_ne _ (by decide),
    Block.num_flag_ne _ (by decide), Block.num_setNum_ne _ _ (by decide), Block.num_setNum _ _ h, Block.num_setNum _ _ h]
  exact ⟨rfl, rfl⟩

/-- The loop after a LOCATE: unclamped, at the rate that it had, and the next edge carries BEAT_POS (R41). -/
theorem located_loop (target : Nat) (keep : Bool) (left : List Timed) (k : Nat) (b : Block) :
    (withTout k (located target keep left b)).tbu.clamp = none ∧
    (withTout k (located target keep left b)).tbu.rhoI = b.tbu.rhoI ∧ (withTout k (located target keep left b)).tbu.rebase = true := by
  simp [withTout, located]

/-- A LOCATE leaves a part of the block outside the registers, the time base and the delay list. -/
theorem locate_keeps {α : Type} (target : Nat) (keep : Bool) (b : Block) (f : Block → α) (hregs : ∀ (x : Block) r, f { x with regs := r } = f x)
    (htbu : ∀ (x : Block) u, f { x with tbu := u } = f x) (hefe : ∀ (x : Block) l, f { x with efe := { x.efe with delayed := l } } = f x) :
    f (locate target keep b) = f b := by
  obtain ⟨left, k, hform⟩ := locate_form target keep b
  rw [hform.field f hregs]
  exact (htbu _ _).trans ((htbu _ _).trans ((hregs _ _).trans ((hregs _ _).trans ((hregs _ _).trans ((hregs _ _).trans (hefe b left))))))

/-- Settles O18: the command is `locate` on the block without the event; what follows it keeps all that the statement names. -/
theorem locateTakesEffect : Obligations.LocateTakesEffect := by
  unfold Obligations.LocateTakesEffect
  intro s x rest hlive hx hquiet
  have hrun : exec .locate s =
      .next (s.on fun b => locate (x.ev.data.toNat * 65536) (x.ev.oflags % 2 == 1) (b.presented rest)) :=
    run_live_congr hlive (by rw [locateEvent, takePresented_of_presents hx])
  have htarget : x.ev.data.toNat * 65536 < 2 ^ 64 := by have := x.ev.data.isLt; omega
  generalize x.ev.data.toNat * 65536 = target at *
  generalize (x.ev.oflags % 2 == 1) = keep at *
  have hkeeps {α : Type} := locate_keeps (α := α) target keep (s.blk.presented rest)
  have hq : (locate target keep (s.blk.presented rest)).quiet := by
    unfold Block.quiet
    rw [hkeeps Block.sys (fun _ _ => rfl) (fun _ _ => rfl) (fun _ _ => rfl)]
    exact hquiet
  obtain ⟨left, k, hform⟩ := locate_form target keep (s.blk.presented rest)
  obtain ⟨hbeat, htgt⟩ := located_num target keep left k (s.blk.presented rest) htarget
  have htbu := (finish_tbu 0 hq).trans (hform.field Block.tbu fun _ _ => rfl)
  obtain ⟨hclamp, hrhoI, hrebase⟩ := located_loop target keep left k (s.blk.presented rest)
  refine ⟨_, hrun, ?beat, ?target, (congrArg Tbu.clamp htbu).trans hclamp, (congrArg Tbu.rhoI htbu).trans hrhoI,
    (congrArg Tbu.rebase htbu).trans hrebase, ?present,
    (finish_mem 0 hq).trans (hkeeps Block.mem (fun _ _ => rfl) (fun _ _ => rfl) (fun _ _ => rfl)),
    (finish_alc 0 hq).trans (hkeeps Block.alc (fun _ _ => rfl) (fun _ _ => rfl) (fun _ _ => rfl)),
    (finish_dlr 0 hq).trans (hkeeps Block.dlr (fun _ _ => rfl) (fun _ _ => rfl) (fun _ _ => rfl)),
    (finish_sht 0 hq).trans (hkeeps Block.sht (fun _ _ => rfl) (fun _ _ => rfl) (fun _ _ => rfl))⟩
  case beat => exact (finish_num 0 hq (by decide)).trans ((hform.num notMem_skipRegs.1).trans hbeat)
  case target => exact (finish_num 0 hq (by decide)).trans ((hform.num notMem_skipRegs.2).trans htgt)
  case present =>
    exact (congrArg Efe.present (finish_efe 0 hq)).trans
      (hkeeps (fun b => b.efe.present) (fun _ _ => rfl) (fun _ _ => rfl) (fun _ _ => rfl))

end Sys2Proof.Machine

namespace Sys2Proof.Machine

/-! ### Registers that show no other state -/

/-- The registers whose value follows from other state. -/
def isShown (k : Nat) : Bool :=
  decide (k ∈ [SYS_IRQ_STAT, SYS_MPLOAD, HIF_DB_STAT, TBU_BEAT_RATE, EFE_MARK_STAT, EFE_PEND, VAL_STAT, MIX_STAT, REL_STAT, LEG_STAT,
    MEM_REPAIR]) || decide (TBU_TPAIR 0 ≤ k ∧ k ≤ TBU_TPAIR 3) ||
  (decide (EFE_SRC_SEQ 0 ≤ k ∧ k ≤ EFE_SRC_SEQ 15) && (k - EFE_SRC_SEQ 0) % 0x20 == 0) ||
  (decide (DLR_HUSE 0 ≤ k ∧ k ≤ DLR_HUSE 31) && (k - DLR_HUSE 0) % 0x10 == 0) ||
  (decide (DLR_HINFO 0 ≤ k ∧ k ≤ DLR_HINFO 31) && (k - DLR_HINFO 0) % 0x10 == 0) ||
  (decide (SHT_SSTAT 0 ≤ k ∧ k ≤ SHT_SSTAT 159) && (k - SHT_SSTAT 0) % 0x10 == 0) ||
  decide (MIX_RGAIN 0 ≤ k ∧ k ≤ MIX_RGAIN 255) || decide (MIX_BUS 0 ≤ k ∧ k ≤ MIX_BUS 255) || decide (0x40e01000 ≤ k ∧ k < 0x40e01400)

/-- Any other register shows what the register file holds. -/
theorem shownValue_plain {k : Nat} (h : isShown k = false) (b : Block) (v : Long) : shownValue b k v = v := by
  simp only [isShown, Bool.or_eq_false_iff, decide_eq_false_iff_not, List.mem_cons, List.not_mem_nil, or_false, not_or] at h
  obtain ⟨⟨⟨⟨⟨⟨⟨⟨⟨h1, h2, h3, h4, h5, h6, h7, h8, h9, h10, h11⟩, h12⟩, h13⟩, h14⟩, h15⟩, h16⟩, h17⟩, h18⟩, h19⟩ := h
  simp only [shownValue, h1, h2, h3, h4, h5, h6, h7, h8, h9, h10, h11, h12, h13, h14, h15, h16, h17, h18, h19, decide_false, if_false,
    Bool.false_eq_true]

/-! ### Captures (R45, R46) -/

/-- The register table's entry for TBU_CAPn_VAL. -/
def captureValReg : RegDesc := ⟨0x40100308, 0x10, 8, true, 0x0, 0x0, 0x0, 0x0, 0x0, 0x0, 0x0, 0xffffffffffffffff⟩

/-- Where the low word of TBU_CAPn_VAL falls in the register table. -/
def captureValLow (n : Nat) : RegHit := ⟨captureValReg, n, false⟩

theorem regAt_captureVal : ∀ n : Fin 8, regAt (TBU_CAP_VAL n.val) = some (captureValLow n.val) := by decide

theorem inBlock_captureVal : ∀ n : Fin 8, inBlock (TBU_CAP_VAL n.val) = true := by decide

theorem captureVal_is_element : ∀ n : Fin 8, (decide (TBU_CAP_VAL 0 ≤ TBU_CAP_VAL n.val ∧ TBU_CAP_VAL n.val ≤ TBU_CAP_VAL 7) &&
    (TBU_CAP_VAL n.val - TBU_CAP_VAL 0) % 0x10 == 0) = true ∧ (TBU_CAP_VAL n.val - TBU_CAP_VAL 0) / 0x10 = n.val ∧
    isShown (TBU_CAP_VAL n.val) = false := by decide

/-- A read of TBU_CAPn_VAL_LO latches the high word and takes the capture. -/
theorem readHit_captureVal (m : Nat) (n : Fin 8) (hw : Word) (b : Block) : readHit m (captureValLow n.val) hw b =
    ((b.rd (TBU_CAP_VAL n.val)).lo, captureTake n.val (setRdShadow m (b.rd (TBU_CAP_VAL n.val)).hi b)) := by
  obtain ⟨hin, hix, hshown⟩ := captureVal_is_element n
  have hkey : (captureValLow n.val).key = TBU_CAP_VAL n.val := rfl
  have hwide : (captureValLow n.val).desc.wide = true := rfl
  have hlow : (captureValLow n.val).high = false := rfl
  unfold readHit
  simp only [hkey, hwide, hlow, hin, hix, shownValue_plain hshown, if_true, Bool.false_eq_true, if_false]

theorem captureTake_of_pend {n : Nat} {b : Block} (h : b.on (TBU_CAP_STAT_pend n) = true) : captureTake n b =
    (setCapPending n 0 (((b.wr (TBU_CAP_VAL n) (capPending b n)).put (TBU_CAP_STAT_full n) 1).put (TBU_CAP_STAT_pend n) 0)).setBit
      TBU_IRQ_STAT_cap n := if_pos h

/-- A read of a capture whose pending buffer is full, without an edge in its cycle. -/
theorem readReg_captureVal {m : Nat} (n : Fin 8) {b : Block} (hm : accessMade m (TBU_CAP_VAL n.val) b = true)
    (hpend : b.on (TBU_CAP_STAT_pend n.val) = true) : readReg m (TBU_CAP_VAL n.val) 0 b =
      answered m (b.rd (TBU_CAP_VAL n.val)).lo (fun b => (setCapPending n.val 0
        ((((setRdShadow m (b.rd (TBU_CAP_VAL n.val)).hi b).wr (TBU_CAP_VAL n.val) (capPending b n.val)).put
          (TBU_CAP_STAT_full n.val) 1).put (TBU_CAP_STAT_pend n.val) 0)).setBit TBU_IRQ_STAT_cap n.val) b := by
  have hpend' : (setRdShadow m (b.rd (TBU_CAP_VAL n.val)).hi b).on (TBU_CAP_STAT_pend n.val) = true := hpend
  rw [readReg_eq hm (inBlock_captureVal n)]
  unfold regRead
  rw [regAt_captureVal n]
  dsimp only
  rw [readHit_captureVal, captureTake_of_pend hpend']
  rfl

/-- Settles O20. -/
theorem captureUnits : Obligations.CaptureUnits := by
  unfold Obligations.CaptureUnits
  refine ⟨fun n s hlive hsource => run_live_congr hlive ?edge, fun m n s hlive hm hpend => run_live_congr hlive ?read⟩
  case edge =>
    unfold captureEdge
    rw [if_pos hsource]
    unfold captureValue
    simp only [Bool.not_eq_true', Bool.not_eq_true]
  case read => exact readReg_captureVal n hm hpend

/-! ### Timers (R47, R48) -/

theorem plainReg_timerReload : ∀ n : Fin 8, plainReg (TBU_TMR_RLD n.val) = true ∧ TBU_TMR_RLD n.val ∉ singles ∧
    elemOf (TBU_TMR_RLD n.val) (TBU_CMP_CFG 0) 0x10 16 = none ∧ elemOf (TBU_TMR_RLD n.val) (TBU_TMR_RLD 0) 0x10 8 = some n.val := by
  decide

/-- A command that names no bit set by hardware in its cycle. -/
theorem no_hw (a : Nat) : ∀ r, regAt a = some r → (0 : Word).toNat &&& r.desc.w1c = 0 := fun _ _ => Nat.zero_and _

theorem writeReg_timerReload {m : Nat} {n : Fin 8} {v : Word} {b : Block} (hm : accessMade m (TBU_TMR_RLD n.val) b = true) :
    writeReg m (TBU_TMR_RLD n.val) v 0 b = wrote m (timerReload n.val v) b := by
  obtain ⟨hplain, hsingle, hcmp, helem⟩ := plainReg_timerReload n
  refine writeReg_of_element hplain hsingle hm (no_hw _) fun r _ => ?_
  unfold writeElement
  rw [hcmp, helem]
  rfl

/-- Settles O21. -/
theorem timers : Obligations.Timers := by
  unfold Obligations.Timers
  refine ⟨fun n s hlive hdue hon => ?underflow, fun m n v s hlive hm => run_live_congr hlive (writeReg_timerReload hm)⟩
  dsimp only
  refine ⟨fun hone => run_live_congr hlive ?one, fun hodd hpair => run_live_congr hlive ?both⟩
  case one =>
    unfold timerUnderflow
    rw [if_pos ⟨hdue, hon⟩]
    exact if_neg hone
  case both =>
    unfold timerUnderflow
    rw [if_pos ⟨hdue, hon⟩]
    exact if_pos ⟨hodd, hpair⟩

/-! ### Disabled sources (R51) -/

section
variable {n : Nat} {b : Block} (h : srcOn b n = false)
include h

theorem midiChannel_off (st t : Nat) (f : Block → Msg × Block) : midiChannel n st t f b = b := by simp [midiChannel, h]
theorem midiSystem_off (t : Nat) (common : Bool) (evs : List Ev) : midiSystem n t common evs b = b := by simp [midiSystem, h]
theorem activeSensing_off (t : Nat) : activeSensing n t b = b := by simp [activeSensing, h]
theorem midiError_off (t : Nat) (e : ParseError) : midiError n t e b = b := by simp [midiError, h]
theorem midiSyx_off (bytes : List Byte) (t : Nat) : midiSyx n bytes t b = b := by simp [midiSyx, h]

end

section
variable {n : Nat} {b : Block} (h : umpOn b n = false)
include h

theorem umpMsg_off (g : Nat) (f : Block → Msg × Block) : umpMsg n g f b = b := by simp [umpMsg, h]
theorem umpJrClock_off (c : Nat) : umpJrClock n c b = b := by simp [umpJrClock, h]

end

/-- Settles O22: every message of a source that is off is the block as it is. -/
theorem disabledSourceIgnores : Obligations.DisabledSourceIgnores := by
  unfold Obligations.DisabledSourceIgnores
  refine ⟨fun n t s hlive hoff => ?midi, fun src s hlive hoff => ?ump⟩
  case midi =>
    have h : srcOn (advanceTo t.toNat s.blk) n.val = false :=
      (advanceTo_srcOn _ _ _).trans (Bool.eq_false_iff.mpr hoff)
    refine ⟨?_, fun ch key vel zero => ?_, fun ch key vel => run_live_congr hlive (midiChannel_off h _ _ _),
      fun ch cc v => run_live_congr hlive (midiChannel_off h _ _ _), fun e => run_live_congr hlive (midiError_off h _ e),
      fun bytes => run_live_congr hlive (midiSyx_off h bytes _)⟩
    · simp only [List.forall_mem_cons, List.not_mem_nil, false_imp_iff, implies_true, and_true]
      exact ⟨run_live_congr hlive (activeSensing_off h _), run_live_congr hlive (midiSystem_off h _ _ _),
        run_live_congr hlive (midiSystem_off h _ _ _), run_live_congr hlive (midiSystem_off h _ _ _)⟩
    · cases zero
      · exact run_live_congr hlive (midiChannel_off h _ _ _)
      · exact run_live_congr hlive (midiChannel_off h _ _ _)
  case ump =>
    have h : umpOn s.blk src.num = false := Bool.eq_false_iff.mpr hoff
    exact ⟨fun g ch key vel => run_live_congr hlive (umpMsg_off h _ _), fun g ch key vel ty at' => run_live_congr hlive (umpMsg_off h _ _),
      fun c => run_live_congr hlive (umpJrClock_off h _), fun g mt => run_live_congr hlive (if_neg hoff)⟩

end Sys2Proof.Machine

namespace Sys2Proof.Machine

/-! ### The status FIFO and the mark FIFO (R64, R79) -/

/-- The register table's entry for EFE_SRCs_STAT. -/
def srcStatReg : RegDesc := ⟨0x40200104, 0x20, 16, false, 0x0, 0x0, 0x0, 0x0, 0x0, 0x1fffff, 0x0, 0x0⟩

theorem regAt_srcStat : ∀ n : Fin 16, regAt (EFE_SRC_STAT n.val) = some ⟨srcStatReg, n.val, false⟩ := by decide

theorem inBlock_srcStat : ∀ n : Fin 16, inBlock (EFE_SRC_STAT n.val) = true := by decide

theorem srcStat_is_element : ∀ n : Fin 16, (decide (EFE_SRC_STAT 0 ≤ EFE_SRC_STAT n.val ∧ EFE_SRC_STAT n.val ≤ EFE_SRC_STAT 15) &&
    (EFE_SRC_STAT n.val - EFE_SRC_STAT 0) % 0x20 == 0) = true ∧ (EFE_SRC_STAT n.val - EFE_SRC_STAT 0) / 0x20 = n.val := by decide

theorem readReg_srcStat {m : Nat} (n : Fin 16) {b : Block} (hm : accessMade m (EFE_SRC_STAT n.val) b = true) :
    readReg m (EFE_SRC_STAT n.val) 0 b = setResp m { data := [(statusRead n.val b).1] } (statusRead n.val b).2 := by
  obtain ⟨hin, hix⟩ := srcStat_is_element n
  have hkey : (⟨srcStatReg, n.val, false⟩ : RegHit).key = EFE_SRC_STAT n.val := rfl
  have hnarrow : srcStatReg.wide = false := rfl
  have hhit : readHit m ⟨srcStatReg, n.val, false⟩ 0 b = statusRead n.val b := by
    unfold readHit
    simp only [hkey, hnarrow, hin, hix, if_true, Bool.false_eq_true, if_false]
  rw [readReg_eq hm (inBlock_srcStat n)]
  unfold regRead
  rw [regAt_srcStat n]
  dsimp only
  rw [hhit]

/-- The register table's entry for EFE_MARK. -/
def markReg : RegHit := ⟨⟨0x40200028, 0x0, 1, false, 0x0, 0x0, 0x0, 0x0, 0x0, 0xffffffff, 0x0, 0x0⟩, 0, false⟩

theorem regAt_mark : regAt EFE_MARK = some markReg := by decide

theorem readReg_mark {m : Nat} {b : Block} (hm : accessMade m EFE_MARK b = true) :
    readReg m EFE_MARK 0 b = setResp m { data := [(markRead b).1] } (markRead b).2 := by
  have hhit : readHit m markReg 0 b = markRead b := by
    have hkey : markReg.key = EFE_MARK := rfl
    have hnarrow : markReg.desc.wide = false := rfl
    have hno : (decide (EFE_SRC_STAT 0 ≤ EFE_MARK ∧ EFE_MARK ≤ EFE_SRC_STAT 15) && (EFE_MARK - EFE_SRC_STAT 0) % 0x20 == 0) = false := by
      decide
    unfold readHit
    simp only [hkey, hnarrow, hno, if_true, Bool.false_eq_true, if_false]
  rw [readReg_eq hm (by decide)]
  unfold regRead
  rw [regAt_mark]
  dsimp only
  rw [hhit]

/-- A read of EFE_MARK answers the oldest tag, or 0, and leaves the rest. -/
theorem markRead_eq (b : Block) : markRead b = (b.efe.marks.headD 0, { b with efe := { b.efe with marks := b.efe.marks.tail } }) := by
  unfold markRead
  split
  · rename_i hnil
    refine Prod.ext (by rw [hnil]; rfl) ?_
    rw [hnil]
    show b = { b with efe := { b.efe with marks := [] } }
    rw [← hnil]
  · rename_i hcons
    rw [hcons]
    rfl

theorem markEvent_of_presents {s : State} {x : Timed} {rest : List Timed} (h : s.presents 0x11 x rest) :
    markEvent s.blk = mark x.ev.data (s.blk.presented rest) := by
  rw [markEvent, takePresented_of_presents h]

theorem mark_presented (tag : Word) (rest : List Timed) (b : Block) : mark tag (b.presented rest) =
    if b.efe.marks.length < 16 then
      ({ b.presented rest with efe := { b.efe with present := rest, marks := b.efe.marks ++ [tag] } }).flag EFE_IRQ_STAT_mark
    else ((b.presented rest).bump EFE_MARK_STAT_ovf).flag EFE_IRQ_STAT_mark_ovf := by
  have hmarks : (b.presented rest).efe.marks = b.efe.marks := rfl
  unfold mark
  rw [hmarks]
  by_cases h : b.efe.marks.length < 16
  · rw [if_neg (Nat.not_le.mpr h), if_pos h]
    rfl
  · rw [if_pos (Nat.not_lt.mp h), if_neg h]

/-- Settles O23. -/
theorem statusAndMarks : Obligations.StatusAndMarks := by
  unfold Obligations.StatusAndMarks
  refine ⟨fun m src s hlive hm => ⟨fun hempty => run_live_congr hlive ?empty, fun n code q hfront => run_live_congr hlive ?front⟩,
    fun s x rest hlive hx => run_live_congr hlive ?mark, fun m s hlive hm => run_live_congr hlive ?read⟩
  case empty =>
    refine (readReg_srcStat src hm).trans ?_
    unfold statusRead
    rw [hempty]
    rfl
  case front =>
    refine (readReg_srcStat src hm).trans ?_
    unfold statusRead
    rw [hfront]
    rfl
  case mark => exact (markEvent_of_presents hx).trans (mark_presented _ _ _)
  case read =>
    refine (readReg_mark hm).trans ?_
    rw [markRead_eq]
    rfl

/-! ### Discarded MIDI items (R67) -/

/-- The last byte's time is noted where the input senses (R71). -/
theorem touchSense_form (n t : Nat) (b : Block) : ∃ sense, touchSense n t b = { b with efe := { b.efe with sense := sense } } := by
  unfold touchSense
  split
  · exact ⟨b.efe.sense, rfl⟩
  · exact ⟨_, rfl⟩

theorem setSynced_of_mem {n : Nat} {b : Block} (h : n ∈ b.efe.synced) : setSynced n b = b := if_pos h

/-- The parse count after one more discarded item, with the sense timer at `sense`. -/
def parseCounted (n : Nat) (sense : FMap Nat) (b : Block) : Block :=
  { b with efe := { b.efe with sense := sense } }.bump (EFE_SRC_CNT_parse n)

theorem parseCounted_efe (n : Nat) (sense : FMap Nat) (b : Block) : (parseCounted n sense b).efe = { b.efe with sense := sense } := by
  simp [parseCounted]

/-- A discarded item of an enabled input that has seen a status byte: it is counted, and running status is cleared but for an undefined
real-time byte. -/
theorem midiError_form {n : Nat} (t : Nat) (e : ParseError) {b : Block} (hon : srcOn b n = true) (hsync : n ∈ b.efe.synced) :
    ∃ sense, midiError n t e b =
      if e = .undefinedRealTime then parseCounted n sense b else setRunning n 0 (parseCounted n sense b) := by
  obtain ⟨sense, hsense⟩ := touchSense_form n t b
  have hs : setSynced n (parseCounted n sense b) = parseCounted n sense b :=
    setSynced_of_mem (by rw [parseCounted_efe]; exact hsync)
  refine ⟨sense, ?_⟩
  unfold midiError
  simp only [hon, Bool.not_true, Bool.false_eq_true, if_false, hsense]
  cases e with
  | undefinedRealTime => exact hs
  | strayData => exact if_pos hsync
  | framing => rfl
  | cutMessage => exact congrArg (setRunning n 0) hs
  | strayEox => exact congrArg (setRunning n 0) hs
  | undefinedCommon => exact congrArg (setRunning n 0) hs

/-- The registers of event entry that the passing of time leaves alone. -/
theorem parse_not_timed : ∀ n : Fin 4, (EFE_SRC_CNT_parse n.val).addr ∉ timeRegs ∧ (EFE_SRC_CNT_parse n.val).addr ≠ CVO_STAT ∧
    (EFE_SRC_CNT_parse n.val).fits = true ∧ (EFE_SRC_CNT_parse n.val).max = 65535 := by decide

theorem nextNumber_apart : ∀ k : Fin 16, (EFE_SRC_SEQ_nxt k.val).addr ∉ timeRegs ∧ (EFE_SRC_SEQ_nxt k.val).addr ≠ CVO_STAT ∧
    ∀ n : Fin 4, (EFE_SRC_SEQ_nxt k.val).addr ≠ (EFE_SRC_CNT_parse n.val).addr := by decide

/-- What a discarded item of an enabled input that has seen a status byte leaves behind. -/
structure ParseErrorDone (n : Nat) (e : ParseError) (b c : Block) : Prop where
  count : c.get (EFE_SRC_CNT_parse n) = min (EFE_SRC_CNT_parse n).max (b.get (EFE_SRC_CNT_parse n) + 1)
  running : FMap.get (fun _ => 0) c.efe.running n = if e = .undefinedRealTime then FMap.get (fun _ => 0) b.efe.running n else 0
  waiting : c.efe.waiting = b.efe.waiting
  status : c.efe.status = b.efe.status
  others : ∀ f : Fld, f.addr ≠ (EFE_SRC_CNT_parse n).addr → c.get f = b.get f
  sys : c.sys = b.sys
  mem : c.mem = b.mem
  alc : c.alc = b.alc

theorem parseCounted_done {n : Nat} (hfits : (EFE_SRC_CNT_parse n).fits = true) (sense : FMap Nat) (b : Block) :
    ParseErrorDone n .undefinedRealTime b (parseCounted n sense b) where
  count := Block.get_bump _ hfits 1
  running := by rw [parseCounted_efe, if_pos rfl]
  waiting := by rw [parseCounted_efe]
  status := by rw [parseCounted_efe]
  others f hf := by rw [parseCounted, Block.bump_eq]; exact Block.get_put_ne _ _ hf
  sys := by simp [parseCounted]
  mem := by simp [parseCounted]
  alc := by simp [parseCounted]

theorem ParseErrorDone.cleared {n : Nat} {e : ParseError} {b c : Block} (h : ParseErrorDone n .undefinedRealTime b c)
    (he : e ≠ .undefinedRealTime) : ParseErrorDone n e b (setRunning n 0 c) :=
  { h with running := by rw [if_neg he]; exact FMap.get_set_same (fun _ => 0) c.efe.running n 0 }

theorem midiError_done {n : Nat} (t : Nat) (e : ParseError) {b : Block} (hon : srcOn b n = true) (hsync : n ∈ b.efe.synced)
    (hfits : (EFE_SRC_CNT_parse n).fits = true) : ParseErrorDone n e b (midiError n t e b) := by
  obtain ⟨sense, hform⟩ := midiError_form t e hon hsync
  rw [hform]
  split
  case isTrue he => exact he ▸ parseCounted_done hfits sense b
  case isFalse he => exact (parseCounted_done hfits sense b).cleared he

/-- Settles O24. -/
theorem parseErrorsCounted : Obligations.ParseErrorsCounted := by
  unfold Obligations.ParseErrorsCounted
  intro n e t s hlive hquiet hon hsync
  obtain ⟨htimed, hsafe, hfits, hmax⟩ := parse_not_timed n
  have hsame := advanceTo_sameBut t.toNat s.blk
  have hdone : ParseErrorDone n.val e (advanceTo t.toNat s.blk) (midiError n.val t.toNat e (advanceTo t.toNat s.blk)) :=
    midiError_done t.toNat e ((advanceTo_srcOn ..).trans hon) (by rw [hsame.efe]; exact hsync) hfits
  have hq : (midiError n.val t.toNat e (advanceTo t.toNat s.blk)).quiet := by
    unfold Block.quiet
    rw [hdone.sys]
    exact advanceTo_quiet _ hquiet
  refine ⟨_, at_live hlive t _, ?count, ?running, ?waiting, ?status, ?number, ?mem, ?alc⟩
  case count => rw [State.on, finish_get 0 hq hsafe, hdone.count, hmax, advanceTo_get _ _ htimed]
  case running => rw [State.on, finish_efe 0 hq, hdone.running, hsame.efe]
  case waiting => rw [State.on, finish_efe 0 hq, hdone.waiting, hsame.efe]
  case status => rw [State.on, finish_efe 0 hq, hdone.status, hsame.efe]
  case number =>
    intro k
    obtain ⟨ktimed, ksafe, kapart⟩ := nextNumber_apart k
    rw [State.on, finish_get 0 hq ksafe, hdone.others _ (kapart n), advanceTo_get _ _ ktimed]
  case mem => rw [State.on, finish_mem 0 hq, hdone.mem, hsame.mem]
  case alc => rw [State.on, finish_alc 0 hq, hdone.alc, hsame.alc]

end Sys2Proof.Machine

namespace Sys2Proof.Machine

/-! ### The ALU functions (R245) -/

/-- The flags z, n, c, v as bits 0–3. -/
def flagBits (z n c v : Bool) : Nat := z.toNat + 2 * n.toNat + 4 * c.toNat + 8 * v.toNat

theorem testBit_flagBits : ∀ z n c v : Bool, (flagBits z n c v).testBit 0 = z ∧ (flagBits z n c v).testBit 1 = n ∧
    (flagBits z n c v).testBit 2 = c ∧ (flagBits z n c v).testBit 3 = v := by decide

theorem ite_eq_mul_toNat (p : Prop) [Decidable p] (k : Nat) : (if p then k else 0) = k * (decide p).toNat := by
  by_cases h : p <;> simp [h]

theorem znOf_add (x : Word) (c v : Bool) : znOf x + 4 * c.toNat + 8 * v.toNat = flagBits (decide (x = 0)) x.msb c v := by
  unfold znOf flagBits
  rw [ite_eq_mul_toNat (x = 0), ite_eq_mul_toNat (x.msb = true), Nat.one_mul, Bool.decide_eq_true]

/-- A word is not the balanced remainder of an exact integer where that is out of range. -/
theorem ne_bmod_iff (x : Int) : x ≠ x.bmod (2 ^ 32) ↔ x < -(2 ^ 31) ∨ 2 ^ 31 ≤ x := by
  rw [Int.bmod_def]
  split <;> omega

theorem addOut_flags (a b : Word) : (addOut a b).flags = flagBits (decide (a + b = 0)) (a + b).msb (decide (2 ^ 32 ≤ a.toNat + b.toNat))
    (decide (a.toInt + b.toInt < -(2 ^ 31) ∨ 2 ^ 31 ≤ a.toInt + b.toInt)) := by
  have hv : a.toInt + b.toInt ≠ (a + b).toInt ↔ a.toInt + b.toInt < -(2 ^ 31) ∨ 2 ^ 31 ≤ a.toInt + b.toInt := by
    rw [BitVec.toInt_add]; exact ne_bmod_iff _
  rw [← decide_eq_decide.mpr hv, ← znOf_add, ← ite_eq_mul_toNat, ← ite_eq_mul_toNat]
  rfl

theorem subOut_flags (a b : Word) : (subOut a b).flags = flagBits (decide (a - b = 0)) (a - b).msb (decide (b.toNat ≤ a.toNat))
    (decide (a.toInt - b.toInt < -(2 ^ 31) ∨ 2 ^ 31 ≤ a.toInt - b.toInt)) := by
  have hv : a.toInt - b.toInt ≠ (a - b).toInt ↔ a.toInt - b.toInt < -(2 ^ 31) ∨ 2 ^ 31 ≤ a.toInt - b.toInt := by
    rw [BitVec.toInt_sub]; exact ne_bmod_iff _
  rw [← decide_eq_decide.mpr hv, ← znOf_add, ← ite_eq_mul_toNat, ← ite_eq_mul_toNat]
  rfl

theorem satHits_word (x : Int) : satHits 32 x = decide (x < -(2 ^ 31) ∨ 2 ^ 31 ≤ x) := by
  rw [Bool.eq_iff_iff, satHits, bne_iff_ne, decide_eq_true_iff, satInt]
  split
  · omega
  · split <;> omega

theorem satOut_flags (x : Int) : (satOut x).flags = flagBits (decide (sat32 x = 0)) (sat32 x).msb false
    (decide (x < -(2 ^ 31) ∨ 2 ^ 31 ≤ x)) := by
  rw [← satHits_word, ← znOf_add]
  show znOf _ + _ = _
  rw [ite_eq_mul_toNat, Bool.decide_eq_true]
  rfl

theorem outZN_flags (x : Word) : (outZN x).flags = flagBits (decide (x = 0)) x.msb false false :=
  (znOf_add x false false)

theorem toInt_sat32 (x : Int) : (sat32 x).toInt = max (-(2 ^ 31)) (min (2 ^ 31 - 1) x) := by
  have hrange : satInt 32 x = max (-(2 ^ 31)) (min (2 ^ 31 - 1) x) := by
    rw [satInt]
    split
    · omega
    · split <;> omega
  rw [sat32, hrange, BitVec.toInt_ofInt, Int.bmod_def]
  split <;> omega

/-- The z and n flags of every function are those of its result. -/
theorem aluOut_zn (fn : AluFn) (a b : Word) : ∃ c v, (aluOut fn a b).flags =
    flagBits (decide ((aluOut fn a b).val = 0)) (aluOut fn a b).val.msb c v := by
  cases fn with
  | add => exact ⟨_, _, addOut_flags a b⟩
  | sub => exact ⟨_, _, subOut_flags a b⟩
  | adds => exact ⟨_, _, satOut_flags _⟩
  | subs => exact ⟨_, _, satOut_flags _⟩
  | _ => exact ⟨_, _, outZN_flags _⟩

theorem toInt_mul16W (a b : Word) : (mul16W a b).toInt = (a.setWidth 16 : BitVec 16).toInt * (b.setWidth 16 : BitVec 16).toInt := by
  have half (x : BitVec 16) : x.toInt.natAbs ≤ 32768 := by have := x.isLt; rw [BitVec.toInt_eq_toNat_cond]; split <;> omega
  have hprod : ((a.setWidth 16 : BitVec 16).toInt * (b.setWidth 16 : BitVec 16).toInt).natAbs ≤ 32768 * 32768 := by
    rw [Int.natAbs_mul]
    exact Nat.mul_le_mul (half _) (half _)
  rw [mul16W, BitVec.toInt_ofInt, Int.bmod_def]
  split <;> omega

theorem shifts_far {a : Word} {n : Nat} (h : 32 ≤ n) : shlW a n = 0 ∧ shrW a n = 0 ∧ asrW a n = if a.msb then BitVec.allOnes 32 else 0 :=
  ⟨BitVec.shiftLeft_eq_zero h, BitVec.ushiftRight_eq_zero h, by
    ext i hi
    rw [asrW, BitVec.getElem_sshiftRight]
    split
    · omega
    · cases a.msb
      · simp
      · exact (BitVec.getElem_allOnes i hi).symm⟩

theorem toInt_asrW (a : Word) (n : Nat) : (asrW a n).toInt = a.toInt / 2 ^ n := by
  rw [asrW, BitVec.toInt_sshiftRight, Int.shiftRight_eq_div_pow, Int.natCast_pow]
  rfl

/-- Settles O30. -/
theorem aluFunctions : Obligations.AluFunctions := by
  unfold Obligations.AluFunctions
  intro a b
  have hadd := testBit_flagBits (decide (a + b = 0)) (a + b).msb (decide (2 ^ 32 ≤ a.toNat + b.toNat))
    (decide (a.toInt + b.toInt < -(2 ^ 31) ∨ 2 ^ 31 ≤ a.toInt + b.toInt))
  have hsub := testBit_flagBits (decide (a - b = 0)) (a - b).msb (decide (b.toNat ≤ a.toNat))
    (decide (a.toInt - b.toInt < -(2 ^ 31) ∨ 2 ^ 31 ≤ a.toInt - b.toInt))
  have hsat (x : Int) : (satOut x).flags.testBit 3 = decide (x < -(2 ^ 31) ∨ 2 ^ 31 ≤ x) := by
    rw [satOut_flags]; exact (testBit_flagBits ..).2.2.2
  rw [← addOut_flags] at hadd
  rw [← subOut_flags] at hsub
  obtain ⟨-, -, haddc, haddv⟩ := hadd
  obtain ⟨-, -, hsubc, hsubv⟩ := hsub
  refine ⟨rfl, haddc, haddv, rfl, hsubc, hsubv, toInt_sat32 _, hsat _, toInt_sat32 _, fun h => shifts_far h,
    fun _ => ⟨rfl, rfl, toInt_asrW a _⟩, rfl, rfl, rfl, ?min, ?max, ?abs, toInt_mul16W a b, fun fn => ?zn, fun fn => ?mask⟩
  case min =>
    show (if a.slt b then a else b).toInt = _
    simp only [BitVec.slt_eq_decide, apply_ite BitVec.toInt, decide_eq_true_eq]
    split <;> omega
  case max =>
    show (if a.slt b then b else a).toInt = _
    simp only [BitVec.slt_eq_decide, apply_ite BitVec.toInt, decide_eq_true_eq]
    split <;> omega
  case abs =>
    refine (toInt_sat32 _).trans ?_
    omega
  case zn =>
    obtain ⟨c, v, hflags⟩ := aluOut_zn fn a b
    rw [hflags]
    obtain ⟨hz, hn, -, -⟩ := testBit_flagBits (decide ((aluOut fn a b).val = 0)) (aluOut fn a b).val.msb c v
    exact ⟨hz, hn⟩
  case mask => cases fn <;> rfl

/-! ### The table reads (R267, R358) -/

/-- A read of a plain register answers what `readHit` gives for its address, whatever its descriptor. -/
theorem readReg_plain {m a : Nat} {hw : Word} {b : Block} {x : Word × Block} (hp : plainReg a = true) (hm : accessMade m a b = true)
    (hx : ∀ r : RegHit, r.key = a → r.desc.wide = false → readHit m r hw b = x) : readReg m a hw b = setResp m { data := [x.1] } x.2 := by
  obtain ⟨r, -, hkey, hnarrow, hread⟩ := readReg_of hp hm
  rw [hread, hx r hkey hnarrow]

/-- The registers whose reads are of their own kind: none is a status FIFO. -/
theorem tables_notStatus : ∀ a ∈ [DCH_CROM_DATA, LEG_TBL_DATA],
    (decide (EFE_SRC_STAT 0 ≤ a ∧ a ≤ EFE_SRC_STAT 15) && (a - EFE_SRC_STAT 0) % 0x20 == 0) = false := by decide

theorem plainReg_tables : plainReg DCH_CROM_DATA = true ∧ plainReg LEG_TBL_DATA = true := by decide

theorem readHit_cromData (m : Nat) (hw : Word) (b : Block) {r : RegHit} (hkey : r.key = DCH_CROM_DATA) (hnarrow : r.desc.wide = false) :
    readHit m r hw b = cromRead b := by
  have hmark : ¬ DCH_CROM_DATA = EFE_MARK := by decide
  unfold readHit
  simp only [hkey, hnarrow, tables_notStatus DCH_CROM_DATA (by decide), if_neg hmark, Bool.false_eq_true, if_false, if_true]

theorem readHit_tblData (m : Nat) (hw : Word) (b : Block) {r : RegHit} (hkey : r.key = LEG_TBL_DATA) (hnarrow : r.desc.wide = false) :
    readHit m r hw b = tblRead b := by
  have hmark : ¬ LEG_TBL_DATA = EFE_MARK := by decide
  have hcrom : ¬ LEG_TBL_DATA = DCH_CROM_DATA := by decide
  unfold readHit
  simp only [hkey, hnarrow, tables_notStatus LEG_TBL_DATA (by decide), if_neg hmark, if_neg hcrom, Bool.false_eq_true, if_false, if_true]

theorem coefAt_beyond {set part j : Nat} (h : setTaps set part ≤ j) : coefAt set part j = 0 := if_pos h

theorem setTaps_unlisted (part : Nat) : setTaps 7 part = 0 ∧ setTaps 4 part = 0 := by
  constructor <;> match part with
  | 0 | 1 | 2 | 3 => rfl
  | _ + 4 => rfl

/-- Settles O32. -/
theorem tableReads : Obligations.TableReads := by
  unfold Obligations.TableReads
  refine ⟨⟨fun m s hlive hm => run_live_congr hlive ?crom, fun part j => coefAt_beyond ?seven, fun part j => coefAt_beyond ?four,
    fun j h => coefAt_beyond h, fun j h => coefAt_beyond h, fun j h => coefAt_beyond h, fun j h => coefAt_beyond h⟩,
    fun m s hlive hm => run_live_congr hlive ?table⟩
  case crom =>
    refine (readReg_plain plainReg_tables.1 hm fun r hkey hnarrow => readHit_cromData m.val 0 s.blk hkey hnarrow).trans ?_
    rfl
  case seven => rw [(setTaps_unlisted part).1]; exact Nat.zero_le j
  case four => rw [(setTaps_unlisted part).2]; exact Nat.zero_le j
  case table =>
    refine (readReg_plain plainReg_tables.2 hm fun r hkey hnarrow => readHit_tblData m.val 0 s.blk hkey hnarrow).trans ?_
    rfl

end Sys2Proof.Machine

namespace Sys2Proof.Machine

/-! ### Writes of register arrays -/

/-- The array whose element a register is, of those whose writes have an effect of their own, by its place in `writeElement`, and the
index in it. -/
def elementAt (k : Nat) : Option (Nat × Nat) :=
  ((elemOf k (TBU_CMP_CFG 0) 0x10 16).map (Prod.mk 0)).or
  (((elemOf k (TBU_TMR_RLD 0) 0x10 8).map (Prod.mk 1)).or
  (((elemOf k (EFE_MPE 0) 4 20).map (Prod.mk 2)).or
  (((elemOf k (MIX_RGAIN 0) 4 256).map (Prod.mk 3)).or
  (((elemOf k (DCH_LCFG 0) 4 256).map (Prod.mk 4)).or
  (((elemOf k (DCH_ICFG 0) 4 128).map (Prod.mk 5)).or
  (((elemOf k (SAP_CTL 0) 0x1000 8).map (Prod.mk 6)).or
  (((elemOf k (SAP_CFG 0) 0x1000 8).map (Prod.mk 7)).or
  (((elemOf k (SAP_MASK 0) 0x1000 8).map (Prod.mk 8)).or
  (((elemOf k (SAP_CHMAP 0) 0x1000 8).map (Prod.mk 9)).or
  (((elemOf k (CVO_CH_CFG 0) 0x20 32).map (Prod.mk 10)).or
  (((elemOf k (CVO_CH_VAL 0) 0x20 32).map (Prod.mk 11)).or
  (((elemOf k (MEM_BANK_OWN 0) 4 96).map (Prod.mk 12)).or
  ((elemOf k (BMX_DMA_CTL 0) 0x20 4).map (Prod.mk 13))))))))))))))

/-- What writing element `n` of array `i` does. -/
def elementWrite (i n : Nat) (v : Word) (h : RegHit) (b : Block) : Block :=
  match i with
  | 0 => compareCfg n v b
  | 1 => timerReload n v b
  | 2 => writeZones n v b
  | 3 => if (headOf b n).isSome then writeCodes h v.toNat 0 b else b
  | 4 => laneWrite n v b
  | 5 => inputWrite n v b
  | 6 => sapCtlWrite n v b
  | 7 => if b.on SYS_CTL_cfg_lock then b else sapCfgWrite n v b
  | 8 => sapPending n (writeCodes h v.toNat 0 b)
  | 9 => sapPending n (writeCodes h v.toNat 0 b)
  | 10 => cvCfgWrite n v b
  | 11 => cvValWrite n v b
  | 12 => bankWrite n v b
  | _ => dmaCtlWrite n v b

theorem writeElement_eq (k : Nat) (v : Word) (h : RegHit) (b : Block) :
    writeElement k v h b = (elementAt k).map fun x => elementWrite x.1 x.2 v h b := by
  unfold elementAt
  simp only [Option.map_or, Option.map_map]
  rfl

/-- A register at its own address that is element `n` of array `i`. -/
def elementReg (i n a : Nat) : Bool := plainReg a && decide (a ∉ singles) && elementAt a == some (i, n)

theorem writeReg_elementReg {m a i n : Nat} {v : Word} {b : Block} (ha : elementReg i n a = true) (hm : accessMade m a b = true)
    {f : Block → Block} (hf : ∀ r, elementWrite i n v r b = f b) : writeReg m a v 0 b = wrote m f b := by
  simp only [elementReg, Bool.and_eq_true, decide_eq_true_eq, beq_iff_eq] at ha
  obtain ⟨⟨hplain, hsingle⟩, hat⟩ := ha
  refine writeReg_of_element hplain hsingle hm (no_hw a) fun r _ => ?_
  rw [writeElement_eq, hat]
  exact congrArg some (hf r)

theorem elementReg_sapCtl : ∀ n : Fin 8, elementReg 6 n.val (SAP_CTL n.val) = true := by decide
theorem elementReg_sapCfg : ∀ n : Fin 8, elementReg 7 n.val (SAP_CFG n.val) = true := by decide
theorem elementReg_cvVal : ∀ n : Fin 32, elementReg 11 n.val (CVO_CH_VAL n.val) = true := by decide
theorem elementReg_bankOwn : ∀ n : Fin 96, elementReg 12 n.val (MEM_BANK_OWN n.val) = true := by decide
theorem elementReg_dmaCtl : ∀ c : Fin 4, elementReg 13 c.val (BMX_DMA_CTL c.val) = true := by decide

end Sys2Proof.Machine

namespace Sys2Proof.Machine

/-! ### Serial audio ports (R284, R288, R291) -/

/-- The cycle in which a change of SAP_CTL.en to `v` counts from: a change undone in its own cycle is none. -/
theorem sapCtlWrite_enT (n v : Nat) (b : Block) :
    (if decide (b.get (SAP_CTL_en n) ≠ v) = true then (if (sapPort b n).enT = some b.now then none else some b.now) else (sapPort b n).enT) =
      if b.get (SAP_CTL_en n) = v then (sapPort b n).enT else if (sapPort b n).enT = some b.now then none else some b.now := by
  by_cases h : b.get (SAP_CTL_en n) = v <;> simp [h]

theorem sapCtlWrite_restart (n : Nat) (en : Bool) (b : Block) : sapCtlWrite n (if en then 3 else 2) b =
    (setSapPort n { sapPort b n with
      enT := if b.get (SAP_CTL_en n) = (if en then 1 else 0) then (sapPort b n).enT else if (sapPort b n).enT = some b.now then none else some b.now
      restartT := if b.on (SAP_CTL_restart n) then (sapPort b n).restartT else some b.now }
        (b.put (SAP_CTL_en n) (if en then 1 else 0))).put (SAP_CTL_restart n) 1 := by
  rw [← sapCtlWrite_enT]
  cases hr : b.on (SAP_CTL_restart n) <;> cases en <;> (unfold sapCtlWrite; simp only [hr]; rfl)

theorem sapCtlWrite_enable (n : Nat) (en : Bool) (b : Block) : sapCtlWrite n (if en then 1 else 0) b =
    setSapPort n { sapPort b n with
      enT := if b.get (SAP_CTL_en n) = (if en then 1 else 0) then (sapPort b n).enT else if (sapPort b n).enT = some b.now then none else some b.now }
        (b.put (SAP_CTL_en n) (if en then 1 else 0)) := by
  rw [← sapCtlWrite_enT]
  cases en <;> rfl

/-- The block after the clock of a running port is lost, but for the port's own state. -/
def clockLostRegs (n : Nat) (b : Block) : Block :=
  (((b.put (SAP_STAT_clk n) 0).bump (SAP_ERR_clk_lost n)).flag (SAP_IRQ_STAT_clk_lost n)).setNum (SAP_FRATE n) 0

theorem sapClockLost_running {n : Nat} {b : Block} (hen : b.on (SAP_CTL_en n) = true) (hclk : b.on (SAP_STAT_clk n) = true) :
    sapClockLost n b = setSapPort n { sapPort b n with lost := true, rateN := 0 } (clockLostRegs n b) := by
  unfold sapClockLost
  rw [hen, hclk]
  rfl

/-- The registers that a lost clock writes lie apart. -/
theorem clockLost_apart : ∀ n : Fin 8,
    ((SAP_STAT_clk n.val).addr ≠ SAP_FRATE n.val ∧ (SAP_ERR_clk_lost n.val).addr ≠ SAP_FRATE n.val ∧
      (SAP_IRQ_STAT_clk_lost n.val).addr ≠ SAP_FRATE n.val) ∧
    ((SAP_STAT_clk n.val).addr ≠ (SAP_IRQ_STAT_clk_lost n.val).addr ∧ (SAP_STAT_clk n.val).addr ≠ (SAP_ERR_clk_lost n.val).addr ∧
      (SAP_ERR_clk_lost n.val).addr ≠ (SAP_IRQ_STAT_clk_lost n.val).addr ∧ (SAP_ERR_clk_lost n.val).addr ≠ (SAP_STAT_clk n.val).addr) ∧
    ((SAP_STAT_clk n.val).addr ≠ CVO_STAT ∧ (SAP_ERR_clk_lost n.val).addr ≠ CVO_STAT ∧ (SAP_IRQ_STAT_clk_lost n.val).addr ≠ CVO_STAT) ∧
    (SAP_STAT_clk n.val).fits = true ∧ (SAP_ERR_clk_lost n.val).fits = true ∧ (SAP_IRQ_STAT_clk_lost n.val).fits = true ∧
      1 % 2 ^ (SAP_IRQ_STAT_clk_lost n.val).width = 1 := by decide

theorem clockLostRegs_gets (n : Fin 8) (b : Block) : (clockLostRegs n.val b).get (SAP_STAT_clk n.val) = 0 ∧
    (clockLostRegs n.val b).get (SAP_ERR_clk_lost n.val) = min (SAP_ERR_clk_lost n.val).max (b.get (SAP_ERR_clk_lost n.val) + 1) ∧
    (clockLostRegs n.val b).get (SAP_IRQ_STAT_clk_lost n.val) = 1 := by
  obtain ⟨⟨h1, h2, h3⟩, ⟨h4, h5, h6, h7⟩, -, hs, he, hi, hone⟩ := clockLost_apart n
  refine ⟨?stat, ?err, ?irq⟩
  case stat =>
    rw [clockLostRegs, Block.setNum_eq, Block.get_wr_ne _ _ h1, Block.flag_eq, Block.get_put_ne _ _ h4, Block.bump_eq, Block.get_put_ne _ _ h5,
      Block.get_put _ hs, Nat.zero_mod]
  case err =>
    rw [clockLostRegs, Block.setNum_eq, Block.get_wr_ne _ _ h2, Block.flag_eq, Block.get_put_ne _ _ h6, Block.get_bump _ he, Block.get_put_ne _ _ h7]
  case irq => rw [clockLostRegs, Block.setNum_eq, Block.get_wr_ne _ _ h3, Block.flag_eq, Block.get_put _ hi, hone]

/-- Settles O33. -/
theorem sapCommands : Obligations.SapCommands := by
  unfold Obligations.SapCommands
  refine ⟨fun n s hlive hquiet hen hclk => ?lost, fun m n s hlive => ⟨fun hm en => ⟨run_live_congr hlive ?restart,
    run_live_congr hlive ?enable⟩, fun hm v => run_live_congr hlive ?cfg⟩⟩
  case lost =>
    obtain ⟨-, -, ⟨hs, he, hi⟩, -⟩ := clockLost_apart n
    obtain ⟨hstat, herr, hirq⟩ := clockLostRegs_gets n s.blk
    have hform := sapClockLost_running hen hclk
    have hq : (setSapPort n.val { sapPort s.blk n.val with lost := true, rateN := 0 } (clockLostRegs n.val s.blk)).quiet := by
      unfold Block.quiet at *
      simpa [clockLostRegs] using hquiet
    refine ⟨_, (run_live hlive _).trans (congrArg _ (on_congr (g := fun _ => _) hform)), ?_⟩
    refine ⟨?_, ?_, ?_, ?_, fun k hk => ?_, ?_, ?_⟩
    · exact (finish_get 0 hq hs).trans hstat
    · exact (finish_get 0 hq he).trans herr
    · exact (finish_get 0 hq hi).trans hirq
    · rw [sapPort, State.on, finish_sap 0 hq]
      simp [setSapPort]
    · rw [sapPort, State.on, finish_sap 0 hq]
      simp [setSapPort, clockLostRegs, FMap.get_set_ne _ _ _ hk, sapPort]
    · exact (finish_mem 0 hq).trans (by simp [clockLostRegs])
    · exact (finish_tbu 0 hq).trans (by simp [clockLostRegs])
  case restart =>
    refine (writeReg_elementReg (elementReg_sapCtl n) hm (f := sapCtlWrite n.val (if en then 3 else 2)) fun _ => rfl).trans ?_
    exact congrArg (setResp m.val {}) (sapCtlWrite_restart n.val en s.blk)
  case enable =>
    refine (writeReg_elementReg (elementReg_sapCtl n) hm (f := sapCtlWrite n.val (if en then 1 else 0)) fun _ => rfl).trans ?_
    exact congrArg (setResp m.val {}) (sapCtlWrite_enable n.val en s.blk)
  case cfg =>
    exact writeReg_elementReg (elementReg_sapCfg n) hm
      (f := fun b => if b.on SYS_CTL_cfg_lock then b else sapCfgWrite n.val v b) fun _ => rfl

end Sys2Proof.Machine

namespace Sys2Proof.Machine

/-! ### CV channels (R299, R303) -/

theorem cvClearPin_low (b : Block) : cvClearPin true b =
    if b.on CVO_STAT_clr_pin then b else (b.put CVO_STAT_clr_pin 1).put CVO_IRQ_STAT_clr 1 := by
  unfold cvClearPin
  cases b.on CVO_STAT_clr_pin <;> rfl

theorem cvClearPin_high (b : Block) : cvClearPin false b =
    if b.on CVO_STAT_clr_pin then (b.put CVO_STAT_clr_pin 0).put CVO_IRQ_STAT_clr_rel 1 else b := by
  unfold cvClearPin
  cases b.on CVO_STAT_clr_pin <;> rfl

/-- Settles O34. -/
theorem cvWrites : Obligations.CvWrites := by
  unfold Obligations.CvWrites
  refine ⟨fun m n v s hlive hm => run_live_congr hlive ?write,
    fun s hlive => ⟨run_live_congr hlive (cvClearPin_low s.blk), run_live_congr hlive (cvClearPin_high s.blk)⟩⟩
  case write => exact writeReg_elementReg (elementReg_cvVal n) hm (f := cvValWrite n.val v) fun _ => rfl

/-! ### Bank handovers (R313) -/

/-- A command that runs ends in the block that its effect gives. -/
theorem run_ends {s : State} {f : Block → Block} {c : Block} (hlive : s.live) (h : f s.blk = c) :
    s.run f = .next { s with blk := finish 0 c } := h ▸ run_live hlive f

/-- A write of MEM_BANK_OWNn with a code that R315 allows, and without clearing ign. -/
theorem bankWrite_allowed {n : Nat} {v : Word} (b : Block) (hign : v.getLsbD 9 = false) (hcode : v.toNat % 16 ≤ 8)
    (hx : n = 30 ∨ n = 31 → v.toNat % 16 ≤ 1) : bankWrite n v b =
      if b.on (MEM_BANK_OWN_pending n) then b.put (MEM_BANK_OWN_ign n) 1
      else if b.get (MEM_BANK_OWN_owner n) = v.toNat % 16 then b
      else bankPending n true ((b.put (MEM_BANK_OWN_nxt n) (v.toNat % 16)).put (MEM_BANK_OWN_pending n) 1) := by
  have hno : ¬ (v.toNat % 16 ≥ 9 ∨ ((n = 30 ∨ n = 31) ∧ v.toNat % 16 ≥ 2)) := by
    rintro (h | ⟨h, h'⟩)
    · omega
    · have := hx h; omega
  unfold bankWrite
  simp only [hign, Bool.false_eq_true, if_false, if_neg hno]

theorem writeReg_bankOwn {m : Nat} {n : Fin 96} {v : Word} {b : Block} (hm : accessMade m (MEM_BANK_OWN n.val) b = true) :
    writeReg m (MEM_BANK_OWN n.val) v 0 b = wrote m (bankWrite n.val v) b :=
  writeReg_elementReg (elementReg_bankOwn n) hm fun _ => rfl

/-- The registers of a bank after its handover. -/
def ownerTaken (n : Nat) (b : Block) : Block :=
  ((b.put (MEM_BANK_OWN_owner n) (b.get (MEM_BANK_OWN_nxt n))).put (MEM_BANK_OWN_nxt n) 0).put (MEM_BANK_OWN_pending n) 0

/-- A bank after its handover, with what the memories hold. -/
def handedOver (n : Nat) (mm : Mem) (b : Block) : Block :=
  { (ownerTaken n b).clrBit (MEM_BANK_STAT_pending (n / 32)) (n % 32) with mm := mm }

/-- With no access held, the handover is a change of registers and an empty entry of the held accesses. -/
theorem handoverComplete_free {n : Nat} {b : Block} (hp : b.on (MEM_BANK_OWN_pending n) = true)
    (hheld : FMap.get (fun _ => []) b.mm.held n = []) : ∃ mm, handoverComplete n b = handedOver n mm b := by
  unfold handoverComplete
  rw [hp, if_pos rfl]
  dsimp only
  rw [hheld]
  exact ⟨_, rfl⟩

/-- MEM_BANK_OWNn lies apart from the summary of pending banks and from the registers of the other banks. -/
theorem bankOwn_apart : ∀ n : Fin 96, (MEM_BANK_OWN_owner n.val).addr ≠ CVO_STAT ∧
    (∀ i : Fin 3, (MEM_BANK_OWN_owner n.val).addr ≠ (MEM_BANK_STAT_pending i.val).addr) := by decide

theorem bankOwn_fields : ∀ n : Fin 96, ((MEM_BANK_OWN_owner n.val).fits = true ∧ (MEM_BANK_OWN_nxt n.val).fits = true ∧
    (MEM_BANK_OWN_pending n.val).fits = true) ∧ (MEM_BANK_OWN_nxt n.val).apart (MEM_BANK_OWN_owner n.val) = true ∧
    (MEM_BANK_OWN_pending n.val).apart (MEM_BANK_OWN_owner n.val) = true := by decide

theorem bankOwn_ne {n k : Nat} (h : k ≠ n) : (MEM_BANK_OWN_owner k).addr ≠ (MEM_BANK_OWN_owner n).addr := by
  simp only [MEM_BANK_OWN_owner, MEM_BANK_OWN]
  omega

theorem get_lt (b : Block) (f : Fld) : b.get f < 2 ^ f.width := Nat.mod_lt _ (Nat.two_pow_pos _)

theorem ownerTaken_owner (n : Fin 96) (b : Block) :
    (ownerTaken n.val b).get (MEM_BANK_OWN_owner n.val) = b.get (MEM_BANK_OWN_nxt n.val) := by
  obtain ⟨⟨ho, hn, hp⟩, hno, hpo⟩ := bankOwn_fields n
  rw [ownerTaken, Block.get_put_apart _ _ hp ho rfl hpo, Block.get_put_apart _ _ hn ho rfl hno, Block.get_put _ ho]
  exact Nat.mod_eq_of_lt (get_lt b (MEM_BANK_OWN_nxt n.val))

theorem ownerTaken_pending (n : Fin 96) (b : Block) : (ownerTaken n.val b).get (MEM_BANK_OWN_pending n.val) = 0 := by
  obtain ⟨⟨-, -, hp⟩, -⟩ := bankOwn_fields n
  rw [ownerTaken, Block.get_put _ hp, Nat.zero_mod]

theorem ownerTaken_others {n k : Nat} (h : k ≠ n) (b : Block) : (ownerTaken n b).get (MEM_BANK_OWN_owner k) = b.get (MEM_BANK_OWN_owner k) := by
  have hne := bankOwn_ne h
  rw [ownerTaken, Block.get_put_ne (f := MEM_BANK_OWN_pending n) _ _ hne, Block.get_put_ne (f := MEM_BANK_OWN_nxt n) _ _ hne,
    Block.get_put_ne _ _ hne]

theorem handedOver_get (mm : Mem) (b : Block) (n k : Fin 96) {f : Fld} (hf : f.addr = (MEM_BANK_OWN_owner k.val).addr) :
    (handedOver n.val mm b).get f = (ownerTaken n.val b).get f := by
  have hi : n.val / 32 < 3 := by omega
  have hne := (bankOwn_apart k).2 ⟨n.val / 32, hi⟩
  show ((ownerTaken n.val b).clrBit (MEM_BANK_STAT_pending (n.val / 32)) (n.val % 32)).get f = _
  rw [Block.clrBit_eq, Block.get_put_ne _ _ (hf ▸ hne)]

/-- Settles O35. -/
theorem bankHandover : Obligations.BankHandover := by
  unfold Obligations.BankHandover
  refine ⟨fun m n v s hlive hm hign hcode hx => ?write, fun n s hlive hquiet hp hheld => ?complete⟩
  case write =>
    have hform := bankWrite_allowed (n := n.val) s.blk hign hcode hx
    refine ⟨fun hp => ?_, fun hp howner => ?_, fun hp howner => ?_⟩ <;> refine run_live_congr hlive ((writeReg_bankOwn hm).trans ?_)
    · exact congrArg (setResp m.val {}) (hform.trans (if_pos hp))
    · exact congrArg (setResp m.val {}) (hform.trans ((if_neg hp).trans (if_pos howner)))
    · exact congrArg (setResp m.val {}) (hform.trans ((if_neg hp).trans (if_neg howner)))
  case complete =>
    obtain ⟨mm, hform⟩ := handoverComplete_free hp hheld
    have hq : (handedOver n.val mm s.blk).quiet := by
      unfold Block.quiet at *
      simpa [handedOver, ownerTaken] using hquiet
    have hsafe (k : Fin 96) := (bankOwn_apart k).1
    refine ⟨_, run_ends hlive hform, ?_, ?_, ?_, fun k hk => ?_⟩
    · exact (finish_get 0 hq (hsafe n)).trans ((handedOver_get mm s.blk n n rfl).trans (ownerTaken_owner n s.blk))
    · exact (finish_get (f := MEM_BANK_OWN_pending n.val) 0 hq (hsafe n)).trans
        ((handedOver_get (f := MEM_BANK_OWN_pending n.val) mm s.blk n n rfl).trans (ownerTaken_pending n s.blk))
    · exact (finish_mem 0 hq).trans (by simp [handedOver, ownerTaken])
    · exact (finish_get 0 hq (hsafe k)).trans ((handedOver_get mm s.blk n k rfl).trans (ownerTaken_others (fun h => hk (Fin.ext h)) s.blk))

/-! ### Captures (R314) -/

/-- The registers whose read releases a capture, with the bits that a read returns and clears. -/
def captureReg (a seen rc : Nat) : Bool :=
  plainReg a && !isShown a && decide (a ∉ [EFE_MARK, DCH_CROM_DATA, LEG_TBL_DATA, SEC_TRNG]) &&
    decide (∀ n : Fin 16, a ≠ EFE_SRC_STAT n.val) && (regAt a).all fun h =>
      decide ((h.desc.rw ||| h.desc.rwl ||| h.desc.w1c ||| h.desc.w1s ||| h.desc.rc ||| h.desc.ro) = seen) && decide (h.desc.rc = rc)

theorem captureRegs : captureReg MEM_ECC_CAP_INFO 0x80FF07FF 0x80000000 = true ∧ captureReg MEM_NOCAP_INFO 0x80000F1F 0x80000000 = true ∧
    captureReg BMX_DEFCAP_INFO 0x8003FFFF 0x80000000 = true := by decide

/-- The capture register at `a` after a read: the bits of `rc` are clear. -/
def captureFreed (a rc : Nat) (b : Block) : Block := b.wr a (b.rd a &&& ~~~ BitVec.ofNat 64 rc)

theorem readReg_capture {m a seen rc : Nat} {b : Block} (ha : captureReg a seen rc = true) (hm : accessMade m a b = true) :
    readReg m a 0 b = setResp m { data := [(b.rd a &&& BitVec.ofNat 64 seen).lo] } (captureFreed a rc b) := by
  simp only [captureReg, Bool.and_eq_true, Bool.not_eq_true', decide_eq_true_eq] at ha
  obtain ⟨⟨⟨⟨hplain, hshown⟩, hkind⟩, hstat⟩, hdesc⟩ := ha
  obtain ⟨r, hr, hkey, hnarrow, hread⟩ := readReg_of (hw := 0) hplain hm
  rw [hr] at hdesc
  simp only [Option.all_some, Bool.and_eq_true, decide_eq_true_eq] at hdesc
  obtain ⟨hseen, hrc⟩ := hdesc
  have hfreed : clearRc r 0 b = captureFreed a rc b := by
    unfold clearRc captureFreed
    dsimp only
    rw [hkey, hrc, Nat.zero_and, BitVec.or_zero]
  rw [hread, readHit_codes hnarrow (hkey ▸ hkind) (hkey ▸ hstat), hkey, shownValue_plain hshown, hseen]
  exact congrArg (setResp m _) hfreed

/-- The lowest bits of a word's double. -/
theorem lo_and (x : Long) (k : Nat) : (x &&& BitVec.ofNat 64 k).lo = x.lo &&& BitVec.ofNat 32 k := by
  ext i hi
  simp only [Long.lo]
  simp [show i < 64 by omega]

theorem captureFreed_valid {a : Nat} (b : Block) : (captureFreed a 0x80000000 b).get ⟨a, 31, 31⟩ = 0 := by
  show Fld.of ⟨a, 31, 31⟩ ((captureFreed a 0x80000000 b).rd a) = 0
  refine Nat.eq_of_testBit_eq fun i => ?_
  rw [captureFreed, Block.rd_wr, Fld.testBit_of, Nat.zero_testBit]
  by_cases hi : i = 0
  · subst hi
    simp
  · have : ¬ i < 1 := by omega
    simp [Fld.width, this]

/-- What a read that releases the capture at `a` leaves behind it. -/
theorem captureRead_run {m : Master} {s : State} {a seen : Nat} (hlive : s.live) (hquiet : s.blk.quiet) (hm : s.grants m.val a)
    (ha : captureReg a seen 0x80000000 = true) (hsafe : a ≠ CVO_STAT) :
    ∃ t, s.run (readReg m.val a 0) = .next t ∧ t.blk.get ⟨a, 31, 31⟩ = 0 ∧ (∀ k, k ≠ a → k ≠ CVO_STAT → t.blk.num k = s.blk.num k) ∧
      (FMap.get (fun _ => {}) t.blk.bus.resp m.val).data = [(s.blk.rd a).lo &&& BitVec.ofNat 32 seen] := by
  refine ⟨_, run_ends hlive (readReg_capture ha hm), ?_, fun k hk hks => ?_, ?_⟩
  all_goals
    have hq : (setResp m.val { data := [(s.blk.rd a &&& BitVec.ofNat 64 seen).lo] } (captureFreed a 0x80000000 s.blk)).quiet := by
      unfold Block.quiet at *
      simpa [captureFreed] using hquiet
  · exact (finish_get 0 hq hsafe).trans (captureFreed_valid s.blk)
  · exact (finish_num 0 hq hks).trans (Block.num_wr_ne _ _ hk)
  · rw [finish_bus 0 hq, lo_and]
    simp [setResp]

/-- Settles O36. -/
theorem capturesReleased : Obligations.CapturesReleased := by
  unfold Obligations.CapturesReleased
  obtain ⟨hecc, howner, hdecode⟩ := captureRegs
  refine fun m s hlive hquiet => ⟨fun hm => ?_, fun hm => ?_, fun hm => ?_⟩
  · obtain ⟨t, hrun, hvalid, hrest, hdata⟩ := captureRead_run hlive hquiet hm hecc (by decide)
    exact ⟨t, hrun, hvalid, hrest _ (by decide) (by decide), hdata⟩
  · obtain ⟨t, hrun, hvalid, -, hdata⟩ := captureRead_run hlive hquiet hm howner (by decide)
    exact ⟨t, hrun, hvalid, hdata⟩
  · obtain ⟨t, hrun, hvalid, -, hdata⟩ := captureRead_run hlive hquiet hm hdecode (by decide)
    exact ⟨t, hrun, hvalid, hdata⟩

/-! ### DMA aborts (R334) -/

/-- A write of BMX_DMA_CTL that aborts and does not start. -/
theorem dmaCtlWrite_abort {c : Nat} {v : Word} (b : Block) (hstart : v.getLsbD 0 = false) : dmaCtlWrite c (v ||| 2) b =
    dmaAbort c ((b.put (BMX_DMA_CTL_as c) ((v ||| 2).toNat / 4 % 2)).put (BMX_DMA_CTL_irq c) ((v ||| 2).toNat / 8 % 2)) := by
  have h0 : (v ||| 2).getLsbD 0 = false := by rw [BitVec.getLsbD_or, hstart]; rfl
  have h1 : (v ||| 2).getLsbD 1 = true := by rw [BitVec.getLsbD_or]; simp
  unfold dmaCtlWrite
  simp only [h0, h1, Bool.false_eq_true, if_false, if_true]

/-- Settles O37. -/
theorem dmaAborts : Obligations.DmaAborts := by
  unfold Obligations.DmaAborts
  intro m c v s hlive hm hstart
  have hwrite := (writeReg_elementReg (elementReg_dmaCtl c) hm (f := dmaCtlWrite c.val (v ||| 2)) fun _ => rfl).trans
    (congrArg (setResp m.val {}) (dmaCtlWrite_abort s.blk hstart))
  refine ⟨fun hidle => run_live_congr hlive (hwrite.trans ?_), fun x hx => run_live_congr hlive (hwrite.trans ?_)⟩
  · unfold dmaAbort
    simp only [Block.put_mm, hidle]
    rfl
  · unfold dmaAbort
    simp only [Block.put_mm, hx]
    rfl

end Sys2Proof.Machine

namespace Sys2Proof.Machine

/-! ### Fields of other bits -/

/-- Two fields share no bit: they lie in different registers, or apart in one. -/
def Fld.disjoint (f g : Fld) : Bool := decide (g.addr ≠ f.addr) || (f.fits && g.fits && decide (g.addr = f.addr) && f.apart g)

theorem Block.get_put_disjoint (b : Block) {f g : Fld} (v : Nat) (h : f.disjoint g = true) : (b.put f v).get g = b.get g := by
  simp only [Fld.disjoint, Bool.or_eq_true, Bool.and_eq_true, decide_eq_true_eq] at h
  obtain hne | ⟨⟨⟨hf, hg⟩, haddr⟩, hapart⟩ := h
  · exact Block.get_put_ne b v hne
  · exact Block.get_put_apart b v hf hg haddr hapart

/-! ### The DV32 position (R362) -/

/-- Instance `i` after a read of POS0 with position `pos` selected. -/
def posLatched (i pos : Nat) (b : Block) : Block := setDvPort i { dvPort b i with shadow := pos / 256 } b

theorem pos0_run {i : Nat} {b : Block} (hon : dvOn b i = true) {pos : Nat}
    (hpos : FMap.get (fun _ => 0) (if (dvPort b i).upT = some b.now then (dvPort b i).posWas else (dvPort b i).pos) (dvPort b i).page = pos) :
    dvAccess i (fun b => setResp 3 { data := [BitVec.ofNat 32 (dvRead b i 0x16)] } (dvPos0 i b)) b =
      setResp 3 { data := [BitVec.ofNat 32 (pos % 256)] } (posLatched i pos b) := by
  subst hpos
  exact if_pos hon

theorem dvRead_shadow {i : Nat} {b : Block} {p : DvPort} (h : dvPort b i = p) :
    dvRead b i 0x17 = p.shadow % 256 ∧ dvRead b i 0x18 = p.shadow / 256 % 256 := by
  subst h
  exact ⟨rfl, rfl⟩

/-- Settles O38. -/
theorem pos0Latches : Obligations.Pos0Latches := by
  unfold Obligations.Pos0Latches
  intro i s hlive hon hquiet
  dsimp only
  generalize hpos : FMap.get (fun _ => 0) (if (dvPort s.blk i.val).upT = some s.blk.now then (dvPort s.blk i.val).posWas
    else (dvPort s.blk i.val).pos) (dvPort s.blk i.val).page = pos
  have hq : (setResp 3 { data := [BitVec.ofNat 32 (pos % 256)] } (posLatched i.val pos s.blk)).quiet := by
    unfold Block.quiet at *
    simpa [posLatched, setDvPort] using hquiet
  have hport (k : Nat) : dvPort (finish 0 (setResp 3 { data := [BitVec.ofNat 32 (pos % 256)] } (posLatched i.val pos s.blk))) k =
      if k = i.val then { dvPort s.blk i.val with shadow := pos / 256 } else dvPort s.blk k := by
    unfold dvPort
    rw [finish_leg 0 hq, ← FMap.get_set]
    simp [posLatched, setDvPort, dvPort]
  have hsame := (hport i.val).trans (if_pos rfl)
  obtain ⟨hmid, hhigh⟩ := dvRead_shadow hsame
  refine ⟨_, run_ends hlive (pos0_run hon hpos), ?_, hmid, hhigh.trans ?_, hsame, fun k hk => (hport k).trans (if_neg hk), ?_⟩
  · rw [finish_bus 0 hq]
    simp [setResp]
  · rw [Nat.div_div_eq_div_mul]
  · rw [finish_mem 0 hq]
    simp [posLatched, setDvPort]

/-! ### The mailbox (R400, R401) -/

theorem mbClaim_of_up {b : Block} {m : MbCmd} (h : b.sys.mb = some m) (hup : b.sys.mpDown = false) :
    mbClaim b = setMb (some { m with claimed := true }) b := by
  unfold mbClaim
  rw [h]
  simp only [hup, Bool.false_eq_true, if_false]

theorem mbTimeout_claimed {b : Block} {m : MbCmd} (h : b.sys.mb = some m) (hc : m.claimed = true) : mbTimeout b = b := by
  unfold mbTimeout
  rw [h]
  simp only [hc, if_true]

theorem mbTimeout_late {b : Block} {m : MbCmd} (h : b.sys.mb = some m) (hc : m.claimed = false) : mbTimeout b = mbFinish 1 [] b := by
  unfold mbTimeout
  rw [h]
  simp only [hc, Bool.false_eq_true, if_false]

/-- The bytes of a mailbox result (R399). -/
def resultBlock (m : MbCmd) (status : Nat) (result : List Byte) : List Byte :=
  leBytes 2 m.seq ++ leBytes 2 m.op ++ leBytes 2 status ++ leBytes 2 0 ++ leBytes 4 result.length ++ List.replicate 52 0 ++ result

/-- The mailbox registers after the completion of `m`. -/
def mbStamped (m : MbCmd) (b : Block) : Block :=
  ((((b.put XCH_MB_STAT_seq m.seq).put XCH_MB_STAT_slot (1 - b.get XCH_MB_STAT_slot)).put XCH_MB_STAT_busy 0).put XCH_MB_STAT_ready 1).put
    XCH_IRQ_STAT_ready 1

/-- The completion of the command `m` in progress. -/
def mbEnded (m : MbCmd) (status : Nat) (result : List Byte) (b : Block) : Block :=
  mbStamped m (setMb none { b with
    mem := Memory.setBytes b.mem (mbResultBase (1 - b.get XCH_MB_STAT_slot)) (resultBlock m status result) })

theorem mbFinish_of {b : Block} {m : MbCmd} (h : b.sys.mb = some m) (status : Nat) (result : List Byte) :
    mbFinish status result b = mbEnded m status result b := by
  unfold mbFinish
  rw [h]
  rfl

theorem mbStamped_gets (m : MbCmd) (b : Block) : (mbStamped m b).get XCH_MB_STAT_busy = 0 ∧ (mbStamped m b).get XCH_MB_STAT_ready = 1 ∧
    (mbStamped m b).get XCH_MB_STAT_seq = m.seq % 65536 ∧
    (mbStamped m b).get XCH_MB_STAT_slot = (1 - b.get XCH_MB_STAT_slot) % 2 := by
  unfold mbStamped
  refine ⟨?_, ?_, ?_, ?_⟩ <;> simp (disch := decide) only [Block.get_put_disjoint, Block.get_put] <;> rfl

theorem mbEnded_gets (m : MbCmd) (status : Nat) (result : List Byte) (b : Block) : (mbEnded m status result b).get XCH_MB_STAT_busy = 0 ∧
    (mbEnded m status result b).get XCH_MB_STAT_ready = 1 ∧ (mbEnded m status result b).get XCH_MB_STAT_seq = m.seq % 65536 ∧
    (mbEnded m status result b).get XCH_MB_STAT_slot = (1 - b.get XCH_MB_STAT_slot) % 2 := mbStamped_gets m _

/-- The bytes of a list in place, `k` bytes after its first. -/
theorem Memory.bytes_setBytes_at (m : List Host.Cell) (a : Nat) {k n : Nat} {l : List Byte} (h : k + n ≤ l.length) :
    Memory.bytes (Memory.setBytes m a l) (a + k) n = (l.drop k).take n := by
  apply List.ext_getElem
  · simp only [Memory.bytes, List.length_map, List.length_range, List.length_take, List.length_drop]
    omega
  · intro i h1 h2
    have hi : i < n := by simpa [Memory.bytes] using h1
    have hin : a ≤ a + k + i ∧ a + k + i < a + l.length := by omega
    have hat : a + k + i - a = k + i := by omega
    simp only [Memory.bytes, List.getElem_map, List.getElem_range, Memory.byte_setBytes, if_pos hin, hat, List.getElem_take,
      List.getElem_drop]
    exact (List.getElem_eq_getD 0).symm

/-- The status field of a mailbox result, where it is written. -/
theorem status_of_resultBlock (mem : List Host.Cell) (a : Nat) (m : MbCmd) (status : Nat) (result : List Byte) :
    Memory.num (Memory.setBytes mem a (resultBlock m status result)) (a + 4) 2 = status % 65536 := by
  have hlen : 4 + 2 ≤ (resultBlock m status result).length := by
    simp only [resultBlock, List.length_append, length_leBytes]
    omega
  have htake : ((resultBlock m status result).drop 4).take 2 = leBytes 2 status := rfl
  unfold Memory.num
  rw [Memory.bytes_setBytes_at mem a hlen, htake]
  exact leNat_leBytes 2 status

/-- A part of the system's state that the MSI-X bookkeeping does not hold is as the effect left it. -/
theorem finish_sys {α : Type} (n : Nat) {b : Block} (h : b.quiet) (f : Sys → α)
    (hf : ∀ (s : Sys) p x w, f { s with msixPend := p, msixTx := x, msixWas := w } = f s) : f (finish n b).sys = f b.sys := by
  obtain ⟨p, x, e⟩ := finish_form n h
  rw [e]
  exact hf b.sys _ _ _

/-- Settles O39. -/
theorem mailboxClaims : Obligations.MailboxClaims := by
  unfold Obligations.MailboxClaims
  refine fun s m hlive hmb => ⟨fun hup => run_live_congr hlive (mbClaim_of_up hmb hup),
    fun hc => run_live_congr hlive (mbTimeout_claimed hmb hc), fun hc hquiet => ?_⟩
  have hq : (mbEnded m 1 [] s.blk).quiet := by
    unfold Block.quiet at *
    simpa [mbEnded, mbStamped, setMb] using hquiet
  obtain ⟨hbusy, hready, hseq, hslot⟩ := mbEnded_gets m 1 [] s.blk
  refine ⟨_, run_ends hlive ((mbTimeout_late hmb hc).trans (mbFinish_of hmb 1 [])), ?_, ?_, ?_, ?_, ?_, ?_⟩
  · refine (finish_sys 0 hq Sys.mb fun _ _ _ _ => rfl).trans ?_
    simp [mbEnded, mbStamped, setMb]
  · exact (finish_get 0 hq (by decide)).trans hbusy
  · exact (finish_get 0 hq (by decide)).trans hready
  · exact (finish_get 0 hq (by decide)).trans hseq
  · exact (finish_get 0 hq (by decide)).trans hslot
  · have hmem : (mbEnded m 1 [] s.blk).mem =
        Memory.setBytes s.blk.mem (mbResultBase (1 - s.blk.get XCH_MB_STAT_slot)) (resultBlock m 1 []) := by
      simp [mbEnded, mbStamped, setMb]
    rw [finish_mem 0 hq, hmem, status_of_resultBlock]

end Sys2Proof.Machine

namespace Sys2Proof.Machine

/-! ### The doorbell and the quarantines (R396, R430) -/

theorem singles_plain : plainReg HIF_DB_STAT = true ∧ plainReg REL_CTL = true ∧ plainReg SEC_UNLK = true := by decide

theorem doorbellClear_run {m : Nat} {v : Word} {b : Block} (hm : accessMade m HIF_DB_STAT b = true) (hclr : v.getLsbD 9 = true) :
    writeReg m HIF_DB_STAT v 0 b = setResp m {} (doorbellClear b) := by
  refine writeReg_of_single singles_plain.1 hm (no_hw _) ?_
  show some (if v.getLsbD 9 = true then doorbellClear b else b) = _
  rw [if_pos hclr]

/-- Settles O40. -/
theorem doorbellCleared : Obligations.DoorbellCleared := by
  unfold Obligations.DoorbellCleared
  intro m v s hlive hm hquiet hclr
  have hq : (setResp m.val {} (doorbellClear s.blk)).quiet := hquiet
  exact ⟨_, run_ends hlive (doorbellClear_run hm hclr), finish_sys 0 hq Sys.doorbell fun _ _ _ _ => rfl, finish_efe 0 hq, finish_mem 0 hq,
    fun a ha => finish_rd 0 hq ha⟩

theorem mem_addNew {x y : Nat} {l : List Nat} : y ∈ addNew x l ↔ y = x ∨ y ∈ l := by
  unfold addNew
  split
  case isTrue h =>
    rw [List.contains_iff_mem] at h
    exact ⟨Or.inr, fun hy => hy.elim (fun e => e ▸ h) id⟩
  case isFalse h => rw [List.mem_append, List.mem_singleton, or_comm]

theorem mem_foldl_addNew {y : Nat} : ∀ {l m : List Nat}, y ∈ l.foldl (fun acc x => addNew x acc) m ↔ y ∈ l ∨ y ∈ m
  | [], m => by simp
  | x :: l, m => by rw [List.foldl_cons, mem_foldl_addNew, mem_addNew, List.mem_cons, or_left_comm, or_assoc]

theorem unquarWrite_next (v : Word) (b : Block) {l : Nat} : l ∈ (unquarWrite v b).rel.unquarNext ↔
    (l < 4 ∧ v.toNat.testBit l = true) ∨ l ∈ b.rel.unquarNext := by
  refine (mem_foldl_addNew (l := (List.range 4).filter fun l => v.toNat.testBit l)).trans ?_
  rw [List.mem_filter, List.mem_range]

theorem unquarWrite_sys (v : Word) (b : Block) : (unquarWrite v b).sys = b.sys := by simp [unquarWrite]
theorem unquarWrite_mem (v : Word) (b : Block) : (unquarWrite v b).mem = b.mem := by simp [unquarWrite]

theorem unquarWrite_regs (v : Word) (b : Block) :
    (unquarWrite v b).regs = (b.put REL_CTL_unquar (b.get REL_CTL_unquar ||| v.toNat % 16)).regs := by simp [unquarWrite]

theorem unquarWrite_get (v : Word) (b : Block) {f : Fld} (h : f.addr ≠ REL_CTL_unquar.addr) : (unquarWrite v b).get f = b.get f := by
  rw [Block.get_congr (unquarWrite_regs v b), Block.get_put_ne b _ h]

theorem Block.get_setResp (m : Nat) (r : Resp) (b : Block) (f : Fld) : (setResp m r b).get f = b.get f := rfl

theorem writeReg_unquar {m : Nat} {v : Word} {b : Block} (hm : accessMade m REL_CTL b = true) :
    writeReg m REL_CTL v 0 b = setResp m {} (unquarWrite v b) := writeReg_of_single singles_plain.2.1 hm (no_hw _) rfl

/-- Settles O42. -/
theorem unquarantineWaits : Obligations.UnquarantineWaits := by
  unfold Obligations.UnquarantineWaits
  intro m v s hlive hm hquiet
  have hq : (setResp m.val {} (unquarWrite v s.blk)).quiet := by
    unfold Block.quiet at *
    rw [Block.setResp_sys, unquarWrite_sys]
    exact hquiet
  refine ⟨_, run_ends hlive (writeReg_unquar hm), fun l hl hv => ?_, fun l hl => ?_, ?_,
    (finish_mem 0 hq).trans (by rw [Block.setResp_mem, unquarWrite_mem])⟩
  · rw [finish_rel 0 hq]
    exact (unquarWrite_next v s.blk).mpr (.inl ⟨hl, hv⟩)
  · rw [finish_rel 0 hq]
    exact (unquarWrite_next v s.blk).mpr (.inr hl)
  · have hne : DLR_STAT_quar.addr ≠ REL_CTL_unquar.addr := by decide
    have hsame := Block.get_setResp m.val {} (unquarWrite v s.blk) DLR_STAT_quar
    exact (finish_get 0 hq (by decide)).trans (hsame.trans (unquarWrite_get v s.blk hne))

/-! ### The chip safe state (R431, R432) -/

/-- The picks held for the chip safe state. -/
def safeHeld (b : Block) : Block :=
  { b with tbu := { b.tbu with holds := if b.tbu.holds.contains .safe then b.tbu.holds else .safe :: b.tbu.holds } }

/-- The registers of the chip safe state after its entry with a cause. -/
def safeShown (cause : Nat) (b : Block) : Block :=
  (((b.put REL_STAT_safe 1).put REL_STAT_cause cause).bump REL_CNT_safe).flag REL_IRQ_STAT_safe

/-- The first cause is captured (R431). -/
def safeCaptured (cause detail : Nat) (b : Block) : Block :=
  if b.on REL_CCAP_valid then b else ((b.put REL_CCAP_cause cause).put REL_CCAP_detail detail).put REL_CCAP_valid 1

/-- A cause that stops no picks enters the safe state that is not in force. -/
theorem safeEntry_first {cause detail : Nat} {b : Block} (hcause : cause ≠ 8) (hoff : b.on REL_STAT_safe = false) :
    safeEntry cause detail b = safeCaptured cause detail (safeShown cause (safeHeld b)) := by
  have hoff' : (safeHeld b).on REL_STAT_safe = false := hoff
  unfold safeEntry
  simp only [if_neg hcause]
  exact if_neg (hoff'.symm ▸ Bool.false_ne_true)

/-- A cause that comes later is counted when it is another one. -/
theorem safeEntry_later {cause detail : Nat} {b : Block} (hcause : cause ≠ 8) (hon : b.on REL_STAT_safe = true) :
    safeEntry cause detail b = if b.get REL_STAT_cause = cause then safeHeld b else (safeHeld b).bump REL_CNT_safe := by
  have hon' : (safeHeld b).on REL_STAT_safe = true := hon
  unfold safeEntry
  simp only [if_neg hcause]
  exact if_pos hon'

theorem safeHeld_mem (b : Block) : Hold.safe ∈ (safeHeld b).tbu.holds := by
  show Hold.safe ∈ if b.tbu.holds.contains .safe then b.tbu.holds else .safe :: b.tbu.holds
  split
  case isTrue h => exact List.contains_iff_mem.mp h
  case isFalse => exact List.mem_cons_self ..

/-- The registers that an entry of the safe state writes. -/
def safeRegs : List Nat := [REL_STAT_safe.addr, REL_CNT_safe.addr, REL_IRQ_STAT_safe.addr, REL_CCAP_cause.addr]

theorem RegsMoved.flag {l : List Nat} (b : Block) (f : Fld) (h : f.addr ∈ l) : RegsMoved l b (b.flag f) := RegsMoved.put b f 1 h
theorem RegsMoved.bump {l : List Nat} (b : Block) (f : Fld) (h : f.addr ∈ l) (k : Nat := 1) : RegsMoved l b (b.bump f k) := RegsMoved.put b f _ h

theorem safeCaptured_moves (cause detail : Nat) (b : Block) : RegsMoved safeRegs b (safeCaptured cause detail b) := by
  unfold safeCaptured
  split
  · exact .refl _ b
  · exact ((RegsMoved.put _ _ _ (by decide)).trans (.put _ _ _ (by decide))).trans (.put _ _ _ (by decide))

theorem safeShown_moves (cause : Nat) (b : Block) : RegsMoved safeRegs b (safeShown cause b) :=
  (((RegsMoved.put b _ _ (by decide)).trans (.put _ _ _ (by decide))).trans (.bump _ _ (by decide))).trans (.flag _ _ (by decide))

/-- An entry of the safe state holds the picks, and changes registers besides. -/
theorem safeEntry_moves {cause : Nat} (detail : Nat) (b : Block) (hcause : cause ≠ 8) : RegsMoved safeRegs (safeHeld b) (safeEntry cause detail b) := by
  cases hs : b.on REL_STAT_safe with
  | false =>
    rw [safeEntry_first hcause hs]
    exact (safeShown_moves _ _).trans (safeCaptured_moves ..)
  | true =>
    rw [safeEntry_later hcause hs]
    split
    · exact .refl _ _
    · exact .bump _ _ (by decide)

theorem safeShown_gets (cause : Nat) (b : Block) : (safeShown cause b).get REL_STAT_safe = 1 ∧
    (safeShown cause b).get REL_STAT_cause = cause % 2 ^ REL_STAT_cause.width ∧ (safeShown cause b).get REL_IRQ_STAT_safe = 1 := by
  unfold safeShown
  refine ⟨?_, ?_, ?_⟩ <;> rw [Block.flag_eq, Block.bump_eq]
  · simp (disch := decide) only [Block.get_put_disjoint, Block.get_put]
    rfl
  · simp (disch := decide) only [Block.get_put_disjoint, Block.get_put]
  · rw [Block.get_put _ rfl]
    rfl

theorem safeCaptured_get {cause detail : Nat} (b : Block) {f : Fld} (h : f.addr ≠ REL_CCAP_cause.addr) :
    (safeCaptured cause detail b).get f = b.get f := by
  unfold safeCaptured
  split
  · rfl
  · rw [Block.get_put_ne (f := REL_CCAP_valid) _ _ h, Block.get_put_ne (f := REL_CCAP_detail) _ _ h, Block.get_put_ne _ _ h]

/-- The safe state that is entered shows its cause. -/
theorem safeEntry_first_gets {cause : Nat} (detail : Nat) {b : Block} (hcause : cause ≠ 8) (hoff : b.on REL_STAT_safe = false) :
    (safeEntry cause detail b).get REL_STAT_safe = 1 ∧
    (safeEntry cause detail b).get REL_STAT_cause = cause % 2 ^ REL_STAT_cause.width ∧ (safeEntry cause detail b).get REL_IRQ_STAT_safe = 1 := by
  obtain ⟨hs, hc, hi⟩ := safeShown_gets cause (safeHeld b)
  rw [safeEntry_first hcause hoff]
  refine ⟨?_, ?_, ?_⟩ <;> rw [safeCaptured_get _ (by decide)] <;> assumption

theorem safeEntry_later_gets {cause : Nat} (detail : Nat) {b : Block} (hcause : cause ≠ 8) (hon : b.on REL_STAT_safe = true) :
    (safeEntry cause detail b).get REL_STAT_safe = b.get REL_STAT_safe ∧
    (safeEntry cause detail b).get REL_STAT_cause = b.get REL_STAT_cause ∧ (safeEntry cause detail b).get REL_CNT_safe =
      if b.get REL_STAT_cause = cause then b.get REL_CNT_safe else min REL_CNT_safe.max (b.get REL_CNT_safe + 1) := by
  rw [safeEntry_later hcause hon]
  have hcause' : REL_STAT_cause.addr ≠ REL_CNT_safe.addr := by decide
  have hsafe : REL_STAT_safe.addr ≠ REL_CNT_safe.addr := by decide
  split
  · exact ⟨rfl, rfl, rfl⟩
  · rw [Block.get_bump _ rfl, Block.bump_eq, Block.get_put_ne _ _ hcause', Block.get_put_ne _ _ hsafe]
    exact ⟨rfl, rfl, rfl⟩

theorem safeEntry_on {cause : Nat} (detail : Nat) (b : Block) (hcause : cause ≠ 8) : (safeEntry cause detail b).on REL_STAT_safe = true := by
  rw [Block.on_eq]
  cases hs : b.on REL_STAT_safe with
  | false => rw [(safeEntry_first_gets detail hcause hs).1]; rfl
  | true => rw [(safeEntry_later_gets detail hcause hs).1]; exact hs

theorem safeEntry_quiet {cause : Nat} (detail : Nat) {b : Block} (hcause : cause ≠ 8) (h : b.quiet) : (safeEntry cause detail b).quiet := by
  obtain ⟨hform, -⟩ := safeEntry_moves detail b hcause
  rw [hform]
  exact h

/-- CVO_STAT.safe shows a hold when what follows a command has ended (R304). -/
theorem finish_safe {b : Block} (h : b.tbu.holds ≠ []) (hq : b.quiet) : (finish 0 b).get CVO_STAT_safe = 1 := by
  obtain ⟨-, hsafe, -⟩ := finish_settled 0 b []
  refine hsafe.trans (if_neg ?_)
  show ¬ (finish 0 b).tbu.holds.isEmpty = true
  rw [finish_tbu 0 hq]
  simpa using h

/-- Settles O41. -/
theorem firstCauseStays : Obligations.FirstCauseStays := by
  unfold Obligations.FirstCauseStays
  intro s hlive hquiet
  have h4 : (4 : Nat) ≠ 8 := by decide
  have hq := safeEntry_quiet 0 h4 hquiet
  obtain ⟨hform, -⟩ := safeEntry_moves 0 s.blk h4
  have hheld : Hold.safe ∈ (safeEntry 4 0 s.blk).tbu.holds := by rw [hform]; exact safeHeld_mem s.blk
  have hget {f : Fld} (hf : f.addr ≠ CVO_STAT) := finish_get 0 hq hf
  refine ⟨_, run_ends hlive rfl, ?_, ?_, finish_safe (List.ne_nil_of_mem hheld) hq, ?_, ?_, fun hoff => ?_, fun hon => ?_⟩
  · rw [Block.on_eq, hget (by decide)]
    exact safeEntry_on 0 s.blk h4
  · rw [finish_tbu 0 hq]; exact hheld
  · rw [finish_mem 0 hq, hform]; rfl
  · rw [finish_alc 0 hq, hform]; rfl
  · obtain ⟨-, hcause, hirq⟩ := safeEntry_first_gets 0 h4 hoff
    exact ⟨(hget (by decide)).trans hcause, by rw [Block.on_eq, hget (by decide), hirq]; rfl⟩
  · obtain ⟨-, hcause, hcnt⟩ := safeEntry_later_gets 0 h4 hon
    exact ⟨(hget (by decide)).trans hcause, (hget (by decide)).trans hcnt⟩

/-! ### The TRNG and the TAP (R438, R446) -/

/-- Settles O44. -/
theorem trngHealth : Obligations.TrngHealth := by
  unfold Obligations.TrngHealth
  exact fun s hlive => ⟨run_live hlive _, fun hfail => run_live_congr hlive (if_pos hfail)⟩

theorem tapInstruction_low {code : Byte} (b : Block) (h : code = 0 ∨ (3 ≤ code ∧ code ≤ 6)) :
    tapInstruction code b = code ∧ tapTakesPins code = true := by
  have hcode : code.toNat = 0 ∨ (3 ≤ code.toNat ∧ code.toNat ≤ 6) := by
    obtain rfl | ⟨hlo, hhi⟩ := h
    · exact .inl rfl
    · exact .inr ⟨hlo, hhi⟩
  have hno : ¬ code = 0x10 ∧ ¬ (0x20 ≤ code ∧ code ≤ 0x2F) ∧ code ≤ 0x06 := by bv_omega
  obtain ⟨h10, h20, h6⟩ := hno
  refine ⟨by rw [tapInstruction, if_neg h10, if_neg h20, if_pos h6], ?_⟩
  unfold tapTakesPins
  obtain rfl | ⟨hlo, hhi⟩ := h
  · rfl
  · exact Bool.or_eq_true_iff.mpr (.inl (Bool.or_eq_true_iff.mpr (.inr (Bool.and_eq_true_iff.mpr ⟨decide_eq_true hlo, decide_eq_true hhi⟩))))

/-- An instruction that takes the pins is loaded: the safe state comes first where the compute die runs outside recovery. -/
theorem jtagLoad_low {code : Byte} {b : Block} (h : code = 0 ∨ (3 ≤ code ∧ code ≤ 6)) : jtagLoad code b =
    setSec (fun x => { x with tap := code })
      (if b.sys.held = false ∧ b.on SYS_STAT_recovery = false then safeEntry 7 0 b else b) := by
  obtain ⟨hi, htakes⟩ := tapInstruction_low b h
  unfold jtagLoad
  simp only [hi, htakes, true_and, Bool.not_eq_true]
  rfl

/-- Settles O45. -/
theorem jtagTakesPins : Obligations.JtagTakesPins := by
  unfold Obligations.JtagTakesPins
  refine ⟨fun code s hcode hquiet => ?_, fun s => rfl⟩
  have h7 : (7 : Nat) ≠ 8 := by decide
  have hload := jtagLoad_low (b := s.blk) hcode
  by_cases hruns : s.blk.sys.held = false ∧ s.blk.on SYS_STAT_recovery = false
  · rw [if_pos hruns] at hload
    have hq : (setSec (fun x => { x with tap := code }) (safeEntry 7 0 s.blk)).quiet := safeEntry_quiet 0 h7 hquiet
    obtain ⟨hform, -⟩ := safeEntry_moves 0 s.blk h7
    refine ⟨_, congrArg Host.Outcome.next (on_congr (g := fun _ => _) hload), ?_, ?_, fun _ _ hoff => ⟨?_, ?_⟩, fun hnot => ?_⟩
    · exact congrArg Sec.tap (finish_sec 0 hq)
    · refine (finish_mem 0 hq).trans ?_
      rw [hform]
      rfl
    · rw [Block.on_eq]
      exact (congrArg (· != 0) (finish_get 0 hq (by decide))).trans (safeEntry_on 0 s.blk h7)
    · exact (finish_get 0 hq (by decide)).trans (safeEntry_first_gets 0 h7 hoff).2.1
    · exact absurd hruns.1 hnot
  · rw [if_neg hruns] at hload
    have hq : (setSec (fun x => { x with tap := code }) s.blk).quiet := hquiet
    refine ⟨_, congrArg Host.Outcome.next (on_congr (g := fun _ => _) hload), ?_, ?_, fun hlive hrec => absurd ⟨hlive, hrec⟩ hruns,
      fun _ => ⟨?_, ?_⟩⟩
    · exact congrArg Sec.tap (finish_sec 0 hq)
    · exact finish_mem 0 hq
    · exact finish_get 0 hq (by decide)
    · exact finish_tbu 0 hq

end Sys2Proof.Machine

namespace Sys2Proof.Machine

/-! ### The unlock (R441, R442) -/

/-- The nonce's words read 0 and nothing else of the registers moves. -/
def nonceCleared (b : Block) : Block := (((b.setNum (SEC_NONCE 0) 0).setNum (SEC_NONCE 1) 0).setNum (SEC_NONCE 2) 0).setNum (SEC_NONCE 3) 0

theorem dropNonce_eq (b : Block) : dropNonce b = nonceCleared (setSec (fun s => { s with nonce := false }) b) := rfl

theorem nonceCleared_num (b : Block) : ∀ k, k < 4 → (nonceCleared b).num (SEC_NONCE k) = 0 := by
  intro k hk
  unfold nonceCleared
  match k with
  | 0 => simp (disch := decide) only [Block.num_setNum_ne, Block.num_setNum]
  | 1 => simp (disch := decide) only [Block.num_setNum_ne, Block.num_setNum]
  | 2 => simp (disch := decide) only [Block.num_setNum_ne, Block.num_setNum]
  | 3 => simp (disch := decide) only [Block.num_setNum]
  | k + 4 => omega

def nonceRegs : List Nat := [SEC_NONCE 0, SEC_NONCE 1, SEC_NONCE 2, SEC_NONCE 3]

theorem nonceCleared_moves (b : Block) : RegsMoved nonceRegs b (nonceCleared b) :=
  (((RegsMoved.wr b _ _ (by decide)).trans (.wr _ _ _ (by decide))).trans (.wr _ _ _ (by decide))).trans (.wr _ _ _ (by decide))

/-- The nonce of method 1 is used up by a response that is examined (R441). -/
def spent (once : Bool) (b : Block) : Block := if once then dropNonce b else b

theorem spent_get (once : Bool) (b : Block) {f : Fld} (h : f.addr ∉ nonceRegs) : (spent once b).get f = b.get f := by
  cases once
  · rfl
  · exact (nonceCleared_moves (setSec (fun s => { s with nonce := false }) b)).get h

theorem spent_form (once : Bool) (b : Block) : spent once b =
    { b with regs := (spent once b).regs, sec := { b.sec with nonce := if once then false else b.sec.nonce } } := by
  cases once
  · rfl
  · obtain ⟨hform, -⟩ := nonceCleared_moves (setSec (fun s => { s with nonce := false }) b)
    exact hform

/-- A submit that is refused unexamined. -/
theorem submitUnlock_locked {b : Block} (h : b.sec.lockout = true ∨ 16 ≤ b.sec.fails) : submitUnlock b = unlockResult 3 b := if_pos h.symm

/-- A submit whose response is examined. -/
theorem submitUnlock_examined {b : Block} (hlock : b.sec.lockout = false) (hfails : b.sec.fails < 16)
    (hmethod : (b.get SEC_STAT_method = 1 ∧ b.sec.nonce = true) ∨ b.get SEC_STAT_method = 2) : submitUnlock b =
      spent (decide (b.get SEC_STAT_method = 1)) (if responseMatches b then openScopes b else refuseResponse b) := by
  have hfree : ¬ (b.sec.fails ≥ 16 ∨ b.sec.lockout = true) := by
    rintro (h | h)
    · omega
    · exact absurd (hlock ▸ h) Bool.false_ne_true
  unfold submitUnlock
  rw [if_neg hfree]
  obtain ⟨h1, hnonce⟩ | h2 := hmethod
  · simp only [h1, hnonce]
    cases responseMatches b <;> rfl
  · simp only [h2]
    cases responseMatches b <;> rfl

theorem get_or_lt {x y n : Nat} (hx : x < 2 ^ n) (hy : y < 2 ^ n) : (x ||| y) % 2 ^ n = x ||| y := Nat.mod_eq_of_lt (Nat.or_lt_two_pow hx hy)

/-- The scopes of a response that matches, and the bypass that one of them arms (R443). -/
def scopesOpen (b : Block) : Block :=
  if b.get SEC_UNLK_scope / 4 % 2 = 1 ∧ b.on SEC_STAT_img_auth then
    (b.put SEC_STAT_opn (b.get SEC_STAT_opn ||| b.get SEC_UNLK_scope)).put SEC_STAT_bypass_armed 1
  else b.put SEC_STAT_opn (b.get SEC_STAT_opn ||| b.get SEC_UNLK_scope)

theorem openScopes_eq (b : Block) : openScopes b = ((scopesOpen b).put SEC_UNLK_result 1).put SEC_IRQ_STAT_unlock 1 := rfl

def unlockRegs : List Nat := [SEC_STAT, SEC_UNLK, SEC_IRQ_STAT]

theorem scopesOpen_moves (b : Block) : RegsMoved unlockRegs b (scopesOpen b) := by
  unfold scopesOpen
  split
  · exact (RegsMoved.put b _ _ (by decide)).trans (.put _ _ _ (by decide))
  · exact .put b _ _ (by decide)

theorem openScopes_moves (b : Block) : RegsMoved unlockRegs b (openScopes b) :=
  (scopesOpen_moves b).trans ((RegsMoved.put _ _ _ (by decide)).trans (.put _ _ _ (by decide)))

theorem scopesOpen_opn (b : Block) : (scopesOpen b).get SEC_STAT_opn = b.get SEC_STAT_opn ||| b.get SEC_UNLK_scope := by
  have hor := get_or_lt (n := 3) (get_lt b SEC_STAT_opn) (get_lt b SEC_UNLK_scope)
  unfold scopesOpen
  split
  · rw [Block.get_put_disjoint _ _ (by decide), Block.get_put _ rfl]
    exact hor
  · rw [Block.get_put _ rfl]
    exact hor

theorem scopesOpen_scope (b : Block) : (scopesOpen b).get SEC_UNLK_scope = b.get SEC_UNLK_scope := by
  unfold scopesOpen
  split <;> simp (disch := decide) only [Block.get_put_disjoint]

theorem openScopes_gets (b : Block) : (openScopes b).get SEC_UNLK_result = 1 ∧
    (openScopes b).get SEC_STAT_opn = b.get SEC_STAT_opn ||| b.get SEC_UNLK_scope ∧ (openScopes b).get SEC_IRQ_STAT_unlock = 1 ∧
    (openScopes b).get SEC_UNLK_scope = b.get SEC_UNLK_scope := by
  rw [openScopes_eq, ← scopesOpen_opn, ← scopesOpen_scope b]
  generalize scopesOpen b = c
  refine ⟨?_, ?_, ?_, ?_⟩ <;> simp (disch := decide) only [Block.get_put_disjoint, Block.get_put] <;> rfl

/-- The state after a refused response: it counts, and the lockout begins. -/
def refusedOnce (b : Block) : Block := setSec (fun s => { s with fails := min 16 (b.sec.fails + 1), lockout := true }) b

theorem refuseResponse_eq (b : Block) : refuseResponse b =
    (((refusedOnce b).put SEC_STAT_fails (min 16 (b.sec.fails + 1))).put SEC_UNLK_result 2).put SEC_IRQ_STAT_refused 1 := rfl

theorem refuseResponse_moves (b : Block) : RegsMoved unlockRegs (refusedOnce b) (refuseResponse b) :=
  ((RegsMoved.put _ _ _ (by decide)).trans (.put _ _ _ (by decide))).trans (.put _ _ _ (by decide))

theorem refuseResponse_gets (b : Block) : (refuseResponse b).get SEC_UNLK_result = 2 ∧
    (refuseResponse b).get SEC_STAT_opn = b.get SEC_STAT_opn ∧ (refuseResponse b).get SEC_IRQ_STAT_refused = 1 ∧
    (refuseResponse b).get SEC_UNLK_scope = b.get SEC_UNLK_scope := by
  have hregs (f : Fld) : b.get f = (refusedOnce b).get f := rfl
  rw [refuseResponse_eq, hregs, hregs]
  generalize refusedOnce b = c
  refine ⟨?_, ?_, ?_, ?_⟩ <;> simp (disch := decide) only [Block.get_put_disjoint, Block.get_put] <;> rfl

/-- A write of SEC_UNLK that submits and asks for no challenge. -/
theorem unlockWrite_submit {v : Word} (b : Block) (hsub : v.getLsbD 9 = true) (hchal : v.getLsbD 8 = false) :
    unlockWrite v b = submitUnlock (b.put SEC_UNLK_scope (v.toNat % 8)) := by
  have h9 : v.toNat / 512 % 2 = 1 := by
    have := Nat.testBit_eq_decide_div_mod_eq (x := v.toNat) (i := 9)
    rw [BitVec.getLsbD, this] at hsub
    exact of_decide_eq_true hsub
  have h8 : ¬ v.toNat / 256 % 2 = 1 := by
    have := Nat.testBit_eq_decide_div_mod_eq (x := v.toNat) (i := 8)
    rw [BitVec.getLsbD, this] at hchal
    exact of_decide_eq_false hchal
  unfold unlockWrite
  dsimp only
  rw [if_pos h9, if_neg h8]

theorem writeReg_unlock {m : Nat} {v : Word} {b : Block} (hm : accessMade m SEC_UNLK b = true) :
    writeReg m SEC_UNLK v 0 b = setResp m {} (unlockWrite v b) := writeReg_of_single singles_plain.2.2 hm (no_hw _) rfl

theorem unlockRegs_safe {f : Fld} (h : f.addr ∈ unlockRegs) : f.addr ∉ nonceRegs ∧ f.addr ≠ CVO_STAT := by
  revert h
  generalize f.addr = a
  revert a
  decide

theorem Block.quiet_of_sys {b c : Block} (h : c.sys = b.sys) (hq : b.quiet) : c.quiet := by
  unfold Block.quiet
  rw [h]
  exact hq

/-- Judging a response keeps the scope that was written, the memory and the system's state. -/
theorem examined_moves (b : Block) : ((if responseMatches b = true then openScopes b else refuseResponse b).get SEC_UNLK_scope = b.get SEC_UNLK_scope ∧
    (if responseMatches b = true then openScopes b else refuseResponse b).mem = b.mem) ∧
    (if responseMatches b = true then openScopes b else refuseResponse b).sys = b.sys := by
  split
  · obtain ⟨-, -, -, hscope⟩ := openScopes_gets b
    refine ⟨⟨hscope, ?_⟩, ?_⟩ <;> rw [(openScopes_moves b).1]
  · obtain ⟨-, -, -, hscope⟩ := refuseResponse_gets b
    refine ⟨⟨hscope, ?_⟩, ?_⟩ <;> (rw [(refuseResponse_moves b).1]; rfl)

/-- What a submit of an examined response leaves behind: what it shows, and the nonce used up. -/
theorem submit_ends {m : Master} {v : Word} {s : State} {c : Block} (hlive : s.live) (hm : s.grants m.val SEC_UNLK)
    (hc : unlockWrite v s.blk = c) (hq : c.quiet) : ∃ t, exec (.submit m v) s = .next t ∧ (∀ f : Fld, f.addr ∈ unlockRegs → t.blk.get f = c.get f) ∧
      t.blk.mem = c.mem ∧ t.blk.sec = c.sec := by
  have hq' : (setResp m.val {} c).quiet := hq
  exact ⟨_, run_ends hlive ((writeReg_unlock hm).trans (congrArg _ hc)), fun f hf => finish_get 0 hq' (unlockRegs_safe hf).2, finish_mem 0 hq',
    finish_sec 0 hq'⟩

theorem nonceExpire_ends {s : State} (hlive : s.live) (hquiet : s.blk.quiet) : ∃ t, exec .nonceExpire s = .next t ∧
    t.blk.sec.nonce = false ∧ (∀ k, k < 4 → t.blk.num (SEC_NONCE k) = 0) ∧ t.blk.mem = s.blk.mem := by
  obtain ⟨hform, -⟩ := nonceCleared_moves (setSec (fun s => { s with nonce := false }) s.blk)
  have hq : (dropNonce s.blk).quiet := by
    rw [dropNonce_eq, hform]
    exact hquiet
  have hsafe : ∀ k, k < 4 → SEC_NONCE k ≠ CVO_STAT := by decide
  refine ⟨_, run_live hlive _, ?_, fun k hk => ?_, ?_⟩
  · refine (congrArg Sec.nonce (finish_sec 0 hq)).trans ?_
    rw [dropNonce_eq, hform]
    rfl
  · exact (finish_num 0 hq (hsafe k hk)).trans (nonceCleared_num _ k hk)
  · refine (finish_mem 0 hq).trans ?_
    rw [dropNonce_eq, hform]
    rfl

/-- Settles O43. -/
theorem unlockGuarded : Obligations.UnlockGuarded := by
  unfold Obligations.UnlockGuarded
  refine ⟨fun s hlive hquiet => nonceExpire_ends hlive hquiet, fun m v s hlive hm hquiet hsub hchal hlocked => ?locked,
    fun m v s hlive hm hquiet hsub hchal hlock hfails hmethod => ?examined, fun s => rfl⟩
  case locked =>
    have hwrite := (unlockWrite_submit s.blk hsub hchal).trans (submitUnlock_locked (b := s.blk.put SEC_UNLK_scope (v.toNat % 8))
      (by rw [Block.put_sec]; exact hlocked))
    obtain ⟨t, hrun, hget, -, hsec⟩ := submit_ends hlive hm hwrite (Block.quiet_of_sys (by simp [unlockResult]) hquiet)
    refine ⟨t, hrun, (hget _ (by decide)).trans ?_, (hget _ (by decide)).trans ?_, hsec.trans (by simp [unlockResult])⟩
    all_goals
      unfold unlockResult
      rw [Block.flag_eq]
      simp (disch := decide) only [Block.get_put_disjoint, Block.get_put]
    rfl
  case examined =>
    dsimp only
    generalize hb : s.blk.put SEC_UNLK_scope (v.toNat % 8) = b
    have hscope : b.get SEC_UNLK_scope = v.toNat % 8 := by
      rw [← hb, Block.get_put _ rfl]
      exact Nat.mod_mod _ _
    have hstat {f : Fld} (hf : f.addr = SEC_STAT) : b.get f = s.blk.get f := by
      rw [← hb]
      exact Block.get_put_ne _ _ (hf ▸ by decide)
    have hopn' : b.get SEC_STAT_opn = s.blk.get SEC_STAT_opn := hstat rfl
    have hsec : b.sec = s.blk.sec := by rw [← hb, Block.put_sec]
    have hmem : b.mem = s.blk.mem := by rw [← hb, Block.put_mem]
    have hsys : b.sys = s.blk.sys := by rw [← hb, Block.put_sys]
    have hmeth : b.get SEC_STAT_method = s.blk.get SEC_STAT_method := hstat rfl
    have hwrite : unlockWrite v s.blk = spent (decide (s.blk.get SEC_STAT_method = 1))
        (if responseMatches b = true then openScopes b else refuseResponse b) := by
      rw [unlockWrite_submit s.blk hsub hchal, hb, submitUnlock_examined (by rw [hsec]; exact hlock) (by rw [hsec]; exact hfails)
        (by rw [hmeth, hsec]; exact hmethod), hmeth]
    obtain ⟨hj, hjsys⟩ := examined_moves b
    generalize hjdef : (if responseMatches b = true then openScopes b else refuseResponse b) = j at hwrite hj hjsys
    have hform := spent_form (decide (s.blk.get SEC_STAT_method = 1)) j
    have hq : (spent (decide (s.blk.get SEC_STAT_method = 1)) j).quiet :=
      Block.quiet_of_sys (by rw [hform, ← hsys, ← hjsys]) hquiet
    obtain ⟨t, hrun, hget, htmem, htsec⟩ := submit_ends hlive hm hwrite hq
    have htget {f : Fld} (hf : f.addr ∈ unlockRegs) : t.blk.get f = j.get f := (hget f hf).trans (spent_get _ j (unlockRegs_safe hf).1)
    have htnonce : t.blk.sec = { j.sec with nonce := if decide (s.blk.get SEC_STAT_method = 1) = true then false else j.sec.nonce } := by
      rw [htsec, hform]
    refine ⟨t, hrun, ?_, ?_, fun h1 => ?_, fun hmatch => ?_, fun hno => ?_⟩
    · rw [htget (by decide), hj.1, hscope]
    · rw [htmem, hform, ← hmem, ← hj.2]
    · rw [htnonce, h1]
      rfl
    · rw [if_pos hmatch] at hjdef
      obtain ⟨hres, hopn, hirq, -⟩ := openScopes_gets b
      have hjsec : j.sec = s.blk.sec := by
        rw [← hjdef, (openScopes_moves b).1]
        exact hsec
      rw [htget (by decide), htget (by decide), htget (by decide), ← hjdef, hres, hopn, hirq, hopn', hscope, htnonce, hjsec]
      exact ⟨rfl, rfl, rfl, rfl, hlock⟩
    · rw [if_neg (by rw [hno]; decide)] at hjdef
      obtain ⟨hres, hopn, hirq, -⟩ := refuseResponse_gets b
      have hjsec : j.sec = { s.blk.sec with fails := min 16 (s.blk.sec.fails + 1), lockout := true } := by
        rw [← hjdef, (refuseResponse_moves b).1, ← hsec]
        rfl
      rw [htget (by decide), htget (by decide), htget (by decide), ← hjdef, hres, hopn, hirq, hopn', htnonce, hjsec]
      exact ⟨rfl, rfl, rfl, Nat.min_eq_right (by omega), rfl⟩

end Sys2Proof.Machine

namespace Sys2Proof.Machine

/-! ### Accesses after time has passed -/

theorem advanceTo_accessMade (t m a : Nat) (b : Block) : accessMade m a (advanceTo t b) = accessMade m a b := by
  have hdrain : (advanceTo t b).bit BMX_MSTAT_draining m = b.bit BMX_MSTAT_draining m := by
    show ((advanceTo t b).get BMX_MSTAT_draining).testBit m = _
    rw [advanceTo_get t b (by decide)]
    rfl
  have hopen : debugOpen (advanceTo t b) = debugOpen b := by
    unfold debugOpen
    rw [advanceTo_get t b (by decide)]
  unfold accessMade
  rw [hdrain, hopen, (advanceTo_sameBut t b).sec]

theorem advanceTo_on (t : Nat) (b : Block) {f : Fld} (h : f.addr ∉ timeRegs) : (advanceTo t b).on f = b.on f := by
  rw [Block.on_eq, advanceTo_get t b h, Block.on_eq]

/-- A command of a given time that ends in the block that its effect gives. -/
theorem at_congr {s : State} {t : Long} {f g : Block → Block} (hlive : s.live) (h : f (advanceTo t.toNat s.blk) = g s.blk) :
    s.at t f = .next (s.on g) := (at_live hlive t f).trans (congrArg Host.Outcome.next (on_congr h))

theorem at_ends {s : State} {t : Long} {f : Block → Block} {c : Block} (hlive : s.live) (h : f (advanceTo t.toNat s.blk) = c) :
    s.at t f = .next { s with blk := finish 0 c } := h ▸ at_live hlive t f

/-! ### Snapshot requests and queries (R108, R109, R140) -/

theorem dealerRegs_plain : plainReg DLR_SNAP_CTL = true ∧ plainReg DLR_CANCEL = true ∧ plainReg VAL_QRY_CMD = true := by decide

theorem writeReg_snapRequest {m : Nat} {b : Block} (hm : accessMade m DLR_SNAP_CTL b = true) :
    writeReg m DLR_SNAP_CTL 1 0 b = wrote m snapRequest b := writeReg_of_single dealerRegs_plain.1 hm (no_hw _) rfl

theorem writeReg_snapCancel {m : Nat} {b : Block} (hm : accessMade m DLR_SNAP_CTL b = true) :
    writeReg m DLR_SNAP_CTL 2 0 b = wrote m snapCancel b := writeReg_of_single dealerRegs_plain.1 hm (no_hw _) rfl

theorem writeReg_dlrCancel {m : Nat} {v : Word} {b : Block} (hm : accessMade m DLR_CANCEL b = true) :
    writeReg m DLR_CANCEL v 0 b = wrote m (fun b => dlrCancel v b.now b) b := writeReg_of_single dealerRegs_plain.2.1 hm (no_hw _) rfl

theorem writeReg_query {m : Nat} {v : Word} {b : Block} (hm : accessMade m VAL_QRY_CMD b = true) :
    writeReg m VAL_QRY_CMD v 0 b = wrote m (queryCommand v) b := writeReg_of_single dealerRegs_plain.2.2 hm (no_hw _) rfl

/-- The registers of a snapshot request that is taken. -/
def snapAsked (b : Block) : Block :=
  ((((b.put DLR_SNAP_STAT_ready 0).put DLR_SNAP_STAT_err 0).put DLR_SNAP_STAT_abort_late 0).put DLR_SNAP_STAT_pending 1).put DLR_SNAP_CTL_req 1

/-- The cycle of a snapshot request. -/
def snapTimed (t : Nat) (b : Block) : Block := { b with dlr := { b.dlr with snapT := t } }

theorem snapTimed_same {t : Nat} {b : Block} (h : b.dlr.snapT = t) : snapTimed t b = b := by
  subst h
  rfl

theorem snapCancel_pending {b : Block} (h : b.on DLR_SNAP_STAT_pending = true) (hsnap : b.dlr.snap = none) : snapCancel b =
    { (b.put DLR_SNAP_STAT_pending 0).put DLR_SNAP_CTL_req 0 with
      dlr := { ((b.put DLR_SNAP_STAT_pending 0).put DLR_SNAP_CTL_req 0).dlr with
        snapDrop := if b.dlr.snapT = b.now then none else some b.now } } := by
  have hdlr : ((b.put DLR_SNAP_STAT_pending 0).put DLR_SNAP_CTL_req 0).dlr.snapT = b.dlr.snapT := by simp
  have hpend : snapPend 0 b.dlr.snapT b = (b.put DLR_SNAP_STAT_pending 0).put DLR_SNAP_CTL_req 0 := snapTimed_same hdlr
  unfold snapCancel
  rw [if_pos ⟨h, hsnap⟩, hpend]

theorem snapRequest_new {b : Block} (h : b.on DLR_SNAP_STAT_pending = false) : snapRequest b = snapTimed b.now (snapAsked b) :=
  if_neg (h ▸ Bool.false_ne_true)

theorem snapCancel_late {b : Block} (hsnap : b.dlr.snap ≠ none) : snapCancel b = b.put DLR_SNAP_STAT_abort_late 1 :=
  if_neg fun h => hsnap h.2

theorem snapAsked_gets (b : Block) : (snapAsked b).get DLR_SNAP_STAT_pending = 1 ∧ (snapAsked b).get DLR_SNAP_CTL_req = 1 ∧
    (snapAsked b).get DLR_SNAP_STAT_ready = 0 ∧ (snapAsked b).get DLR_SNAP_STAT_seq = b.get DLR_SNAP_STAT_seq := by
  unfold snapAsked
  refine ⟨?_, ?_, ?_, ?_⟩ <;> simp (disch := decide) only [Block.get_put_disjoint, Block.get_put] <;> rfl

theorem snapAsked_form (b : Block) : (snapAsked b).mem = b.mem ∧ (snapAsked b).dlr = b.dlr ∧ (snapAsked b).sys = b.sys := by
  simp [snapAsked]

theorem queryCommand_idle {v : Word} {b : Block} (h : b.on VAL_QRY_STAT_busy = false) : queryCommand v b =
    { (b.put VAL_QRY_STAT_busy 1).put VAL_QRY_STAT_done 0 with
      alc := { ((b.put VAL_QRY_STAT_busy 1).put VAL_QRY_STAT_done 0).alc with query := some (v.toNat / 65536 % 4, v.toNat % 16384) } } := by
  have hbits : bitsOf v.toNat 17 16 = v.toNat / 65536 % 4 ∧ bitsOf v.toNat 13 0 = v.toNat % 16384 :=
    ⟨rfl, congrArg (· % 16384) (Nat.div_one _)⟩
  unfold queryCommand
  rw [h, if_neg Bool.false_ne_true, hbits.1, hbits.2]

/-! ### The end of a card (R86) -/

/-- What the end of card `k` leaves: only the Dealer changes, and no card of that number is left. -/
def CardGone (k : Nat) (b c : Block) : Prop := (∃ d, c = { b with dlr := d }) ∧ ∀ x ∈ c.dlr.cards, x.no ≠ k

theorem CardGone.keeps {k : Nat} {b c : Block} (h : CardGone k b c) : c.sys = b.sys ∧ c.mem = b.mem ∧ c.alc = b.alc := by
  obtain ⟨⟨d, rfl⟩, -⟩ := h
  exact ⟨rfl, rfl, rfl⟩

theorem CardGone.stats {k : Nat} {b c : Block} (h : CardGone k b c) (d : Dealer) (hd : d.cards = c.dlr.cards) :
    CardGone k b { c with dlr := d } := by
  obtain ⟨⟨d', rfl⟩, hno⟩ := h
  exact ⟨⟨d, rfl⟩, fun x hx => hno x (hd ▸ hx)⟩

/-- Cards that are replaced by others of the same numbers. -/
theorem CardGone.map {k : Nat} {b c : Block} (h : CardGone k b c) (d : Dealer) {g : Card → Card} (hd : d.cards = c.dlr.cards.map g)
    (hg : ∀ x ∈ c.dlr.cards, (g x).no = x.no) : CardGone k b { c with dlr := d } := by
  obtain ⟨⟨d', rfl⟩, hno⟩ := h
  refine ⟨⟨d, rfl⟩, fun x hx => ?_⟩
  obtain ⟨y, hy, rfl⟩ := List.mem_map.mp (hd ▸ hx)
  exact (hg y hy).symm ▸ hno y hy

theorem CardGone.setCard {k : Nat} {b c : Block} (h : CardGone k b c) (x : Card) : CardGone k b (setCard x c) := by
  refine h.map _ rfl fun y _ => ?_
  split
  case isTrue heq => exact heq.symm
  case isFalse => rfl

theorem CardGone.noteBusEnd {k : Nat} {b c : Block} (h : CardGone k b c) (l t : Nat) : CardGone k b (noteBusEnd l t c) := by
  unfold Machine.noteBusEnd
  split
  · exact h.stats _ rfl
  · exact h

theorem CardGone.checkGate {k : Nat} {b c : Block} (h : CardGone k b c) (l t : Nat) : CardGone k b (checkGate l t c) := by
  unfold Machine.checkGate
  split
  · refine CardGone.noteBusEnd (h.map _ rfl fun x _ => ?_) l t
    split <;> rfl
  · exact h

theorem CardGone.releaseHeld {k : Nat} {b c : Block} (h : CardGone k b c) (f t : Nat) : CardGone k b (releaseHeld f t c) := by
  unfold Machine.releaseHeld
  split
  · split
    · exact h.setCard _
    · exact h
  · exact h

theorem CardGone.noteLateSlack {k : Nat} {b c : Block} (h : CardGone k b c) (x : Card) (t : Nat) : CardGone k b (noteLateSlack x t c) := by
  unfold Machine.noteLateSlack
  split
  · exact h.stats _ rfl
  · exact h

theorem noteDepth_form (d l t : Nat) (b : Block) : ∃ x, noteDepth d l t b = { b with dlr := x } := ⟨_, rfl⟩

/-- A card leaves its deck, with its completion record. -/
def cardDropped (c : Card) (status : Status) (b : Block) : Block :=
  { b with dlr := { b.dlr with
    cards := b.dlr.cards.filter fun x => x.no != c.no
    records := b.dlr.records ++ [{ flow := c.flow, type := c.type, pick := c.pick, deck := c.deck, status := status }] } }

theorem cardDropped_gone (c : Card) (status : Status) {b x : Block} (hx : ∃ d, x = { b with dlr := d }) :
    CardGone c.no b (cardDropped c status x) := by
  obtain ⟨d, rfl⟩ := hx
  refine ⟨⟨_, rfl⟩, fun y hy => ?_⟩
  simpa using (List.mem_filter.mp hy).2

/-- The end of a card, whatever its status. -/
theorem finishCard_gone (c : Card) (status : Status) (t : Nat) (b : Block) : CardGone c.no b (finishCard c status t b) := by
  have hdeep : ∃ d, (if c.deep then noteDepth c.deck c.level t b else b) = { b with dlr := d } := by
    split
    · exact noteDepth_form ..
    · exact ⟨b.dlr, rfl⟩
  have hkept := ((cardDropped_gone c status hdeep).noteLateSlack c t).releaseHeld c.flow t
  unfold finishCard
  refine CardGone.noteBusEnd (CardGone.checkGate ?_ _ _) _ _
  split
  · exact hkept.stats _ rfl
  · exact hkept

/-! ### DLR_CANCEL (R106) -/

theorem dlrCancel_busy (v : Word) (t : Nat) {b : Block} (h : b.on DLR_CANCEL_STAT_busy = true) :
    dlrCancel v t b = b.put DLR_CANCEL_STAT_ovr 1 := if_pos h

/-- A flow that is no housekeeping flow is not found. -/
theorem dlrCancel_foreign {v : Word} (t : Nat) {b : Block} (h : b.on DLR_CANCEL_STAT_busy = false)
    (hf : v.toNat % 16384 < 8448 ∨ 8512 ≤ v.toNat % 16384) :
    dlrCancel v t b = cancelResult 3 (b.put DLR_CANCEL_STAT_flow (v.toNat % 16384)) := by
  unfold dlrCancel
  rw [h, if_neg Bool.false_ne_true]
  exact if_pos hf

/-- The card of a housekeeping flow in service is marked; one that is not ends. -/
theorem dlrCancel_found {v : Word} (t : Nat) {b : Block} {c : Card} (h : b.on DLR_CANCEL_STAT_busy = false)
    (hlo : 8448 ≤ v.toNat % 16384) (hhi : v.toNat % 16384 < 8512) (hc : b.dlr.cards.find? (fun x => x.flow == v.toNat % 16384) = some c) :
    (∀ s, c.st = .inService s → dlrCancel v t b =
      setCard { c with cancel := some t } ((b.put DLR_CANCEL_STAT_flow (v.toNat % 16384)).put DLR_CANCEL_STAT_busy 1)) ∧
    ((∀ s, c.st ≠ .inService s) → dlrCancel v t b =
      cancelResult 1 (finishCard c .cancelled t (b.put DLR_CANCEL_STAT_flow (v.toNat % 16384)))) := by
  have hf : ¬ (v.toNat % 16384 < 8448 ∨ 8512 ≤ v.toNat % 16384) := by omega
  constructor
  · intro s hs
    unfold dlrCancel
    rw [h, if_neg Bool.false_ne_true]
    dsimp only
    rw [if_neg hf, Block.put_dlr, hc]
    dsimp only
    rw [hs]
  · intro hno
    unfold dlrCancel
    rw [h, if_neg Bool.false_ne_true]
    dsimp only
    rw [if_neg hf, Block.put_dlr, hc]
    dsimp only
    cases hst : c.st with
    | inService s => exact absurd hst (hno s)
    | _ => rfl

theorem cancelResult_gets (r : Nat) (b : Block) : (cancelResult r b).get DLR_CANCEL_STAT_result = r % 4 ∧
    (cancelResult r b).get DLR_CANCEL_STAT_busy = 0 ∧ (cancelResult r b).get DLR_IRQ_STAT_cancel_done = 1 := by
  unfold cancelResult
  rw [Block.flag_eq]
  refine ⟨?_, ?_, ?_⟩ <;> simp (disch := decide) only [Block.get_put_disjoint, Block.get_put] <;> rfl

theorem cancelResult_form (r : Nat) (b : Block) : (cancelResult r b).mem = b.mem ∧ (cancelResult r b).alc = b.alc ∧
    (cancelResult r b).dlr = b.dlr ∧ (cancelResult r b).sys = b.sys := by
  simp [cancelResult]

theorem cancelRegs_untimed : DLR_CANCEL_STAT_busy.addr ∉ timeRegs := by decide

/-- The cancel of a card that is not in service ends it. -/
theorem dlrCancel_ends {m : Master} {v : Word} {t : Long} {s : State} {c : Card} (hlive : s.live) (hm : s.grants m.val DLR_CANCEL)
    (hbusy : s.blk.on DLR_CANCEL_STAT_busy = false) (hlo : 8448 ≤ v.toNat % 16384) (hhi : v.toNat % 16384 < 8512)
    (hc : (advanceTo t.toNat s.blk).dlr.cards.find? (fun x => x.flow == v.toNat % 16384) = some c) (hst : ∀ h, c.st ≠ .inService h)
    (hquiet : s.blk.quiet) : ∃ u, exec (.dlrCancel m v t) s = .next u ∧ u.blk.get DLR_CANCEL_STAT_result = 1 ∧
      u.blk.get DLR_CANCEL_STAT_busy = 0 ∧ u.blk.get DLR_IRQ_STAT_cancel_done = 1 ∧ (∀ x ∈ u.blk.dlr.cards, x.no ≠ c.no) ∧
      u.blk.mem = s.blk.mem ∧ u.blk.alc = s.blk.alc := by
  have hsame := advanceTo_sameBut t.toNat s.blk
  have hm' : accessMade m.val DLR_CANCEL (advanceTo t.toNat s.blk) = true := (advanceTo_accessMade ..).trans hm
  have hbusy' := (advanceTo_on t.toNat s.blk cancelRegs_untimed).trans hbusy
  have hend := (writeReg_dlrCancel hm').trans (congrArg (setResp m.val {}) ((dlrCancel_found _ hbusy' hlo hhi hc).2 hst))
  generalize v.toNat % 16384 = f at hlo hhi hc hend
  have hgone := finishCard_gone c .cancelled (advanceTo t.toNat s.blk).now
    ((advanceTo t.toNat s.blk).put DLR_CANCEL_STAT_flow f)
  generalize finishCard c .cancelled (advanceTo t.toNat s.blk).now ((advanceTo t.toNat s.blk).put DLR_CANCEL_STAT_flow f) = e at *
  obtain ⟨hesys, hemem, healc⟩ := hgone.keeps
  obtain ⟨hresult, hidle, hdone⟩ := cancelResult_gets 1 e
  obtain ⟨hmem, halc, hdlr, hsys⟩ := cancelResult_form 1 e
  generalize cancelResult 1 e = r at *
  have hq : (setResp m.val {} r).quiet :=
    Block.quiet_of_sys (hsys.trans (hesys.trans ((Block.put_sys ..).trans hsame.sys))) hquiet
  refine ⟨_, at_ends hlive hend, ?_, ?_, ?_, fun x hx => ?_, ?_, ?_⟩
  · exact (finish_get 0 hq (by decide)).trans hresult
  · exact (finish_get 0 hq (by decide)).trans hidle
  · exact (finish_get 0 hq (by decide)).trans hdone
  · have hcards : (finish 0 (setResp m.val {} r)).dlr = e.dlr := (finish_dlr 0 hq).trans hdlr
    exact hgone.2 x (hcards ▸ hx)
  · rw [finish_mem 0 hq, Block.setResp_mem, hmem, hemem, Block.put_mem, hsame.mem]
  · rw [finish_alc 0 hq, Block.setResp_alc, halc, healc, Block.put_alc, hsame.alc]

/-- Settles O27. -/
theorem dealerRegisters : Obligations.DealerRegisters := by
  unfold Obligations.DealerRegisters
  refine ⟨fun m s hlive hm hquiet => ⟨fun hp => run_live_congr hlive ?ignored, fun hp => ?asked, fun hp hsnap => run_live_congr hlive ?dropped,
    fun hsnap => run_live_congr hlive ?late⟩, fun m v t s hlive hm => ?cancel,
    fun m v s hlive hm => ⟨fun hbusy => run_live_congr hlive ?busy, fun hbusy => run_live_congr hlive ?query⟩⟩
  case ignored => exact (writeReg_snapRequest hm).trans (congrArg (setResp m.val {}) (if_pos hp))
  case asked =>
    have hp' : s.blk.on DLR_SNAP_STAT_pending = false := Bool.eq_false_iff.mpr hp
    obtain ⟨hpend, hreq, hready, hseq⟩ := snapAsked_gets s.blk
    obtain ⟨hmem, hdlr, hsys⟩ := snapAsked_form s.blk
    have hnew := (writeReg_snapRequest hm).trans (congrArg (setResp m.val {}) (snapRequest_new hp'))
    generalize snapAsked s.blk = c at *
    have hq : (setResp m.val {} (snapTimed s.blk.now c)).quiet := Block.quiet_of_sys hsys hquiet
    refine ⟨_, run_ends hlive hnew, ?_, ?_, ?_, ?_, ?_, ?_⟩
    · exact (finish_get 0 hq (by decide)).trans hpend
    · exact (finish_get 0 hq (by decide)).trans hreq
    · exact (finish_get 0 hq (by decide)).trans hready
    · exact (finish_get 0 hq (by decide)).trans hseq
    · exact (finish_mem 0 hq).trans hmem
    · exact (finish_dlr 0 hq).trans (congrArg (fun d : Dealer => { d with snapT := s.blk.now }) hdlr)
  case dropped => exact (writeReg_snapCancel hm).trans (congrArg (setResp m.val {}) (snapCancel_pending hp hsnap))
  case late => exact (writeReg_snapCancel hm).trans (congrArg (setResp m.val {}) (snapCancel_late hsnap))
  case cancel =>
    have hm' : accessMade m.val DLR_CANCEL (advanceTo t.toNat s.blk) = true := (advanceTo_accessMade ..).trans hm
    have hon := advanceTo_on t.toNat s.blk cancelRegs_untimed
    refine ⟨fun hbusy => at_congr hlive ?_, fun hbusy hf => at_congr hlive ?_, fun c hbusy hlo hhi hc =>
      ⟨fun h hst => at_congr hlive ?_, fun hst hquiet => dlrCancel_ends hlive hm (Bool.eq_false_iff.mpr hbusy) hlo hhi hc hst hquiet⟩⟩
    · exact (writeReg_dlrCancel hm').trans (congrArg (setResp m.val {}) (dlrCancel_busy v _ (hon.trans hbusy)))
    · exact (writeReg_dlrCancel hm').trans (congrArg (setResp m.val {})
        (dlrCancel_foreign _ (hon.trans (Bool.eq_false_iff.mpr hbusy)) hf))
    · exact (writeReg_dlrCancel hm').trans (congrArg (setResp m.val {})
        ((dlrCancel_found _ (hon.trans (Bool.eq_false_iff.mpr hbusy)) hlo hhi hc).1 h hst))
  case busy => exact (writeReg_query hm).trans (congrArg (setResp m.val {}) (if_pos hbusy))
  case query => exact (writeReg_query hm).trans (congrArg (setResp m.val {}) (queryCommand_idle (Bool.eq_false_iff.mpr hbusy)))

end Sys2Proof.Machine

namespace Sys2Proof.Machine

/-! ### Holdover (R30) -/

section
variable {t : Nat} {b : Block}

theorem holdoverEntry_enters {last : Nat} (hlast : (advanceTo t b).tbu.edgeT = some last) (hstate : (advanceTo t b).get TBU_REF_STAT_state = 1)
    (hlate : 3000000000 ≤ 2 * since last t * (advanceTo t b).fs) {x : Block}
    (hx : frameEdge t (enterState 2 (setTbu (fun u => { u with holdT := t, holdK := 1 }) (advanceTo t b))) = x) :
    holdoverEntry t b = if holdMsRef x = 0 then pauseNow x else x := by
  subst hx
  -- the body at a block of its own, which the kernel need not evaluate
  obtain ⟨g, hg⟩ : ∃ g, holdoverEntry = g := ⟨_, rfl⟩
  rw [hg]
  delta holdoverEntry at hg
  have hbody := congrFun (congrFun hg t) b
  rw [← hbody]
  obtain ⟨c, hc⟩ : ∃ c, advanceTo t b = c := ⟨_, rfl⟩
  rw [hc] at hlast hstate hlate ⊢
  simp only [hlast, hstate, hlate, and_self, if_true]

theorem holdoverFrame_presents {last : Nat} (hlast : (advanceTo t b).tbu.edgeT = some last)
    (hstate : (advanceTo t b).get TBU_REF_STAT_state = 2 ∨ ((advanceTo t b).get TBU_REF_STAT_state = 3 ∧ (advanceTo t b).tbu.drain.isSome = true))
    (hdue : ((advanceTo t b).tbu.holdK + 1) * (period (advanceTo t b)).1 ≤ since last t * (period (advanceTo t b)).2) :
    holdoverFrame t b = frameEdge t (setTbu (fun u => { u with holdK := (advanceTo t b).tbu.holdK + 1 }) (advanceTo t b)) := by
  obtain ⟨g, hg⟩ : ∃ g, holdoverFrame = g := ⟨_, rfl⟩
  rw [hg]
  delta holdoverFrame at hg
  have hbody := congrFun (congrFun hg t) b
  rw [← hbody]
  obtain ⟨c, hc⟩ : ∃ c, advanceTo t b = c := ⟨_, rfl⟩
  obtain ⟨f, hf⟩ : ∃ f, period = f := ⟨_, rfl⟩
  rw [hc] at hlast hstate hdue ⊢
  rw [hf] at hdue ⊢
  simp only [hlast, hstate, hdue, and_self, if_true]

theorem holdoverTimeout_pauses (hstate : (advanceTo t b).get TBU_REF_STAT_state = 2)
    (hdue : holdMsRef (advanceTo t b) * 1000000 ≤ since (advanceTo t b).tbu.holdT t) : holdoverTimeout t b = pauseNow (advanceTo t b) := by
  unfold holdoverTimeout
  simp only [hstate, hdue, and_self, if_true]

end

/-! ### Tempo (R34, R36, R38) -/

theorem tempoEdge_acts {src t next delta phi : Nat} {marker : Option Nat} {b : Block} (hsrc : b.get TBU_TEMPO_CFG_src = src)
    (hphi : phiOf b t next = some phi) : tempoEdge src t next marker delta b = tempoPulse phi delta marker b := by
  unfold tempoEdge
  rw [if_pos hsrc, hphi]

theorem tempoTimeout_holds {b : Block} (hext : internalTempo b = false) (hrate : b.tbu.rhoI ≠ 0)
    (hlate : (if b.get TBU_TEMPO_CFG_tmo ≤ 8 then 12 else b.get TBU_TEMPO_CFG_tmo) * b.tbu.delta * 2 ^ 24 ≤
      (b.sample * 2 ^ 24 - b.tbu.lastPhi) * 8 * b.tbu.rhoI) : tempoTimeout b = tempoHold b := by
  have hext' : (!internalTempo b) = true := by rw [hext]; rfl
  exact if_pos ⟨hext', hrate, hlate⟩

theorem elementReg_cmpCfg : ∀ n : Fin 16, elementReg 0 n.val (TBU_CMP_CFG n.val) = true := by decide
theorem plainReg_refCfg : plainReg TBU_REF_CFG = true := by decide

/-- Settles O46. -/
theorem timeCommands : Obligations.TimeCommands := by
  unfold Obligations.TimeCommands
  refine ⟨fun t s hlive => ⟨run_live hlive _, fun last hlast hstate hlate => run_live_congr hlive ?entry,
      fun last hlast hstate hdue => run_live_congr hlive ?frame, fun hstate hdue => run_live_congr hlive ?timeout⟩,
    fun m v s hlive hm => run_live_congr hlive ?ref, fun t next phi s hlive hsrc hphi => run_live_congr hlive ?tempo,
    fun s hlive hext hrate hlate => run_live_congr hlive ?late, fun m n v s hlive hm => run_live_congr hlive ?compare⟩
  case entry => exact holdoverEntry_enters hlast hstate hlate rfl
  case frame => exact holdoverFrame_presents hlast hstate hdue
  case timeout => exact holdoverTimeout_pauses hstate hdue
  case ref => exact writeReg_of_single plainReg_refCfg hm (no_hw _) rfl
  case tempo => exact tempoEdge_acts hsrc hphi
  case late => exact tempoTimeout_holds hext hrate hlate
  case compare => exact writeReg_elementReg (elementReg_cmpCfg n) hm (f := compareCfg n.val v) fun _ => rfl

end Sys2Proof.Machine

namespace Sys2Proof.Machine

/-! ### Event entry (R61–R63) -/

/-- The last event of the item that has waited longest, of a source other than the firmware. -/
theorem eventEntry_last {b : Block} {src n : Nat} {e : Ev} {code : Nat} {quiet : Bool} {t : Nat} {rest : List Item}
    (hw : b.efe.waiting = ⟨src, some n, [e], code, quiet, t⟩ :: rest) (hsrc : src ≠ 9) {a : Nat × Block}
    (ha : acceptEvent src (some n) e b = a) {c : Block} (hc : noteLegacy e a.1 a.2 = c) :
    eventEntry b = writeStatus src n (max code a.1) quiet { c with efe := { c.efe with waiting := rest } } := by
  subst hc
  obtain ⟨code', b'⟩ := a
  unfold eventEntry
  rw [hw]
  simp only [ha]
  rw [if_neg (by simp)]
  split
  case h_1 h9 _ => exact absurd rfl hsrc
  case h_2 => rfl

/-! ### GPIO bindings (R78) -/

theorem gpioEdge_eq (pin t : Nat) (level : Bool) (b : Block) : gpioEdge pin t level b = (List.range 8).foldl (fun acc i =>
    if acc.get (EFE_GPB_CFG_pin i) = pin then
      if acc.on (EFE_GPB_CFG_en i) then
        setGpio i { timing := true, level := level, t0 := t, frame := acc.sample
                    stable := if (gpioOf acc i).timing then (gpioOf acc i).stable else !level } acc
      else setGpio i { gpioOf acc i with timing := false } acc
    else acc) b := rfl

/-- A binding whose changed level has held for its debounce time issues its template. -/
theorem gpioExpire_issues {i t : Nat} {b : Block} (htiming : (gpioOf b i).timing = true) (hen : b.on (EFE_GPB_CFG_en i) = true)
    (hdue : (gpioOf b i).t0 + b.get (EFE_GPB_CFG_debounce i) * 1000000 ≤ t) (hlevel : (gpioOf b i).level ≠ (gpioOf b i).stable) {e : Ev}
    (he : (if (gpioOf b i).level != b.on (EFE_GPB_CFG_invert i) then templateEv (b.num (EFE_GPB_PRESS0 i)) (b.num (EFE_GPB_PRESS1 i))
      else templateEv (b.num (EFE_GPB_REL0 i)) (b.num (EFE_GPB_REL1 i))) = e) (hop : e.op ≠ 0) : gpioExpire i t false b =
        submitNative 8 { e.at (arrivalTime b 8 (gpioOf b i).frame) with
          head := (e.at (arrivalTime b 8 (gpioOf b i).frame)).head ||| BitVec.ofNat 16 (bitsOf e.head.toNat 7 4 * 16) }
          (setGpio i { gpioOf b i with timing := false, stable := (gpioOf b i).level } b) := by
  subst he
  have hissue : ¬ ((gpioOf b i).level = (gpioOf b i).stable ∨ false = true) := by simp [hlevel]
  unfold gpioExpire
  dsimp only
  rw [if_pos ⟨htiming, hen, hdue⟩, if_neg hissue, if_neg hop]

theorem legacyPin_off {b : Block} (h : b.get LEG_CTL_en = 0) (pin : Nat) : legacyPin b pin = false := by
  unfold legacyPin
  rw [h]
  rfl

theorem exec_gpioDebounceExpire (i : Fin 8) (t : Long) (s : State) : exec (.gpioDebounceExpire i t) s =
    s.at t fun b => gpioExpire i.val t.toNat (legacyPin b (b.get (EFE_GPB_CFG_pin i.val))) b := rfl

theorem gpioDebounceExpire_ends {i : Fin 8} {t : Long} {s : State} {b : Block} (hlive : s.live) (hb : advanceTo t.toNat s.blk = b)
    (htiming : (gpioOf b i.val).timing = true) (hen : b.on (EFE_GPB_CFG_en i.val) = true)
    (hdue : (gpioOf b i.val).t0 + b.get (EFE_GPB_CFG_debounce i.val) * 1000000 ≤ t.toNat)
    (hlevel : (gpioOf b i.val).level ≠ (gpioOf b i.val).stable) (hleg : b.get LEG_CTL_en = 0) {e : Ev}
    (he : (if (gpioOf b i.val).level != b.on (EFE_GPB_CFG_invert i.val) then templateEv (b.num (EFE_GPB_PRESS0 i.val)) (b.num (EFE_GPB_PRESS1 i.val))
      else templateEv (b.num (EFE_GPB_REL0 i.val)) (b.num (EFE_GPB_REL1 i.val))) = e) (hop : e.op ≠ 0) :
    exec (.gpioDebounceExpire i t) s = .next (s.on fun _ =>
      submitNative 8 { e.at (arrivalTime b 8 (gpioOf b i.val).frame) with
        head := (e.at (arrivalTime b 8 (gpioOf b i.val).frame)).head ||| BitVec.ofNat 16 (bitsOf e.head.toNat 7 4 * 16) }
        (setGpio i.val { gpioOf b i.val with timing := false, stable := (gpioOf b i.val).level } b)) := by
  refine (exec_gpioDebounceExpire i t s).trans (at_congr hlive ?_)
  rw [hb, legacyPin_off hleg]
  exact gpioExpire_issues htiming hen hdue hlevel he hop

theorem submitMp_room {b : Block} {e : Ev} (hon : srcOn b 9 = true) (hwait : b.efe.mpWait = []) (hroom : queueFill b 9 < queueRoom 9) :
    submitMp e b = submitNative 9 e b := by
  have hno : ¬ (b.efe.mpWait ≠ [] ∨ queueFill b 9 ≥ queueRoom 9) := by
    rintro (h | h)
    · exact h hwait
    · omega
  unfold submitMp
  rw [hon, if_neg hno]
  rfl

theorem elementReg_mpe : ∀ g : Fin 20, elementReg 2 g.val (EFE_MPE g.val) = true := by decide

theorem writeZones_eq (g : Nat) (v : Word) (b : Block) : writeZones g v b =
    (b.put (EFE_MPE_lower g) (v.toNat % 16)).put (EFE_MPE_upper g) (min (v.toNat / 256 % 16) (14 - min 14 (v.toNat % 16))) := by
  have hlo : bitsOf v.toNat 3 0 = v.toNat % 16 := congrArg (· % 16) (Nat.div_one _)
  have hhi : bitsOf v.toNat 11 8 = v.toNat / 256 % 16 := rfl
  unfold writeZones
  dsimp only
  rw [hlo, hhi]

/-- Settles O47. -/
theorem entryCommands : Obligations.EntryCommands := by
  unfold Obligations.EntryCommands
  dsimp only
  refine ⟨fun s src n e code quiet t rest hlive hw hsrc => run_live_congr hlive ?entry, fun pin level t s hlive => at_congr hlive (gpioEdge_eq pin.val t.toNat level _),
    fun i t s hlive htiming hen hdue hlevel hleg hop =>
      gpioDebounceExpire_ends hlive rfl htiming hen hdue hlevel hleg rfl hop,
    fun e s hlive hup hon hwait hroom => run_live_congr hlive ?firmware, fun m g v s hlive hm => run_live_congr hlive ?zones⟩
  case entry => exact eventEntry_last hw hsrc rfl rfl
  case firmware =>
    rw [if_neg (by rw [hup]; exact Bool.false_ne_true)]
    exact submitMp_room hon hwait hroom
  case zones =>
    refine (writeReg_elementReg (elementReg_mpe g) hm (f := writeZones g.val v) fun _ => rfl).trans ?_
    exact congrArg (setResp m.val {}) (writeZones_eq g.val v s.blk)

end Sys2Proof.Machine

namespace Sys2Proof.Machine

/-! ### MIDI 1.0 messages of an enabled input (R66–R71) -/

section
variable {n : Nat} {b : Block} (hon : srcOn b n = true)
include hon

theorem midiChannel_on (st t : Nat) (f : Block → Msg × Block) : midiChannel n st t f b =
    submitMsg n (f (setSynced n (setRunning n st (touchSense n t b)))).1
      (arrivalTime (setSynced n (setRunning n st (touchSense n t b))) n (setSynced n (setRunning n st (touchSense n t b))).sample)
      (setSynced n (setRunning n st (touchSense n t b))) (f (setSynced n (setRunning n st (touchSense n t b)))).2 := by
  unfold midiChannel
  rw [hon]
  rfl

theorem midiSystem_on (t : Nat) (common : Bool) {evs : List Ev} (he : evs ≠ []) {c : Block}
    (hc : (if common then setRunning n 0 (setSynced n (touchSense n t b)) else setSynced n (touchSense n t b)) = c) :
    midiSystem n t common evs b = submit n true (evs.map (Ev.at (arrivalTime c n c.sample))) 0 false c := by
  subst hc
  unfold midiSystem
  rw [hon]
  exact if_neg he

theorem midiSystem_silent (t : Nat) (common : Bool) : midiSystem n t common [] b =
    if common then setRunning n 0 (setSynced n (touchSense n t b)) else setSynced n (touchSense n t b) := by
  unfold midiSystem
  rw [hon]
  rfl

theorem midiSyx_on (bytes : List Byte) (t : Nat) : midiSyx n bytes t b =
    syxReach (syxPush n bytes (setRunning n 0 (setSynced n (touchSense n t b)))) := by
  unfold midiSyx
  rw [hon, midiSystem_silent hon t true]
  rfl

theorem activeSensing_on (t : Nat) : activeSensing n t b = { setSynced n b with efe := { (setSynced n b).efe with
    sense := FMap.set (fun _ => 0) (setSynced n b).efe.sense n (t + 1) } } := by
  unfold activeSensing
  rw [hon]
  rfl

/-- 300 ms without a byte after 0xFE silence the parts of the input (R71). -/
theorem senseTimeout_on {t armed : Nat} (hsense : b.on (EFE_MIDI_CFG_asense n) = true)
    (harmed : FMap.get (fun _ => 0) b.efe.sense n = armed + 1) (hdue : armed + 300000000 ≤ t) : senseTimeout n t b =
    (partsOfInput b n).foldl (fun acc p => submit n false [(Ev.mk' 0x0B 0 0 p 0).at (arrivalTime b n b.sample)] 0 false acc)
      { b with efe := { b.efe with sense := FMap.set (fun _ => 0) b.efe.sense n 0 } } := by
  unfold senseTimeout
  dsimp only
  rw [if_pos ⟨hon, hsense, by rw [harmed]; exact Nat.succ_ne_zero _, by rw [harmed]; exact hdue⟩]

end

/-- A channel message of an enabled input sets running status and submits its events. -/
theorem channelAt_on {n : Fin 4} {st : Nat} {ch : Fin 16} {d1 d2 : Nat} {t : Long} {s : State} (hlive : s.live) (hon : srcOn s.blk n.val = true) :
    channelAt n st ch d1 d2 t s = .next (s.on fun b =>
      let b1 := setSynced n.val (setRunning n.val (st * 16 + ch.val) (touchSense n.val t.toNat (advanceTo t.toNat b)))
      let r := channelMsg n.val st ch.val d1 d2 b1
      submitMsg n.val r.1 (arrivalTime b1 n.val b1.sample) b1 r.2) :=
  at_congr hlive (midiChannel_on ((advanceTo_srcOn ..).trans hon) _ _ _)

/-- The system message `evs` of an enabled input. -/
theorem midiSystemAt_on {n : Fin 4} {t : Long} {s : State} (common : Bool) {evs : List Ev} (he : evs ≠ []) (hlive : s.live)
    (hon : srcOn s.blk n.val = true) : s.at t (midiSystem n.val t.toNat common evs) = .next (s.on fun b =>
      let b1 := if common then setRunning n.val 0 (setSynced n.val (touchSense n.val t.toNat (advanceTo t.toNat b)))
        else setSynced n.val (touchSense n.val t.toNat (advanceTo t.toNat b))
      submit n.val true (evs.map (Ev.at (arrivalTime b1 n.val b1.sample))) 0 false b1) :=
  at_congr hlive (midiSystem_on ((advanceTo_srcOn ..).trans hon) _ common he rfl)

/-! ### What the channel messages are (R68) -/

/-- On a channel with a part that is no member channel the messages are those of R68. -/
theorem channelMsg_part {b : Block} {g c p : Nat} (h : chanOf b g c = ⟨some p, false⟩) (d1 d2 : Nat) :
    (channelMsg g 8 c d1 d2 b).1 = { evs := [keyEv 2 p d1 (scaleUp 7 16 d2) 0] } ∧
    (channelMsg g 9 c d1 d2 b).1 = { evs := [if d2 = 0 then keyEv 2 p d1 0x8000 0 else keyEv 1 p d1 (scaleUp 7 16 d2) 0] } ∧
    (channelMsg g 10 c d1 d2 b).1 = { evs := [keyEv 3 p d1 (scaleUp 7 16 d2) 0] } ∧
    (channelMsg g 13 c d1 d2 b).1 = { evs := [.mk' 4 0 0 p (scaleUp 7 24 d1 + 128 * 2 ^ 24)] } ∧
    (channelMsg g 14 c d1 d2 b).1 = { evs := [.mk' 6 0 0 p (scaleUp 14 16 (d2 * 128 + d1))] } ∧
    (channelMsg g 11 c 64 d2 b).1 = { evs := [.mk' 0x12 0 0 p (scaleUp 7 16 d2 * 65536)] } ∧
    (channelMsg g 11 c 1 d2 b).1 = { evs := [.mk' 4 0 0 p (scaleUp 7 24 d2 + 2 ^ 24)] } := by
  have hnote (op d v : Nat) : noteMsg op g c d v .none b = { evs := [keyEv op p d v 0] } := by
    unfold noteMsg onChan
    rw [h]
    rfl
  have hpoly : polyMsg g c d1 (scaleUp 7 16 d2) b = { evs := [keyEv 3 p d1 (scaleUp 7 16 d2) 0] } := by
    unfold polyMsg onChan
    rw [h]
  have hpressure (v w : Nat) : pressureMsg g c v w b = { evs := [.mk' 4 0 0 p (w + 128 * 2 ^ 24)] } := by
    unfold pressureMsg onChan
    rw [h]
    rfl
  have hbend (v : Nat) : bendMsg g c v b = { evs := [.mk' 6 0 0 p v] } := by
    unfold bendMsg onChan
    rw [h]
    rfl
  refine ⟨hnote .., ?_, hpoly, hpressure .., hbend .., ?_, ?_⟩
  · show (if d2 = 0 then (noteMsg 2 g c d1 0x8000 .none b, b) else (noteMsg 1 g c d1 (scaleUp 7 16 d2) .none b, b)).1 = _
    rw [hnote, hnote]
    split <;> rfl
  all_goals
    unfold channelMsg controlChange
    rw [h]
    rfl

/-- A timing clock on the selected input is a tempo edge (R68). -/
def timingClock (n t next : Nat) (b : Block) : Block :=
  if srcOn b n && b.get TBU_TEMPO_CFG_midi == n then
    Machine.tempoEdge 2 t next none (pulseValue (midiSystem n t false [] b) 2) (midiSystem n t false [] b)
  else midiSystem n t false [] b

theorem exec_midiTimingClock (n : Fin 4) (t next : Long) (s : State) :
    exec (.midiTimingClock n t next) s = s.at t (timingClock n.val t.toNat next.toNat) := rfl

theorem exec_activeSensingTimeout (n : Fin 4) (t : Long) (s : State) :
    exec (.activeSensingTimeout n t) s = s.at t (senseTimeout n.val t.toNat) := rfl

theorem timingClock_on {n : Nat} {b : Block} (hon : srcOn b n = true) (hsel : b.get TBU_TEMPO_CFG_midi = n) (t next : Nat) :
    timingClock n t next b = Machine.tempoEdge 2 t next none (pulseValue (setSynced n (touchSense n t b)) 2) (setSynced n (touchSense n t b)) := by
  have hcond : (srcOn b n && b.get TBU_TEMPO_CFG_midi == n) = true := by rw [hon, hsel, beq_self_eq_true]; rfl
  have hsys : midiSystem n t false [] b = setSynced n (touchSense n t b) := midiSystem_silent hon t false
  rw [timingClock, if_pos hcond, hsys]

theorem asense_untimed : ∀ n : Fin 4, (EFE_MIDI_CFG_asense n.val).addr ∉ timeRegs := by decide

theorem advanceTo_midi {t : Nat} {b : Block} : (advanceTo t b).get TBU_TEMPO_CFG_midi = b.get TBU_TEMPO_CFG_midi :=
  advanceTo_get t b (by decide)

/-- Settles O48. -/
theorem midiMessages : Obligations.MidiMessages := by
  unfold Obligations.MidiMessages
  refine ⟨fun n ch t s hlive hon => ?channel, fun b g c p d1 d2 h => channelMsg_part h d1 d2, fun n t s hlive hon => ?system⟩
  case channel =>
    have item (st d1 d2 : Nat) := channelAt_on (st := st) (ch := ch) (d1 := d1) (d2 := d2) (t := t) hlive hon
    exact ⟨fun key vel => ⟨item 8 key.toNat vel.toNat, item 9 key.toNat 0, item 9 key.toNat vel.toNat, item 10 key.toNat vel.toNat⟩,
      fun cc v => item 11 cc.toNat v.toNat, fun p => ⟨item 12 p.toNat 0, item 13 p.toNat 0⟩, fun lsb msb => item 14 lsb.toNat msb.toNat⟩
  case system =>
    have hon' : srcOn (advanceTo t.toNat s.blk) n.val = true := (advanceTo_srcOn ..).trans hon
    refine ⟨midiSystemAt_on false (List.cons_ne_nil (locateEv 0) [transportEv 1]) hlive hon,
      midiSystemAt_on false (List.cons_ne_nil (transportEv 1) []) hlive hon, midiSystemAt_on false (List.cons_ne_nil (transportEv 0) []) hlive hon,
      fun lsb msb => midiSystemAt_on true (List.cons_ne_nil (locateEv ((msb.toNat * 128 + lsb.toNat) * 64)) []) hlive hon, fun byte => at_congr hlive ?ignored, fun bytes => at_congr hlive ?sysex,
      fun next hsel => (exec_midiTimingClock n t next s).trans (at_congr hlive (timingClock_on hon' (advanceTo_midi.trans hsel) t.toNat next.toNat)),
      fun hsense => at_congr hlive ?sensing,
      fun armed harmed hdue hsense => (exec_activeSensingTimeout n t s).trans (at_congr hlive ?timeout)⟩
    case ignored =>
      refine (midiSystem_silent hon' _ _).trans ?_
      by_cases h : byte.toNat < 0xF8 <;> simp only [h, decide_true, decide_false, if_true, if_false, Bool.false_eq_true]
    case sysex => exact midiSyx_on hon' _ _
    case sensing => exact activeSensing_on hon' _
    case timeout =>
      have hsame := (advanceTo_sameBut t.toNat s.blk).efe
      exact senseTimeout_on hon' ((advanceTo_on _ _ (asense_untimed n)).trans hsense) (by rw [hsame]; exact harmed) hdue

end Sys2Proof.Machine

namespace Sys2Proof.Machine

/-! ### UMP messages of an enabled source (R74–R76) -/

theorem umpMsg_on {src : Nat} {b : Block} (hon : umpOn b src = true) (g : Nat) (f : Block → Msg × Block) : umpMsg src g f b =
    submitMsg src (f (umpTime src g b).2).1 (umpTime src g b).1 (umpTime src g b).2 (f (umpTime src g b).2).2 := by
  unfold umpMsg
  rw [hon]
  rfl

theorem umpSkip_on {src : Nat} {b : Block} (hon : umpOn b src = true) (g : Nat) : umpSkip src g b = (umpTime src g b).2 :=
  if_pos hon

theorem umpJrClock_on {src : Nat} {b : Block} (hon : umpOn b src = true) (c : Nat) : umpJrClock src c b =
    { b with efe := { b.efe with jrClock := FMap.set (fun _ => none) b.efe.jrClock src (some ⟨b.sample, c⟩) } } := by
  unfold umpJrClock
  rw [hon]
  rfl

theorem umpJrTimestamp_on {src : Nat} {b : Block} {k : JrClock} (hon : umpOn b src = true) (hk : jrClockOf b src = some k) (g s : Nat) :
    umpJrTimestamp src g s b =
      let d := (s + 65536 - k.c % 65536) % 65536
      let at' := k.frame + (2 * d * b.fs + 31250) / 62500 + b.get (EFE_SRC_CFG_delay src)
      { b with efe := { b.efe with jrTime := FMap.set (fun _ => none) b.efe.jrTime (src * 16 + g) (some at') } } := by
  unfold umpJrTimestamp
  rw [hon, hk]
  rfl

/-- A message that leaves the block as the time left it. -/
theorem umpMsg_plain {src g : Nat} {b : Block} {f : Block → Msg × Block} {m : Msg} (hon : umpOn b src = true)
    (hf : f (umpTime src g b).2 = (m, (umpTime src g b).2)) :
    umpMsg src g f b = submitMsg src m (umpTime src g b).1 (umpTime src g b).2 (umpTime src g b).2 :=
  (umpMsg_on hon g f).trans (by rw [hf])

theorem umpItem {s : State} {src g : Nat} {f : Block → Msg × Block} {m : Msg} (hlive : s.live) (hon : umpOn s.blk src = true)
    (hf : f (umpTime src g s.blk).2 = (m, (umpTime src g s.blk).2)) : s.run (umpMsg src g f) = .next (s.on fun b =>
      submitMsg src m (umpTime src g b).1 (umpTime src g b).2 (umpTime src g b).2) :=
  run_live_congr hlive (umpMsg_plain hon hf)

/-- What a message makes of a channel with a part that is no member channel. -/
theorem onChan_part {b : Block} {g c p : Nat} (h : chanOf b g c = ⟨some p, false⟩) (f : Nat → Bool → List Ev) :
    onChan b g c f = { evs := f p false } := by
  unfold onChan
  rw [h]

theorem perNoteControl_part {b : Block} {g c p n : Nat} (h : chanOf b g c = ⟨some p, false⟩) (hn : n ≤ 127) (key v : Nat) (assignable : Bool) :
    perNoteControl g c key n assignable v b = { evs := [keyEv 5 p key (v + (n + if assignable then 128 else 0) * 2 ^ 24) 0] } :=
  (if_neg (Nat.not_lt.mpr hn)).trans (onChan_part h _)

theorem programMsg_part {b : Block} {g c p n prog : Nat} (h : chanOf b g c = ⟨some p, false⟩) (hn : n * 128 + prog < 4096) :
    programMsg g c prog (some n) b = { evs := [.mk' 8 0 0 p (n * 128 + prog)] } := by
  unfold programMsg
  rw [h]
  exact if_neg (Nat.not_le.mpr hn)

theorem umpUnsupported_on {src : UmpSrc} {g : Fin 16} {mt : BitVec 4} {s : State} (hmt : mt ≠ 0xF) (hlive : s.live) (hon : umpOn s.blk src.num = true) :
    exec (.umpUnsupportedType src g mt) s = .next (s.on fun x =>
      submit src.num true [] 5 false ((umpTime src.num g.val x).2.bump EFE_CNT_ump_unsup)) := by
  refine run_live_congr hlive ((if_pos hon).trans ?_)
  rw [if_neg hmt, umpSkip_on hon]

theorem umpSysex_on {src : UmpSrc} {g : Fin 16} {s : State} (hlive : s.live) (hon : umpOn s.blk src.num = true) (bytes : List Byte) :
    exec (.umpDataSysex src g bytes) s = .next (s.on fun x =>
      syxReach (syxPush src.num ([0xF0] ++ bytes ++ [0xF7]) (umpTime src.num g.val x).2)) := by
  refine run_live_congr hlive ((if_pos hon).trans ?_)
  rw [umpSkip_on hon]

theorem exec_umpStart (src : UmpSrc) (g : Fin 16) (d1 d2 : BitVec 7) (t : Long) (s : State) :
    exec (.umpSystem src g 0xFA d1 d2 t) s = s.at t (umpMsg src.num g.val fun a => ({ evs := [locateEv 0, transportEv 1] }, a)) := rfl

/-- A Start byte locates to beat 0 and runs the transport (R68, R74). -/
theorem umpStart_on {src : UmpSrc} {g : Fin 16} {t : Long} {s : State} (hlive : s.live) (hon : umpOn (advanceTo t.toNat s.blk) src.num = true)
    (d1 d2 : BitVec 7) : exec (.umpSystem src g 0xFA d1 d2 t) s = .next (s.on fun x =>
      submitMsg src.num { evs := [locateEv 0, transportEv 1] } (umpTime src.num g.val (advanceTo t.toNat x)).1
        (umpTime src.num g.val (advanceTo t.toNat x)).2 (umpTime src.num g.val (advanceTo t.toNat x)).2) :=
  (exec_umpStart src g d1 d2 t s).trans (at_congr hlive (umpMsg_plain hon rfl))

/-- Settles O49. -/
theorem umpMessages : Obligations.UmpMessages := by
  unfold Obligations.UmpMessages
  intro src g ch s hlive hon
  dsimp only
  have item {f : Block → Msg × Block} {m : Msg} (hf : f (umpTime src.num g.val s.blk).2 = (m, (umpTime src.num g.val s.blk).2)) :=
    umpItem hlive hon hf
  refine ⟨fun st d1 d2 => run_live_congr hlive (umpMsg_on hon ..), fun nrpn bank index v => run_live_congr hlive (umpMsg_on hon ..),
    fun p h => ?part, fun nrpn bank index v => item rfl, fun key => item rfl, fun mt hmt => umpUnsupported_on hmt hlive hon,
    fun t d1 d2 hon' => umpStart_on hlive hon' d1 d2, fun c => run_live_congr hlive (umpJrClock_on hon _),
    fun stamp k hk => run_live_congr hlive (umpJrTimestamp_on hon hk ..), umpSysex_on hlive hon⟩
  case part =>
    have msg {f : Nat → Bool → List Ev} := congrArg (·, (umpTime src.num g.val s.blk).2) (onChan_part h f)
    refine ⟨fun key vel => item msg, fun key vel attr => ⟨item msg, item msg⟩, fun key v => ⟨item msg, item msg⟩,
      fun assignable key index v hn => item (congrArg (·, _) (perNoteControl_part h hn ..)), fun cc v => item msg, fun v => ⟨item msg, item msg⟩,
      fun prog msb lsb hn => item (congrArg (·, _) (programMsg_part h hn)), fun key detach reset => item msg⟩

end Sys2Proof.Machine

namespace Sys2Proof.Machine

/-! ### The Dealer's commands under their conditions (R87, R91, R92, R106, R108, R170) -/

theorem cardCreate_due {b : Block} (hrun : b.on DLR_STAT_running = true) (hstart : b.tbu.started = true)
    (hdue : b.dlr.createdPick ≠ b.pickNo + 1) (hk : List HkRequest) : cardCreate hk b =
      let b1 := createLooms hk ((List.range 32).foldl (fun acc h => createHarness h hk acc) b)
      let b2 := (List.range 4).foldl (fun acc l => checkGate l (acc.dlr.pickT + 192 + (planOn acc l).length - 1) acc)
        { b1 with dlr := { b1.dlr with applies := [], createdPick := b1.pickNo + 1 } }
      answerQuery { b2 with alc := { b2.alc with step2Done := true } } := by
  have hserved : ¬ ((!b.on DLR_STAT_running) = true ∨ (!b.tbu.started) = true ∨ b.dlr.createdPick = b.pickNo + 1) := by
    rw [hrun, hstart]
    exact fun h => h.elim nofun (Or.elim · nofun hdue)
  dsimp only [cardCreate]
  rw [if_neg hserved]

theorem cardSelect_delivers {h t sh : Nat} {c : Card} {b : Block} (hsel : selected b h t = false) (hc : selection b h t = some (sh, c))
    (hloom : c.deck = h ∨ losesLoom b h c.deck t = false) : cardSelect h t b =
    deliver sh c (noteWait c t (noteDepth c.deck c.level t (noteSelected c.deck t (noteSelected h t b)))) := by
  unfold cardSelect
  rw [hsel, hc]
  have hplain : ¬ (c.deck ≠ h ∧ losesLoom b h c.deck t = true) :=
    fun ⟨hne, hl⟩ => hloom.elim hne fun hfalse => Bool.false_ne_true (hfalse.symm.trans hl)
  exact if_neg hplain

theorem cancelAtPoint_permitted {h t : Nat} {c : Card} {b : Block} (hc : cardOf b h = some c) (hx : c.cancelled t = true) (hst : shtState b h = 1)
    (hdone : (b.shuttle h).done = none) (hp : permitted b h = true) : cancelAtPoint h t b = enterDraw h t (failCard h c .cancelled t b) := by
  unfold cancelAtPoint
  rw [hc]
  exact if_pos ⟨hx, hst, by rw [hdone]; rfl, hp⟩

theorem snapDone_copied {a : Nat} {image : List Byte} {b : Block} (h : b.dlr.snap = some (a, image)) : snapDone b =
      let b1 := { b with
        mem := Memory.setBytes b.mem a image
        dlr := { b.dlr with snap := none } }
      (((b1.put DLR_SNAP_STAT_seq (b1.get DLR_SNAP_STAT_seq + 1)).put DLR_SNAP_STAT_ready 1).put DLR_SNAP_STAT_pending 0).flag
        DLR_IRQ_STAT_snap_ready := by
  unfold snapDone
  rw [h]

theorem templateCopied_waited {v : Nat} {b : Block} (hst : (b.voice v).st ≠ .free) (hc : (b.voice v).copied = false) : templateCopied v b =
    mirroredPnv v b.pickNo b.alc.mirror (mirroredPnv v (b.pickNo - 1) b.alc.lastMirror
      (({ b with mem := Memory.setBytes b.mem (ctxBase v) (b.templateBytes (b.voice v).template) }).setVoice v
        { b.voice v with
          copied := true, undo := (b.voice v).undo.filter fun u => match u.what with | .param _ => false | _ => true })) := by
  unfold templateCopied
  refine if_neg ?_
  rw [hc, Bool.or_false, beq_iff_eq]
  exact hst

theorem exec_cardSelect (h : Fin 32) (t : Long) (s : State) : exec (.cardSelect h t false) s = s.at t (cardSelect h.val t.toNat) := rfl

/-- Settles O50. -/
theorem dealerCommands : Obligations.DealerCommands := by
  unfold Obligations.DealerCommands
  refine ⟨fun hk s hlive hrun hstart hdue => run_live_congr hlive (cardCreate_due hrun hstart hdue hk),
    fun h t s hlive => ⟨at_live hlive .., fun sh c hsel hc hloom => ?_⟩,
    fun h t c s hlive hc hx hst hdone hp => at_congr hlive (cancelAtPoint_permitted hc hx hst hdone hp),
    fun a image s hlive h => run_live_congr hlive (snapDone_copied h), fun v s hlive hst hc => run_live_congr hlive (templateCopied_waited hst hc)⟩
  exact (exec_cardSelect h t s).trans (at_congr hlive (cardSelect_delivers hsel hc hloom))

end Sys2Proof.Machine

namespace Sys2Proof.Machine

/-! ### Bookings, waiting bus writes and windows (R137, R138, R159, R261) -/

theorem booking_mono {b : Block} {q : Pooled} (hq : b.alc.pooled.find? (·.booking) = some q) (hm : monoBusy b q.ev.ev.part = true) :
    booking b = unpool q.ev.stamp b := by
  unfold booking
  rw [hq]
  exact if_pos hm

theorem booking_books {b : Block} {q : Pooled} (hq : b.alc.pooled.find? (·.booking) = some q) (hm : monoBusy b q.ev.ev.part = false) :
    booking b =
      let r := bookNote (noteOf q.ev) q.ev.ev.ext q.nt (offsetIn b (q.ev.frame.getD 0) q.nt) q.left b
      let left := q.left.filter fun i => !r.placed.contains i
      let b2 := setPooled (r.blk.alc.pooled.map fun x => if x.ev.stamp = q.ev.stamp then
        { q with booking := false, left := left, booked := r.placed, note := r.note, passed := !left.isEmpty } else x) r.blk
      if left.isEmpty then b2
      else wsend (.pass (nextMember b2 (poolOf b2 q.ev.ev.part) (nodeId b2)) 0 (passMsg b2 q left)) (b2.bump VAL_CNT3_pass_out) := by
  unfold booking
  rw [hq]
  exact if_neg (Bool.eq_false_iff.mp hm)

theorem windowArrival_next {v : Nat} {b : Block} (hst : (b.voice v).st ≠ .free) (hw : windowsWait b v = false)
    (hf : fetchedBefore b v = false) (hwin : (b.voice v).winPick < max b.pickNo (b.voice v).startPick + 1) :
    windowArrival v b = b.setVoice v { b.voice v with winPick := max b.pickNo (b.voice v).startPick + 1 } := by
  unfold windowsWait at hw
  have hlive : ((b.voice v).st == .free) = false := beq_eq_false_iff_ne.mpr hst
  simp only [windowArrival, hw, hf, hlive, hwin, Bool.false_and, Bool.or_false, Bool.false_eq_true, if_false, if_true]

/-! ### The tuning messages of the firmware's queue (R148, R405) -/

/-- The queue of SysEx messages holds `l`. -/
def withSyx (l : List (Nat × List Byte)) (b : Block) : Block := setSys (fun s => { s with syx := l }) b

theorem withSyx_bump (l k : List (Nat × List Byte)) (f : Fld) (b : Block) :
    withSyx l (setSys (fun s => { s with syx := k }) (b.bump f)) = (withSyx l b).bump f := rfl

/-- Going through the queue takes messages from it and counts them. -/
theorem syxSkip_moves (q : List (Nat × List Byte)) : ∀ b : Block, ∃ l, RegsMoved [SYS_SYX_dropped.addr] (withSyx l b) (syxSkip q b) := by
  induction q with
  | nil => exact fun b => ⟨b.sys.syx, .refl _ b⟩
  | cons x rest ih =>
    intro b
    unfold syxSkip
    split
    · obtain ⟨l, h⟩ := ih (setSys (fun s => { s with syx := rest }) (b.bump SYS_SYX_dropped))
      rw [withSyx_bump] at h
      exact ⟨l, (RegsMoved.bump _ _ (List.mem_singleton_self _)).trans h⟩
    · exact ⟨b.sys.syx, .refl _ b⟩

theorem syxReach_moves (b : Block) : ∃ l, RegsMoved [SYS_SYX_dropped.addr] (withSyx l b) (syxReach b) := by
  unfold syxReach
  split
  · exact ⟨b.sys.syx, .refl _ b⟩
  · exact syxSkip_moves ..

/-- The block once the first message of the queue is served. -/
def syxServed (b : Block) : Block := syxReach (setSys (fun s => { s with syx := s.syx.drop 1 }) b)

/-- The first message is taken where the firmware runs and serves it. -/
theorem syxTake_first {b : Block} {src : Nat} {bytes : List Byte} {rest : List (Nat × List Byte)} {m : Mts} (hup : b.sys.mpDown = false)
    (hsyx : b.sys.syx = (src, bytes) :: rest) (hm : mtsOf (b.get SYS_CFG_dev_id) bytes = m) (hne : m ≠ .other) :
    syxTake b = some (m, syxServed b) := by
  have hreach : syxReach b = b := by
    unfold syxReach
    rw [hup, hsyx]
    exact if_neg (hm ▸ hne)
  unfold syxTake
  rw [hup, hreach]
  dsimp only [Bool.false_eq_true, if_false]
  rw [hsyx]
  exact congrArg (fun k => some (k, syxServed b)) hm

/-- What serving a message keeps. -/
structure SyxKeeps (b c : Block) : Prop where
  alc : c.alc = b.alc
  mem : c.mem = b.mem
  midiTx : c.sys.midiTx = b.sys.midiTx
  dev : c.get SYS_CFG_dev_id = b.get SYS_CFG_dev_id
  quiet : b.quiet → c.quiet

theorem syxServed_keeps (b : Block) : SyxKeeps b (syxServed b) := by
  obtain ⟨l, h⟩ := syxReach_moves (setSys (fun s => { s with syx := s.syx.drop 1 }) b)
  exact ⟨h.field Block.alc fun _ _ => rfl, h.field Block.mem fun _ _ => rfl, h.field (·.sys.midiTx) fun _ _ => rfl, h.get (by decide),
    fun hq => (withSyx l (setSys (fun s => { s with syx := s.syx.drop 1 }) b)).quiet_of_sys (h.field Block.sys fun _ _ => rfl) hq⟩

/-- A dump of a table reads the tuning tables and the device ID. -/
theorem mtsDump_keeps {b c : Block} (h : SyxKeeps b c) (t : Nat) : mtsDump c t = mtsDump b t := by
  unfold mtsDump
  rw [h.alc, h.dev]

theorem mtsBulkDump_take {b c : Block} {t : Nat} {keys : List (Nat × Nat)} (h : syxTake b = some (.bulk t keys, c)) :
    mtsBulkDump b = tuningWrite t keys false c := by
  unfold mtsBulkDump
  rw [h]

theorem mtsSingleNote_take {b c : Block} {t : Nat} {keys : List (Nat × Nat)} {retune : Bool}
    (h : syxTake b = some (.notes t keys retune, c)) : mtsSingleNote b = tuningWrite t keys retune c := by
  unfold mtsSingleNote
  rw [h]

theorem mtsRequest_take {b c : Block} {t : Nat} (h : syxTake b = some (.request t, c)) :
    mtsRequest b = setSys (fun x => { x with midiTx := x.midiTx ++ [mtsDump c t] }) c := by
  unfold mtsRequest
  rw [h]

/-- What the tables take of a message that is served. -/
theorem tuned_ends {s : State} {f : Block → Block} {t : Nat} {keys : List (Nat × Nat)} {retune : Bool} (hlive : s.live) (hq : s.blk.quiet)
    (hf : f s.blk = tuningWrite t keys retune (syxServed s.blk)) : ∃ u, s.run f = .next u ∧
      u.blk.alc = { s.blk.alc with tuningNext := s.blk.alc.tuningNext ++ keys.map fun kv => (t, kv.1, kv.2, retune) } ∧
      u.blk.sys.midiTx = s.blk.sys.midiTx ∧ u.blk.mem = s.blk.mem := by
  have hk := syxServed_keeps s.blk
  have hquiet : (tuningWrite t keys retune (syxServed s.blk)).quiet := hk.quiet hq
  refine ⟨_, run_ends hlive hf, (finish_alc 0 hquiet).trans ?_, (finish_sys 0 hquiet Sys.midiTx fun _ _ _ _ => rfl).trans hk.midiTx,
    (finish_mem 0 hquiet).trans hk.mem⟩
  rw [tuningWrite, hk.alc]

/-- Settles O51. -/
theorem voiceCommands : Obligations.VoiceCommands := by
  unfold Obligations.VoiceCommands
  refine ⟨fun q s hlive hq => ⟨fun hm => run_live_congr hlive (booking_books hq hm), fun hm => run_live_congr hlive (booking_mono hq hm)⟩,
    fun l bus s hlive hb => run_live_congr hlive (if_neg (Bool.eq_false_iff.mp hb)),
    fun v s hlive hst hw hf hwin => run_live_congr hlive (windowArrival_next hst hw hf hwin),
    fun s hlive => ⟨fun t keys b h => run_live_congr hlive (mtsBulkDump_take h), fun t keys retune b h => run_live_congr hlive (mtsSingleNote_take h),
      fun t b h => run_live_congr hlive (mtsRequest_take h)⟩,
    fun src bytes rest s hlive hq hup hsyx => ⟨fun t keys hm => ?bulk, fun t keys retune hm => ?notes, fun t hm => ?request⟩⟩
  case bulk => exact tuned_ends hlive hq (mtsBulkDump_take (syxTake_first hup hsyx hm nofun))
  case notes => exact tuned_ends hlive hq (mtsSingleNote_take (syxTake_first hup hsyx hm nofun))
  case request =>
    have hk := syxServed_keeps s.blk
    have hquiet : (setSys (fun x => { x with midiTx := x.midiTx ++ [mtsDump (syxServed s.blk) t] }) (syxServed s.blk)).quiet := hk.quiet hq
    refine ⟨_, run_ends hlive (mtsRequest_take (syxTake_first hup hsyx hm nofun)), (finish_sys 0 hquiet Sys.midiTx fun _ _ _ _ => rfl).trans ?_,
      (finish_alc 0 hquiet).trans hk.alc, (finish_mem 0 hquiet).trans hk.mem⟩
    rw [← hk.midiTx, ← mtsDump_keeps hk]
    rfl

end Sys2Proof.Machine

namespace Sys2Proof.Machine

/-! ### What happens to a shuttle (R95, R217, R218, R225–R230) -/

theorem eccCheck_clean (a : Nat) (scrub : Bool) (b : Block) : eccCheck a .clean scrub b = b := by
  unfold eccCheck
  split <;> rfl

theorem Xfer.move_clean {h : Nat} {x : Xfer} (he : x.ecc = .clean) (b : Block) : x.move h b =
    { b with mem := if x.store then Memory.setBytes b.mem (loomBase (h / 40) + x.loom) (Memory.bytes b.mem (privAddr h x.priv) x.size)
      else Memory.setBytes b.mem (privAddr h x.priv) (Memory.bytes b.mem (loomBase (h / 40) + x.loom) x.size) } := by
  unfold Xfer.move
  dsimp only
  rw [he, eccCheck_clean]
  unfold Xfer.from
  cases x.store <;> rfl

theorem completeXfer_cons {h : Nat} {x : Xfer} {rest : List Xfer} {b : Block} (hx : (b.shuttle h).xfers = x :: rest) :
    completeXfer h b = x.move h (b.setShuttle h { b.shuttle h with xfers := rest }) := by
  unfold completeXfer
  dsimp only
  rw [hx]

theorem handlerOverrun_expired {h : Nat} {b : Block} (hst : shtState b h = 2) (hf : (b.shuttle h).fence = 0) : handlerOverrun h b =
      let pc : Word := BitVec.ofNat 32 (b.shuttle h).pc
      let b1 := (((b.setShuttle h { b.shuttle h with ecause := 7, eaddr := pc }).put (SHT_SSTAT_state h) 4).put
        (SHT_SSTAT_cause h) 7).put (SHT_SFCAP_eaddr h) pc.toNat
      retireNext h ((b1.bump (SHT_SCNT_overruns h)).flag SHT_IRQ_STAT_overrun) := if_pos ⟨hst, hf⟩

theorem tapTaken_permitted {h : Nat} {b : Block} (hreq : (b.shuttle h).tapReq = true) (hopen : debugOpen b = true) (hst : shtState b h = 1)
    (hdone : (b.shuttle h).done = none) (hp : permitted b h = true) (hfault : (b.shuttle h).fault = none)
    (hfence : (b.shuttle h).fencePending = false) : tapTaken h b =
      let vec := if b.get SHT_VEC_tap_vec < 64 then 72 else b.get SHT_VEC_tap_vec
      (dropTap h (enterHandler h 3 0 (b.shuttle h).eaddr vec b)).flag SHT_IRQ_STAT_tap := by
  simp only [tapTaken, hreq, hopen, hst, hdone, hp, hfault, hfence, Option.isNone_none, Option.isSome_none, Bool.false_eq_true, and_self, or_self,
    if_true, if_false]

theorem fenceExpire_waits {h : Nat} {b : Block} (hst : shtState b h = 1) (hf : (b.shuttle h).fence = 0) (hdone : (b.shuttle h).done = none) :
    fenceExpire h b = b.setShuttle h { b.shuttle h with fencePending := true } := if_pos ⟨hst, hf, by rw [hdone]; rfl⟩

theorem fencedCompletion_permitted {h t : Nat} {c : Card} {b : Block} (hc : cardOf b h = some c) (hx : c.cancelled t = false)
    (hst : shtState b h = 1) (hfence : (b.shuttle h).fencePending = true) (hfault : (b.shuttle h).fault = none)
    (hdone : (b.shuttle h).done = none) (hp : permitted b h = true) :
    fencedCompletion h t b = enterDraw h t (dropTap h (noteFence h (failCard h c .fenced t b))) := by
  simp only [fencedCompletion, hc, hx, hst, hfence, hfault, hdone, hp, Option.isNone_none, and_self, if_true, Bool.false_eq_true, if_false]

theorem faultTaken_permitted {h t cause : Nat} {addr : Word} {c : Card} {b : Block} (hc : cardOf b h = some c) (hx : c.cancelled t = false)
    (hfault : (b.shuttle h).fault = some (cause, addr)) (hi : issuing b h = true) (hp : permitted b h = true) : faultTaken h t false b =
      let x := noteFault h (failCard h c .fault t b)
      faultHandler h cause addr (dropTap h (x.setShuttle h { x.shuttle h with card := none })) := by
  have hrun : running b h = true := (Bool.and_eq_true_iff.mp hi).1
  simp only [faultTaken, hc, hx, hfault, hrun, hp, Bool.false_and, Bool.not_true, Bool.false_eq_true, or_self, if_false]

/-- A card that no cancel reached is DONE, its last transfers and writes having landed (R230). -/
theorem doneAccept_ok {h t : Nat} {e pass : Bool} {c : Card} {b : Block} (hdone : (b.shuttle h).done = some e) (hc : cardOf b h = some c)
    (hty : c.type ≠ 4) (hcan : c.cancel = none) (hfault : ((dvBankFault h c (completeTo h 0 8 b)).shuttle h).fault = none) :
    doneAccept h t pass b =
      let b1 := dvBankFault h c (completeTo h 0 8 b)
      let b2 := if c.type = 5 ∨ ownsVoice b1 c then writeQueue c.flow (b1.shuttle h).drain.queue b1 else b1
      let run := romRun h c b2
      let sh := romShuttle c run b2 (b1.shuttle h).drain
      let bank := FMap.get (fun _ => {}) sh.banks sh.active
      let b3 := commitVoice c (e || (run.map (·.ended)).getD false) (romEffect h c run b2)
      let b4 := if c.render ∧ c.pick = b.pickNo ∧ b.mix.mixed ≤ c.pick then
          drainSends h c.pick c.flow (b.voice c.flow).startFrame bank
            (if c.type = 5 ∧ c.payload.getLsbD 39 then dvSend (c.flow / 256) c.pick b3 else b3)
        else b3
      let sends := c.render && !bank.sends.isEmpty
      let sh1 := { sh with
        queue := [], active := if sends then 1 - sh.active else sh.active
        banks := FMap.set (fun _ => {}) sh.banks sh.active { binds := [], sends := [], draining := sends || bank.draining } }
      finishCard c .ok t (enterDraw h t (noteServed h c (b4.setShuttle h sh1))) := by
  have hcancelled : c.cancelled t = false := by
    unfold Card.cancelled
    rw [hcan]
    rfl
  have hquiet (x : Block) : noteCancel c t x = x := by
    unfold noteCancel
    rw [hcan]
  unfold doneAccept
  rw [hdone, hc]
  simp only [hcancelled, hfault, hty, hquiet, Option.isSome_none, Bool.false_eq_true, if_false]

theorem tapRequest_open {v : Word} {b : Block} (hreq : v.getLsbD 8 = true) (hs : v.toNat % 256 < 160) (hopen : debugOpen b = true) :
    tapRequest v b =
      let b1 := b.put SHT_TAP_shuttle (v.toNat % 256)
      (b1.setShuttle (v.toNat % 256) { b1.shuttle (v.toNat % 256) with tapReq := true }).put SHT_TAP_req 1 :=
  (if_pos hreq).trans (if_pos ⟨hopen, hs⟩)

theorem plainReg_tap : plainReg SHT_TAP = true := by decide

theorem tapWrite_open {m : Nat} {v : Word} {b : Block} (hm : accessMade m SHT_TAP b = true) (hreq : v.getLsbD 8 = true)
    (hs : v.toNat % 256 < 160) (hopen : debugOpen b = true) : writeReg m SHT_TAP v 0 b = wrote m (fun b0 =>
      let b1 := b0.put SHT_TAP_shuttle (v.toNat % 256)
      (b1.setShuttle (v.toNat % 256) { b1.shuttle (v.toNat % 256) with tapReq := true }).put SHT_TAP_req 1) b :=
  (writeReg_of_single plainReg_tap hm (no_hw _) rfl).trans (congrArg (setResp m {}) (tapRequest_open hreq hs hopen))

/-- Settles O52. -/
theorem shuttleEvents : Obligations.ShuttleEvents := by
  unfold Obligations.ShuttleEvents
  refine ⟨fun h s hlive => ⟨fun x rest hx he => run_live_congr hlive ((completeXfer_cons hx).trans (Xfer.move_clean he _)), fun hi => run_live_congr hlive (if_pos hi),
      fun k => run_live hlive _, fun hst hf => run_live_congr hlive (handlerOverrun_expired hst hf),
      fun hreq hopen hst hdone hp hfault hfence => run_live_congr hlive (tapTaken_permitted hreq hopen hst hdone hp hfault hfence)⟩,
    fun h t s hlive => ⟨fun pass e c hdone hc hty hcan hfault => ?done, fun hst hf hdone => at_congr hlive (fenceExpire_waits hst hf hdone),
      fun c hc hx hst hfence hfault hdone hp => at_congr hlive (fencedCompletion_permitted hc hx hst hfence hfault hdone hp),
      fun c cause addr hc hx hfault hi hp => at_congr hlive (faultTaken_permitted hc hx hfault hi hp)⟩,
    fun m v s hlive hm hreq hs hopen => run_live_congr hlive (tapWrite_open hm hreq hs hopen)⟩
  case done => exact at_congr hlive (doneAccept_ok hdone hc hty hcan hfault)

end Sys2Proof.Machine

namespace Sys2Proof.Machine

/-! ### The mix and the decimation lanes (R265, R269, R271) -/

theorem plainReg_mixCtl : plainReg MIX_CTL = true := by decide
theorem elementReg_laneCfg_rows : ∀ (i : Fin 4) (j : Fin 64), elementReg 4 (64 * i.val + j.val) (DCH_LCFG (64 * i.val + j.val)) = true := by decide

theorem elementReg_laneCfg (l : Fin 256) : elementReg 4 l.val (DCH_LCFG l.val) = true := by
  have h := elementReg_laneCfg_rows ⟨l.val / 64, by omega⟩ ⟨l.val % 64, by omega⟩
  rwa [show 64 * (l.val / 64) + l.val % 64 = l.val from Nat.div_add_mod ..] at h

theorem elementReg_inputCfg : ∀ l : Fin 128, elementReg 5 l.val (DCH_ICFG l.val) = true := by decide

theorem laneWrite_made {m : Nat} {l : Fin 256} {v : Word} {b : Block} (hm : accessMade m (DCH_LCFG l.val) b = true) :
    writeReg m (DCH_LCFG l.val) v 0 b = wrote m (laneWrite l.val v) b := writeReg_elementReg (elementReg_laneCfg l) hm fun _ => rfl

theorem inputWrite_made {m : Nat} {l : Fin 128} {v : Word} {b : Block} (hm : accessMade m (DCH_ICFG l.val) b = true) :
    writeReg m (DCH_ICFG l.val) v 0 b = wrote m (inputWrite l.val v) b := writeReg_elementReg (elementReg_inputCfg l) hm fun _ => rfl

theorem loomFadeDone_off {l : Nat} {b : Block} (hf : b.bit MIX_STAT_fading l = true) (hl : l ∈ b.mix.off) :
    loomFadeDone l b = ((b.clrBit MIX_STAT_fading l).clrBit MIX_STAT_contrib l).flag MIX_IRQ_STAT_fade_done := by
  unfold loomFadeDone
  rw [if_pos hf]
  exact if_pos (List.contains_iff_mem.mpr hl)

/-- A cross-fade whose last sample has been made is over. -/
theorem fadeEnd_over {a : Nat} {x : Lane} {b : Block} (hf : b.on (stXfade a) = true) (hx : 2 ^ x.xk ≤ x.xf) : fadeEnd a x b =
    some ({ x with cur := x.inc, inc := {}, xf := 0 },
      (((b.put (stCur a) (b.get (stInc a))).put (stInc a) 0).put (stXfade a) 0).flag DCH_IRQ_STAT_xfade_done) := if_pos ⟨hf, hx⟩

theorem crossfadeDone_over {l : Nat} {b : Block} (hf : b.on (stXfade (DCH_LSTAT l)) = true) (hx : 2 ^ (laneOf b l).xk ≤ (laneOf b l).xf) :
    crossfadeDone l b =
      let a := DCH_LSTAT l
      setLane l { laneOf b l with cur := (laneOf b l).inc, inc := {}, xf := 0 }
        ((((b.put (stCur a) (b.get (stInc a))).put (stInc a) 0).put (stXfade a) 0).flag DCH_IRQ_STAT_xfade_done) := by
  unfold crossfadeDone
  rw [fadeEnd_over hf hx]

theorem inputFadeDone_over {l : Nat} {b : Block} (hf : b.on (stXfade (DCH_ISTAT l)) = true) (hx : 2 ^ (inputOf b l).xk ≤ (inputOf b l).xf) :
    inputFadeDone l b =
      let a := DCH_ISTAT l
      setInput l { inputOf b l with cur := (inputOf b l).inc, inc := {}, xf := 0 }
        ((((b.put (stCur a) (b.get (stInc a))).put (stInc a) 0).put (stXfade a) 0).flag DCH_IRQ_STAT_xfade_done) := by
  unfold inputFadeDone
  rw [fadeEnd_over hf hx]

/-! ### Serial audio ports and CV channels (R277, R291, R294, R301) -/

theorem sapFrameStart_runs {n t : Nat} {b : Block} (hen : sapEnabled n t b = true) (hrun : b.on (SAP_STAT_running n) = true) (bits : Nat)
    (di : List Word) (under full : List Nat) : sapFrameStart n t bits di under full b = sapFrameRun n t bits di under full b :=
  (if_pos hen).trans (if_pos hrun)

theorem sapFrameStart_starts {n t : Nat} {b : Block} (hen : sapEnabled n t b = true) (hrun : b.on (SAP_STAT_running n) = false) (bits : Nat)
    (di : List Word) (under full : List Nat) : sapFrameStart n t bits di under full b = sapStart n t b :=
  (if_pos hen).trans (if_neg (Bool.eq_false_iff.mp hrun))

theorem sapFrameStart_stops {n t : Nat} {b : Block} (hen : sapEnabled n t b = false) (bits : Nat)
    (di : List Word) (under full : List Nat) : sapFrameStart n t bits di under full b = sapStop n b := if_neg (Bool.eq_false_iff.mp hen)

/-- The dither cycle moves with channel 0, the first of each period (R294). -/
def ditherMoved (n : Nat) (b : Block) : Block := if n = 0 then { b with cvo := { b.cvo with k := (b.cvo.k + 1) % 64 } } else b

theorem cvPeriod_idle {n : Nat} {b : Block} (hoff : (ditherMoved n b).on CVO_STAT_applied = false ∨ (ditherMoved n b).on (CVO_CH_CFG_en n) = false)
    (he : (cvChan (ditherMoved n b) n).entries = []) : cvPeriod n b =
      setCvChan n { cvChan (ditherMoved n b) n with driven := false, high := 0, due := false, val := none } (ditherMoved n b) := by
  have hcond : ((ditherMoved n b).on CVO_STAT_applied && (ditherMoved n b).on (CVO_CH_CFG_en n)) = false := Bool.and_eq_false_iff.mpr hoff
  unfold cvPeriod
  unfold ditherMoved at *
  generalize (if n = 0 then { b with cvo := { b.cvo with k := (b.cvo.k + 1) % 64 } } else b) = c at *
  simp only [he, hcond, List.partition_eq_filter_filter, List.filter_nil, List.foldl_nil, Bool.false_eq_true, if_false]

/-- What the start of a period leaves of a channel's state. -/
structure PeriodStarted (src : Nat) (c : CvChan) : Prop where
  driven : c.driven = true
  entries : c.entries = []
  src : c.src = src

theorem PeriodStarted.reSpan {src : Nat} {c : CvChan} (bip keep : Bool) (h : c.entries = []) :
    PeriodStarted src { c.reSpan bip keep with src := src, driven := true } := by
  refine ⟨rfl, ?_, rfl⟩
  show (c.reSpan bip keep).entries = []
  unfold CvChan.reSpan
  split <;> exact h

theorem cvPeriod_driven {n : Nat} {b : Block} (happ : (ditherMoved n b).on CVO_STAT_applied = true)
    (hen : (ditherMoved n b).on (CVO_CH_CFG_en n) = true) (he : (cvChan (ditherMoved n b) n).entries = [])
    (hclr : cvClear (ditherMoved n b) = false) : ∃ c : CvChan, cvPeriod n b = cvDrive n c (ditherMoved n b) ∧ c.driven = true ∧ c.val = none ∧
      c.entries = [] ∧ c.src = cvSrc (ditherMoved n b) n := by
  unfold cvPeriod
  unfold ditherMoved at *
  generalize (if n = 0 then { b with cvo := { b.cvo with k := (b.cvo.k + 1) % 64 } } else b) = c at *
  have hstart := PeriodStarted.reSpan (src := cvSrc c n) (c := { cvChan c n with entries := [] }) (c.on (CVO_CH_CFG_span n)) (c.on (CVO_CH_CFG_span_keep n)) rfl
  simp only [he, happ, hen, hclr, List.partition_eq_filter_filter, List.filter_nil, List.foldl_nil, sortBy, Bool.and_self, Bool.false_eq_true, if_false, if_true]
  generalize ({ cvChan c n with entries := [] } : CvChan).reSpan (c.on (CVO_CH_CFG_span n)) (c.on (CVO_CH_CFG_span_keep n)) = x at *
  obtain ⟨hd, hent, hsrc⟩ := hstart
  refine ⟨_, rfl, ?_⟩
  cases hval : x.val with
  | none => exact ⟨hd, rfl, hent, hsrc⟩
  | some cb =>
    dsimp only
    split
    · exact ⟨hd, rfl, hent, hsrc⟩
    · exact ⟨hd, rfl, hent, hsrc⟩

/-- Settles O53. -/
theorem outputCommands : Obligations.OutputCommands := by
  unfold Obligations.OutputCommands
  refine ⟨fun m v s hlive hm => run_live_congr hlive (writeReg_of_single plainReg_mixCtl hm (no_hw _) rfl),
    fun l s hlive hf hl => run_live_congr hlive (loomFadeDone_off hf hl),
    fun m v l s hlive => ⟨fun hm => run_live_congr hlive (laneWrite_made hm),
      fun hl hm => run_live_congr hlive ((if_pos hl).trans (inputWrite_made (l := ⟨l.val, hl⟩) hm))⟩,
    fun l s hlive hf hx => run_live_congr hlive (crossfadeDone_over hf hx),
    fun l s hlive hl hf hx => run_live_congr hlive ((if_pos hl).trans (inputFadeDone_over hf hx)),
    fun n t bits di under full s hlive => ⟨fun hen hrun => at_congr hlive (sapFrameStart_runs hen hrun ..),
      fun hen hrun => at_congr hlive (sapFrameStart_starts hen hrun ..), fun hen => at_congr hlive (sapFrameStart_stops hen ..)⟩,
    fun n s hlive => ⟨⟨fun hoff he => run_live_congr hlive (cvPeriod_idle hoff he), fun happ hen he hclr => ?driven⟩,
      fun hdue => run_live_congr hlive (if_pos hdue)⟩⟩
  case driven =>
    obtain ⟨c, hc, hrest⟩ := cvPeriod_driven happ hen he hclr
    exact ⟨c, run_live_congr hlive hc, hrest⟩

end Sys2Proof.Machine

namespace Sys2Proof.Machine

/-! ### Transactions, SYS_CTL and the DMA (R5, R308, R329, R332–R334) -/

theorem request_transacts {w : Who} {b : Block} (hw : w.master ≠ 11) (hdrain : b.bit BMX_MSTAT_draining w.master = false) (a n id : Nat)
    (data : Option (List (Option Byte))) (e : Ecc) (hw' : Word) : request w a n id data e hw' none b =
      setResp w.master (transact w a n id data e hw' none b).1 (transact w a n id data e hw' none b).2 :=
  (if_neg fun h => hw h.1).trans (if_neg (Bool.eq_false_iff.mp hdrain))

theorem writeReg_sysCtl {m : Nat} {v : Word} {b : Block} {h : RegHit} (hm : accessMade m SYS_CTL b = true) (hr : regAt SYS_CTL = some h) :
    writeReg m SYS_CTL v 0 b = wrote m (writeCodes h v.toNat 0) b := by
  have hplain : plainReg SYS_CTL = true := by decide
  have hsingle : SYS_CTL ∉ singles := by decide
  have helement : elementAt SYS_CTL = none := by decide
  have hpower : ¬ (SYS_CTL = PWR_ILIM ∨ SYS_CTL = PWR_GOV) := by decide
  obtain ⟨hin, htun, r, hreg, hkey, hwide⟩ := plainReg_hit hplain
  obtain rfl : r = h := Option.some.inj (hreg.symm.trans hr)
  have helem : writeElement r.key v r b = none := by rw [writeElement_eq, hkey, helement]; rfl
  refine (writeReg_codes hm hin htun hr hwide (writeSingle_none (hkey ▸ hsingle) ..) helem).trans ?_
  rw [hkey]
  exact congrArg (fun c => setResp m {} (writeCodes r v.toNat 0 c)) (if_neg hpower)

theorem integrityFail_gateway {m : Nat} (h7 : 7 ≤ m) (h10 : m ≤ 10) (b : Block) : integrityFail m b = quarantineNext (m - 7) 1 b :=
  if_pos ⟨h7, h10⟩

theorem integrityFail_other {m : Nat} (h : m < 7 ∨ 10 < m) (b : Block) : integrityFail m b = safeEntry 1 m b := if_neg (by omega)

/-- The low bits of a DMA command that starts a channel. -/
theorem dmaCtlWrite_start {c : Nat} {v : Word} (b : Block) (habort : v.getLsbD 1 = false) : dmaCtlWrite c (v ||| 1) b =
    dmaStart c ((b.put (BMX_DMA_CTL_as c) (v.toNat / 4 % 2)).put (BMX_DMA_CTL_irq c) (v.toNat / 8 % 2)) := by
  have h0 : (v ||| 1).getLsbD 0 = true := by rw [BitVec.getLsbD_or]; simp
  have h1 : (v ||| 1).getLsbD 1 = false := by rw [BitVec.getLsbD_or, habort]; rfl
  have h2 : (v ||| 1).toNat / 4 % 2 = v.toNat / 4 % 2 := by
    rw [BitVec.toNat_or, show 4 = 2 ^ 2 from rfl, ← Nat.shiftRight_eq_div_pow, ← Nat.shiftRight_eq_div_pow, Nat.shiftRight_or_distrib]
    simp
  have h3 : (v ||| 1).toNat / 8 % 2 = v.toNat / 8 % 2 := by
    rw [BitVec.toNat_or, show 8 = 2 ^ 3 from rfl, ← Nat.shiftRight_eq_div_pow, ← Nat.shiftRight_eq_div_pow, Nat.shiftRight_or_distrib]
    simp
  unfold dmaCtlWrite
  simp only [h0, h1, h2, h3, Bool.false_eq_true, if_false, if_true]

theorem dmaComplete_clean {c : Nat} {x : Dma} {b : Block} (hx : FMap.get (fun _ => none) b.mm.dma c = some x) (hab : x.aborted = false) (n : Nat) :
    dmaComplete c n .clean b =
      let r := dmaCopy c { master := 4, host := x.host } (x.len / 16 + 1) x.src x.dst x.len 0 b
      if r.1 = 15 then b else if r.1 ≠ 0 then dmaFinish c 4 r.1 r.2.1 r.2.2 else dmaFinish c 2 0 r.2.1 r.2.2 := by
  unfold dmaComplete
  rw [hx]
  simp only [hab, Bool.or_self, Bool.false_eq_true, if_false]

/-- A drain of another master than the MP that held nothing. -/
theorem drainDone_empty {m : Nat} {b : Block} (hd : b.bit BMX_MSTAT_draining m = true) (hm : m ≠ 0) (hheld : b.mm.drainHeld = []) :
    drainDone m b = (b.clrBit BMX_MSTAT_draining m).flag BMX_IRQ_STAT_drain_done := by
  have hsame (c : Block) (h : c.mm.drainHeld = []) :
      ({ c with mm := { c.mm with drainHeld := c.mm.drainHeld.filter fun x => x.master != m } } : Block) = c := by
    rw [h, List.filter_nil, ← h]
  unfold drainDone
  rw [if_pos hd, hheld]
  dsimp only [List.filter_nil, List.foldl_nil]
  rw [if_neg hm]
  exact hsame _ hheld

/-- Settles O54. -/
theorem busCommands : Obligations.BusCommands := by
  unfold Obligations.BusCommands
  refine ⟨fun m host a id x e hw s hlive => ⟨fun hx hdrain hm => run_live_congr hlive ((if_neg hx).trans (request_transacts hm hdrain ..)),
      fun h7 h10 => run_live_congr hlive ((if_pos rfl).trans (integrityFail_gateway h7 h10 _)), fun h => run_live_congr hlive ((if_pos rfl).trans (integrityFail_other h _))⟩,
    fun m v h s hlive hm hr => ⟨run_live_congr hlive (writeReg_sysCtl hm hr), run_live_congr hlive (writeReg_sysCtl hm hr)⟩,
    fun a e s hlive hen => ⟨run_live_congr hlive (if_pos hen), run_live_congr hlive (if_pos hen)⟩,
    fun m c v s hlive hm habort => run_live_congr hlive ?start,
    fun c x n s hlive hx hab => run_live_congr hlive (dmaComplete_clean hx hab n.toNat),
    fun m s hlive hd hm hheld => run_live_congr hlive (drainDone_empty hd hm hheld)⟩
  case start =>
    exact (writeReg_elementReg (elementReg_dmaCtl c) hm (f := dmaCtlWrite c.val (v ||| 1)) fun _ => rfl).trans
      (congrArg (setResp m.val {}) (dmaCtlWrite_start s.blk habort))

end Sys2Proof.Machine

namespace Sys2Proof.Machine

/-! ### Ports (R336, R339, R351) -/

theorem portState_enum : ∀ p : Fin 2, ∀ f ∈ [WFT_PORT_STAT_state p.val, WFT_PORT_STAT_swap p.val, WFT_PORT_STAT_inv p.val, WFT_IRQ_STAT_port],
    f.disjoint WFT_STAT_enum = true := by decide

theorem portState_wrap : ∀ p : Fin 2, ∀ f ∈ [WFT_PORT_STAT_state p.val, WFT_IRQ_STAT_port], f.disjoint (WFT_PORT_STAT_wrap p.val) = true := by decide

/-- A port of a node in its ring comes up: its state is flagged, and no enumeration follows. -/
theorem portUp_inRing {p : Fin 2} {b : Block} (hwas : b.get (WFT_PORT_STAT_state p.val) ≠ 2) (hring : inRing b = true) (swap : Bool) (inv : Nat) :
    portUp p.val swap inv b = (((b.put (WFT_PORT_STAT_state p.val) 2).put (WFT_PORT_STAT_swap p.val) (if swap then 1 else 0)).put
      (WFT_PORT_STAT_inv p.val) inv).flag WFT_IRQ_STAT_port := by
  have hd := portState_enum p
  have hkept : inRing ((((b.put (WFT_PORT_STAT_state p.val) 2).put (WFT_PORT_STAT_swap p.val) (if swap then 1 else 0)).put
      (WFT_PORT_STAT_inv p.val) inv).flag WFT_IRQ_STAT_port) = true := by
    unfold inRing Block.flag at *
    rw [Block.on_eq] at *
    rwa [Block.get_put_disjoint _ _ (hd _ (by simp)), Block.get_put_disjoint _ _ (hd _ (by simp)), Block.get_put_disjoint _ _ (hd _ (by simp)),
      Block.get_put_disjoint _ _ (hd _ (by simp))]
  unfold portUp
  dsimp only
  rw [if_neg hwas, if_neg]
  rw [hkept]
  exact fun h => Bool.false_ne_true h.2.2.1

theorem wrapAt_new {p : Nat} {b : Block} (h : b.on (WFT_PORT_STAT_wrap p) = false) : wrapAt p b =
    let b1 := ((b.put (WFT_PORT_STAT_wrap p) 1).put WFT_STAT_wrapped 1).put WFT_STAT_ring_wrapped 1
    weftWrapOk (probe ((b1.bump WFT_CNT_wraps).flag WFT_IRQ_STAT_wrap)) := if_neg (Bool.eq_false_iff.mp h)

/-- A port that was UP goes DOWN: the node wraps at it, and the hops are measured again. -/
theorem portDown_up {p : Fin 2} {b : Block} (hwas : b.get (WFT_PORT_STAT_state p.val) = 2) (hwrap : b.on (WFT_PORT_STAT_wrap p.val) = false) :
    portDown p.val b =
      let b1 := setWeft (fun w => if p.val = 0 then { w with crcA := 0 } else { w with crcB := 0 })
        (wsend (.marker 5 0) ((b.put (WFT_PORT_STAT_state p.val) 1).flag WFT_IRQ_STAT_port))
      let b2 := ((b1.put (WFT_PORT_STAT_wrap p.val) 1).put WFT_STAT_wrapped 1).put WFT_STAT_ring_wrapped 1
      weftWrapOk (probe ((b2.bump WFT_CNT_wraps).flag WFT_IRQ_STAT_wrap)) := by
  have hd := portState_wrap p
  have hkept : ((b.put (WFT_PORT_STAT_state p.val) 1).flag WFT_IRQ_STAT_port).on (WFT_PORT_STAT_wrap p.val) = false := by
    unfold Block.flag
    rw [Block.on_eq] at *
    rwa [Block.get_put_disjoint _ _ (hd _ (by simp)), Block.get_put_disjoint _ _ (hd _ (by simp))]
  unfold portDown
  rw [if_pos hwas]
  generalize (b.put (WFT_PORT_STAT_state p.val) 1).flag WFT_IRQ_STAT_port = c at *
  exact wrapAt_new ((Block.on_congr (c := c) rfl _).trans hkept)

/-! ### Enumeration (R338) -/

theorem hopOn_left {h : WHdr} (httl : 1 < h.ttl.toNat) (x : WSend) (b : Block) : hopOn h x b = wsend x b := if_neg (Nat.not_le.mpr httl)

theorem plainReg_weftCtl : plainReg WFT_CTL = true := by decide

theorem weftCtl_reenum {b : Block} (hr : isRoot b = true) : weftCtl 1 b = enumStart (b.flag WFT_CTL_reenum) := if_pos hr

theorem weftCtl_unwrap {b : Block} (hr : isRoot b = true) : weftCtl 2 b = unwrapSend (b.flag WFT_CTL_unwrap) := if_pos hr

theorem lapStart_root {b : Block} (hr : isRoot b = true) (hring : inRing b = true) (hp : b.tbu.firstPick + 2 ≤ b.pickNo) : lapStart b =
    (List.range (nseg b)).foldl (fun acc k =>
      let r := addSegment acc (b.pickNo - 2) k (List.replicate (16 * acc.pick) 0)
      wsend (.audio false false ((b.pickNo - 2) % 65536) k r.1) (if r.2 then noteWeftSat (b.pickNo - 2) acc else acc)) b := by
  unfold lapStart
  rw [hr, hring, decide_eq_true hp]
  rfl

theorem enumTake_forwards {h : WHdr} (httl : 1 < h.ttl.toNat) (root : Nat) (table : List (Nat × Nat)) (tooMany : Bool) (b : Block) :
    enumTake h root table tooMany b =
      if 1023 < table.length + 1 then wsend (.enumerate root table.length table true)
        (((b.flag WFT_STAT_too_many).put WFT_NODE_id 0).put WFT_STAT_enum 0)
      else wsend (.enumerate root (table.length + 1) (table ++ [(b.num SEC_SERIAL, b.get (WFT_PORT_STAT_hop 0))]) tooMany)
        (probe (b.put WFT_NODE_id (table.length + 1))) := by
  unfold enumTake
  dsimp only
  rw [hopOn_left httl, hopOn_left httl]

theorem enumFrame_node {h : WHdr} {b : Block} (hr : isRoot b = false) (hcrc : h.crcOk = true) (hleg : onSecondary h b = false)
    (root : Nat) (table : List (Nat × Nat)) (tooMany : Bool) : enumFrame h root table tooMany b = enumTake h root table tooMany b := by
  unfold enumFrame
  rw [hcrc, hleg, hr]
  rfl

theorem enumDoneFrame_node {h : WHdr} {b : Block} {table : List (Nat × Nat)} (hr : isRoot b = false) (hcrc : h.crcOk = true)
    (hleg : onSecondary h b = false) (httl : 1 < h.ttl.toNat) (hid : nodeId b ≠ 0) (hlt : nodeId b < table.length) (lout : Nat) (wrapped : Bool) :
    enumDoneFrame h table lout wrapped b = wsend (.enumDone table.length table lout wrapped) (enumApply table lout wrapped b) := by
  simp only [enumDoneFrame, hcrc, hleg, hr, Bool.not_true, Bool.false_eq_true, if_false, hopOn_left httl]
  rw [if_pos ⟨hid, hlt⟩]

/-! ### Markers (R342, R343) -/

theorem isRoot_advanceTo (t : Nat) (b : Block) : isRoot (advanceTo t b) = isRoot b := by
  have hroot : WFT_STAT_root.addr ∉ timeRegs := by decide
  have hdup : WFT_STAT_dup_root.addr ∉ timeRegs := by decide
  unfold isRoot
  rw [advanceTo_on t b hroot, advanceTo_on t b hdup]

theorem isRoot_timeMarker (v : Nat) (b : Block) : isRoot (timeMarker v b) = isRoot b := by
  unfold timeMarker
  dsimp only
  split <;> rfl

theorem beatMarker_node {b : Block} (hr : isRoot b = false) (v t next : Nat) : beatMarker v t next b =
    tempoEdge 3 (t - droot (wsend (.marker 2 v) b)) next (some (unwrapBeat ((wsend (.marker 2 v) b).num TBU_BEAT) v))
      (2 ^ 64 / ppqnOf ((wsend (.marker 2 v) b).get WFT_CFG_bppqn)) (wsend (.marker 2 v) b) := if_neg (Bool.eq_false_iff.mp hr)

/-- A TIME marker of a node that takes its reference frames from the link. -/
theorem timeMarkerEdge_link {v t : Nat} {b : Block} (hr : isRoot (advanceTo t b) = false)
    (htref : (timeMarker v (advanceTo t b)).on WFT_CFG_tref = false) (hsel : (timeMarker v (advanceTo t b)).tbu.sel.src = 2) :
    timeMarkerEdge v t b = refEdge (some v) (t - droot (timeMarker v (advanceTo t b))) (timeMarker v (advanceTo t b)) := by
  obtain ⟨c, hc⟩ : ∃ c, timeMarker v (advanceTo t b) = c := ⟨_, rfl⟩
  have hroot : isRoot c = false := by rw [← hc, isRoot_timeMarker, hr]
  unfold timeMarkerEdge
  dsimp only
  rw [hc] at htref hsel ⊢
  rw [if_neg (Bool.eq_false_iff.mp hroot), if_neg (Bool.eq_false_iff.mp htref), if_pos hsel]

theorem exec_beatMarker (v : BitVec 52) (t next : Long) (s : State) :
    exec (.beatMarker v t next) s = s.at t (beatMarker v.toNat t.toNat next.toNat) := rfl

theorem exec_timeMarker (v : BitVec 52) (t : Long) (s : State) : exec (.timeMarker v t) s = s.run (timeMarkerEdge v.toNat t.toNat) := rfl

/-- Settles O55. -/
theorem ringCommands : Obligations.RingCommands := by
  unfold Obligations.RingCommands
  refine ⟨fun p s hlive => ⟨fun swap inv hwas hring => run_live_congr hlive (portUp_inRing hwas hring ..),
      fun hwas hwrap => ⟨run_live_congr hlive (portDown_up hwas hwrap), run_live_congr hlive (portDown_up hwas hwrap)⟩, fun trip => run_live hlive _⟩,
    fun m s hlive hm hr => ?ctl,
    fun s hlive hr => ⟨fun he => run_live_congr hlive (if_pos he), fun ha => run_live_congr hlive (if_pos ha),
      fun hring hp => run_live_congr hlive (lapStart_root hr hring hp)⟩,
    fun s hlive hr => ⟨fun h root table tooMany hcrc hleg httl =>
        run_live_congr hlive ((enumFrame_node hr hcrc hleg ..).trans (enumTake_forwards httl ..)),
      fun h table lout wrapped hcrc hleg httl hid hlt => run_live_congr hlive ?done, fun v t next _ => ?beat⟩,
    fun v t s hlive => ⟨run_live hlive _, fun hr htref hsel => (exec_timeMarker v t s).trans (run_live_congr hlive (timeMarkerEdge_link hr htref hsel))⟩,
    fun s hlive => ⟨fun kind => run_live hlive _, fun h hcrc => run_live_congr hlive (if_pos hcrc)⟩⟩
  case ctl =>
    exact ⟨run_live_congr hlive ((writeReg_of_single plainReg_weftCtl hm (no_hw _) rfl).trans (congrArg (setResp m.val {}) (weftCtl_reenum hr))),
      run_live_congr hlive ((writeReg_of_single plainReg_weftCtl hm (no_hw _) rfl).trans (congrArg (setResp m.val {}) (weftCtl_unwrap hr)))⟩
  case done =>
    have hlen : nodeId s.blk < (nodeTable table).length := by rwa [nodeTable, List.length_map]
    exact enumDoneFrame_node hr hcrc hleg httl hid hlen ..
  case beat => exact (exec_beatMarker v t next s).trans (at_congr hlive (beatMarker_node ((isRoot_advanceTo ..).trans hr) ..))

end Sys2Proof.Machine

namespace Sys2Proof.Machine

/-! ### The way of a frame (R340) -/

/-- A frame with a good CRC on the primary leg that has reached its destination is taken. -/
theorem onFrame_taken {h : WHdr} {b : Block} (hcrc : h.crcOk = true) (hleg : onSecondary h b = false) (hb : h.bcast = false)
    (hring : inRing b = true) (hdst : h.dst.val = nodeId b) (cls : Nat) (take : Block → Block) : onFrame cls h take b = take b := by
  have hends : endsHere h b = true := by
    unfold endsHere
    rw [hring, hleg, hb]
    simpa using hdst
  unfold onFrame
  rw [hcrc, hleg, hring, hb, hends]
  rfl

/-- A frame with a bad CRC is counted and goes on marked. -/
theorem onFrame_badCrc {h : WHdr} {b : Block} (hcrc : h.crcOk = false) (hends : endsHere h b = false) (httl : 1 < h.ttl.toNat)
    (hleg : h.leg = false) (hfew : b.wft.crcA < 3) (cls : Nat) (take : Block → Block) : onFrame cls h take b =
    wsend (.passOn cls h.src.val h.dst.val (h.ttl.toNat - 1) h.bcast h.wrapped false)
      (setWeft (fun w => { w with crcA := w.crcA + 1 }) (b.bump WFT_CNT_crc)) := by
  have hcount : crcFail h b = setWeft (fun w => { w with crcA := w.crcA + 1 }) (b.bump WFT_CNT_crc) := by
    have hup : ¬ 4 ≤ b.wft.crcA + 1 := by omega
    unfold crcFail
    rw [hleg]
    simp [setWeft, hup]
  have hsec (c : Block) : onSecondary h c = false := by
    unfold onSecondary
    rw [hleg, Bool.false_and]
  unfold onFrame badCrc frameOn
  rw [hcrc, hends, hopOn_left httl, hcount, hsec, Bool.or_false]
  rfl

/-! ### AUDIO frames (R345) -/

section
variable {h : WHdr} {b : Block} (hcrc : h.crcOk = true) (hleg : onSecondary h b = false) (hring : inRing b = true) (pick seg : Nat) (ws : List Word)
include hcrc hleg hring

/-- Lap 1 turns into lap 2 at the root. -/
theorem audioFrame_root (hr : isRoot b = true) : audioFrame h false pick seg ws b =
    wsend (.audio true h.wrapped pick seg ws) (takeSums (wholePick b pick) seg ws b) := by
  unfold audioFrame
  rw [hcrc, hleg, hring, hr, Bool.or_false]
  rfl

/-- Lap 2 brings the sums. -/
theorem audioFrame_lap2 (hr : isRoot b = false) (httl : 1 < h.ttl.toNat) : audioFrame h true pick seg ws b =
    wsend (.audio true h.wrapped pick seg ws) (takeSums (wholePick b pick) seg ws b) := by
  unfold audioFrame
  rw [hcrc, hleg, hring, hr, Bool.or_false]
  exact hopOn_left httl ..

/-- Lap 1 gathers the node's contribution. -/
theorem audioFrame_lap1 (hr : isRoot b = false) (httl : 1 < h.ttl.toNat) : audioFrame h false pick seg ws b =
    let r := addSegment b (wholePick b pick) seg ws
    wsend (.audio false h.wrapped pick seg r.1) (if r.2 then noteWeftSat (wholePick b pick) b else b) := by
  unfold audioFrame
  rw [hcrc, hleg, hring, hr, Bool.or_false]
  exact hopOn_left httl ..

end

/-! ### What the frames do (R139, R349, R354) -/

theorem passAnswered_placed (tag layers : Nat) (b : Block) : passAnswered tag true layers b = setPooled (b.alc.pooled.map fun q =>
    if q.ev.stamp % 65536 = tag ∧ q.passed ∧ q.answer = none then { q with answer := some true, left := [] } else q) b := rfl

theorem passAnswered_exhausted (tag layers : Nat) (b : Block) : passAnswered tag false layers b = setPooled (b.alc.pooled.map fun q =>
    if q.ev.stamp % 65536 = tag ∧ q.passed ∧ q.answer = none then
      { q with answer := some false, left := q.left.filter fun i => layers.testBit i } else q) b := rfl

theorem tunBusy_iff {b : Block} : tunBusy b = true ↔ b.get WFT_TUN_STAT_result = 1 := beq_iff_eq

theorem tunResponse_awaited {b : Block} {tag : Nat} (hbusy : b.get WFT_TUN_STAT_result = 1) (htag : tag = b.wft.tunTag) (err : Bool) (data : Nat) :
    tunResponse tag err data b = tunFinish (if err then 3 else 2) (if err then none else some data) b :=
  if_pos ⟨tunBusy_iff.mpr hbusy, htag⟩

theorem bootFrame_block {b : Block} (h : weftBooting b = true) (i count : Nat) (bytes : List Byte) : bootFrame i count bytes false b =
    setSys (fun s => { s with bootBlocks := FMap.set (fun _ => []) s.bootBlocks i bytes }) b := by
  unfold bootFrame
  rw [h]
  rfl

theorem tunTimeout_eq (b : Block) : tunTimeout b =
    if b.get WFT_TUN_STAT_result = 1 then (b.put WFT_TUN_STAT_result 4).put WFT_IRQ_STAT_tun 1 else b := by
  unfold tunTimeout
  by_cases h : b.get WFT_TUN_STAT_result = 1
  · rw [if_pos (tunBusy_iff.mpr h), if_pos h]
    rfl
  · rw [if_neg (mt tunBusy_iff.mp h), if_neg h]

/-! ### The host tunnel (R349) -/

/-- The node and direction that a write of WFT_TUN_CTL names. -/
def tunNamed (v : Word) (b : Block) : Block := (b.put WFT_TUN_CTL_node (v.toNat % 1024)).put WFT_TUN_CTL_write (v.toNat / 1024 % 2)

theorem tunNamed_high {v w : Word} (h : w.toNat % 2 ^ 11 = 0) (b : Block) :
    (b.put WFT_TUN_CTL_node (bitsOf (v ||| w).toNat 9 0)).put WFT_TUN_CTL_write (bitsOf (v ||| w).toNat 10 10) = tunNamed v b := by
  have hlow : (v ||| w).toNat % 2 ^ 11 = v.toNat % 2 ^ 11 := by rw [BitVec.toNat_or, Nat.or_mod_two_pow, h, Nat.or_zero]
  have hnode : bitsOf (v ||| w).toNat 9 0 = v.toNat % 1024 := by
    simp only [bitsOf]
    omega
  have hwrite : bitsOf (v ||| w).toNat 10 10 = v.toNat / 1024 % 2 := by
    simp only [bitsOf]
    omega
  rw [hnode, hwrite, tunNamed]

theorem tunNamed_result (v : Word) (b : Block) : (tunNamed v b).get WFT_TUN_STAT_result = b.get WFT_TUN_STAT_result := by
  have hnode : WFT_TUN_CTL_node.disjoint WFT_TUN_STAT_result = true := by decide
  have hwrite : WFT_TUN_CTL_write.disjoint WFT_TUN_STAT_result = true := by decide
  rw [tunNamed, Block.get_put_disjoint _ _ hwrite, Block.get_put_disjoint _ _ hnode]

section
variable {v : Word} {b : Block} (habort : v.getLsbD 12 = false) (hstart : v.getLsbD 11 = false)

/-- The access that a start begins, at another node. -/
def tunStarted (v : Word) (b : Block) : Block :=
  (setWeft (fun w => { w with tunTag := (w.tunTag + 1) % 65536, tunWrite := (tunNamed v b).on WFT_TUN_CTL_write }) (tunNamed v b)).setNum
    WFT_TUN_STAT (1 + ((tunNamed v b).num WFT_TUN_STAT / 16 % 2) * 16)

include habort in
theorem startBits : (v ||| 0x800).getLsbD 11 = true ∧ (v ||| 0x800).getLsbD 12 = false := by
  refine ⟨?_, ?_⟩
  · rw [BitVec.getLsbD_or]
    simp
  · rw [BitVec.getLsbD_or, habort]
    rfl

include hstart in
theorem abortBits : (v ||| 0x1000).getLsbD 11 = false ∧ (v ||| 0x1000).getLsbD 12 = true := by
  refine ⟨?_, ?_⟩
  · rw [BitVec.getLsbD_or, hstart]
    rfl
  · rw [BitVec.getLsbD_or]
    simp

include habort in
theorem tunCtl_startBusy (hbusy : b.get WFT_TUN_STAT_result = 1) : tunCtl (v ||| 0x800) b = (tunNamed v b).put WFT_TUN_STAT_ovr 1 := by
  obtain ⟨h11, h12⟩ := startBits habort
  have hb : tunBusy (tunNamed v b) = true := tunBusy_iff.mpr ((tunNamed_result v b).trans hbusy)
  unfold tunCtl
  rw [h11, h12, tunNamed_high rfl]
  exact if_pos hb

include hstart in
theorem tunCtl_abortBusy (hbusy : b.get WFT_TUN_STAT_result = 1) : tunCtl (v ||| 0x1000) b = tunFinish 5 none (tunNamed v b) := by
  obtain ⟨h11, h12⟩ := abortBits hstart
  have hb : tunBusy (tunNamed v b) = true := tunBusy_iff.mpr ((tunNamed_result v b).trans hbusy)
  unfold tunCtl
  rw [h11, h12, tunNamed_high rfl]
  exact if_pos hb

end

theorem Block.get_setWeft (f : Weft → Weft) (b : Block) (x : Fld) : (setWeft f b).get x = b.get x := rfl

theorem Block.num_setWeft (f : Weft → Weft) (b : Block) (a : Nat) : (setWeft f b).num a = b.num a := rfl

theorem Block.get_wsend (x : WSend) (b : Block) (f : Fld) : (wsend x b).get f = b.get f := rfl

theorem nodeId_wsend (x : WSend) (b : Block) : nodeId (wsend x b) = nodeId b := rfl

theorem tunStarted_get {v : Word} {b : Block} {f : Fld} (hf : f.addr ≠ WFT_TUN_STAT) : (tunStarted v b).get f = (tunNamed v b).get f :=
  (Block.get_wr_ne _ _ hf).trans (Block.get_setWeft ..)

theorem tunNamed_get {v : Word} {b : Block} {f : Fld} (hf : f.addr ≠ WFT_TUN_CTL) : (tunNamed v b).get f = b.get f :=
  (Block.get_put_ne _ _ hf).trans (Block.get_put_ne _ _ hf)

theorem tunStarted_nodeId (v : Word) (b : Block) : nodeId (tunStarted v b) = nodeId b := by
  have hstat : WFT_NODE_id.addr ≠ WFT_TUN_STAT := by decide
  have hctl : WFT_NODE_id.addr ≠ WFT_TUN_CTL := by decide
  exact (tunStarted_get hstat).trans (tunNamed_get hctl)

theorem tunStarted_num {v : Word} {b : Block} {a : Nat} (hstat : a ≠ WFT_TUN_STAT) (hctl : a ≠ WFT_TUN_CTL) :
    (tunStarted v b).num a = b.num a :=
  (Block.num_setNum_ne _ _ hstat).trans ((Block.num_setWeft ..).trans
    ((Block.num_put_ne _ (f := WFT_TUN_CTL_write) _ hctl).trans (Block.num_put_ne _ (f := WFT_TUN_CTL_node) _ hctl)))

theorem tunStarted_node (v : Word) (b : Block) : (tunStarted v b).get WFT_TUN_CTL_node = v.toNat % 1024 := by
  have hstat : WFT_TUN_CTL_node.addr ≠ WFT_TUN_STAT := by decide
  have hwrite : WFT_TUN_CTL_write.disjoint WFT_TUN_CTL_node = true := by decide
  have hfits : WFT_TUN_CTL_node.fits = true := by decide
  rw [tunStarted_get hstat, tunNamed, Block.get_put_disjoint _ _ hwrite, Block.get_put _ hfits]
  exact Nat.mod_mod _ 1024

theorem tunStarted_write (v : Word) (b : Block) : (tunStarted v b).on WFT_TUN_CTL_write = v.getLsbD 10 := by
  have hstat : WFT_TUN_CTL_write.addr ≠ WFT_TUN_STAT := by decide
  have hfits : WFT_TUN_CTL_write.fits = true := by decide
  have hbit : v.getLsbD 10 = decide (v.toNat / 1024 % 2 = 1) := Nat.testBit_eq_decide_div_mod_eq (x := v.toNat) (i := 10)
  rw [Block.on_eq, tunStarted_get hstat, tunNamed, Block.get_put _ hfits, hbit]
  show (v.toNat / 1024 % 2 % 2 != 0) = _
  obtain h | h := Nat.mod_two_eq_zero_or_one (v.toNat / 1024) <;> rw [h] <;> rfl

theorem tunStarted_result (v : Word) (b : Block) : (tunStarted v b).get WFT_TUN_STAT_result = 1 := by
  have hstat : (tunStarted v b).num WFT_TUN_STAT = 1 + ((tunNamed v b).num WFT_TUN_STAT / 16 % 2) * 16 := Block.num_setNum _ _ (by omega)
  show (tunStarted v b).num WFT_TUN_STAT / 2 ^ 0 % 2 ^ 3 = 1
  rw [hstat]
  omega

/-- A start at another node while no access is in progress sends its request. -/
theorem tunCtl_starts {v : Word} {b : Block} (habort : v.getLsbD 12 = false) (hidle : b.get WFT_TUN_STAT_result ≠ 1)
    (hnode : v.toNat % 1024 ≠ nodeId b) : tunCtl (v ||| 0x800) b =
    wsend (.tunRequest (v.toNat % 1024) ((b.wft.tunTag + 1) % 65536) (v.getLsbD 10) (b.num WFT_TUN_ADDR) (b.num WFT_TUN_DATA)) (tunStarted v b) := by
  obtain ⟨h11, h12⟩ := startBits habort
  have hb : ¬ tunBusy (tunNamed v b) = true := fun h => hidle ((tunNamed_result v b).symm.trans (tunBusy_iff.mp h))
  have hother : ¬ (tunStarted v b).get WFT_TUN_CTL_node = nodeId (tunStarted v b) := by rwa [tunStarted_node, tunStarted_nodeId]
  have haddr : (tunStarted v b).num WFT_TUN_ADDR = b.num WFT_TUN_ADDR := tunStarted_num (by decide) (by decide)
  have hdata : (tunStarted v b).num WFT_TUN_DATA = b.num WFT_TUN_DATA := tunStarted_num (by decide) (by decide)
  have htag : (tunStarted v b).wft.tunTag = (b.wft.tunTag + 1) % 65536 := rfl
  have hsent : (if (tunStarted v b).get WFT_TUN_CTL_node = nodeId (tunStarted v b) then tunStarted v b
      else wsend (.tunRequest ((tunStarted v b).get WFT_TUN_CTL_node) (tunStarted v b).wft.tunTag ((tunStarted v b).on WFT_TUN_CTL_write)
        ((tunStarted v b).num WFT_TUN_ADDR) ((tunStarted v b).num WFT_TUN_DATA)) (tunStarted v b)) =
      wsend (.tunRequest (v.toNat % 1024) ((b.wft.tunTag + 1) % 65536) (v.getLsbD 10) (b.num WFT_TUN_ADDR) (b.num WFT_TUN_DATA)) (tunStarted v b) := by
    rw [if_neg hother, tunStarted_node, htag, tunStarted_write, haddr, hdata]
  unfold tunCtl
  rw [h11, h12, tunNamed_high rfl]
  exact (if_neg hb).trans hsent

theorem regAt_any {a : Nat} {p : RegHit → Bool} (h : (regAt a).any p = true) : ∃ r, regAt a = some r ∧ p r = true := by
  cases hr : regAt a with
  | none => rw [hr] at h; cases h
  | some r => exact ⟨r, rfl, by rwa [hr] at h⟩

/-- A write of WFT_TUN_CTL that begins no access to the node itself. -/
theorem writeReg_tunCtl {m : Nat} {v : Word} {b : Block} (hm : accessMade m WFT_TUN_CTL b = true)
    (hfar : tunBusy b = true ∨ (tunCtl v b).get WFT_TUN_CTL_node ≠ nodeId (tunCtl v b)) :
    writeReg m WFT_TUN_CTL v 0 b = wrote m (tunCtl v) b := by
  obtain ⟨hreach, hdrain, hdebug⟩ := accessMade_iff.mp hm
  have hclosed : ¬ (m = 11 ∧ ¬ (b.sec.tap = 0x10 ∧ debugOpen b = true)) := fun h => h.2 (hdebug h.1)
  have hblock : ¬ ((regBlock (regBlockBase WFT_TUN_CTL)).isNone = true ∨ ¬ reachesBlock m (regBlockBase WFT_TUN_CTL) = true) := by
    rw [hreach]
    decide
  have hwrite : regWrite m WFT_TUN_CTL v 0 b = tunCtl v b := by
    obtain ⟨h, hh, hkey, hwide⟩ : ∃ h, regAt WFT_TUN_CTL = some h ∧ h.key = WFT_TUN_CTL ∧ h.desc.wide = false := by
      have hany : (regAt WFT_TUN_CTL).any (fun h => h.key == WFT_TUN_CTL && !h.desc.wide) = true := by decide
      obtain ⟨h, hh, hp⟩ := regAt_any hany
      simp only [Bool.and_eq_true, beq_iff_eq, Bool.not_eq_true'] at hp
      exact ⟨h, hh, hp⟩
    have hsingle : writeSingle m h.key v 0 b = some (tunCtl v b) := by rw [hkey]; rfl
    unfold regWrite writeWord
    rw [hh]
    simp only [hwide, Bool.false_eq_true, if_false, hsingle]
    exact setHw_idle (no_hw _ h hh) _
  have hlocal : ¬ (WFT_TUN_CTL = WFT_TUN_CTL ∧ (some v).isSome = true ∧ ¬ tunBusy b = true ∧ tunBusy (tunCtl v b) = true ∧
      (tunCtl v b).get WFT_TUN_CTL_node = nodeId (tunCtl v b)) := fun h => hfar.elim h.2.2.1 fun hne => hne h.2.2.2.2
  have hcross : ¬ WFT_TUN_CTL / 4096 ≠ (WFT_TUN_CTL + 4 - 1) / 4096 := by decide
  have hperiph : 0x40000000 ≤ WFT_TUN_CTL ∧ WFT_TUN_CTL < 0x44000000 := by decide
  have haligned : ¬ (4 ≠ 4 ∨ WFT_TUN_CTL % 4 ≠ 0) := by decide
  unfold writeReg request
  rw [if_neg hclosed, hdrain, if_neg Bool.false_ne_true]
  unfold transact
  dsimp only
  rw [if_neg hcross, if_pos hperiph]
  unfold periphAccess periphBase
  rw [if_neg hblock, if_neg haligned]
  rw [Option.map_some, leNat_wordBytes]
  dsimp only
  rw [hwrite, if_neg hlocal]
  rfl

theorem tunWrite_busy {m : Nat} {v : Word} {b c : Block} (hm : accessMade m WFT_TUN_CTL b = true) (hbusy : b.get WFT_TUN_STAT_result = 1)
    (h : tunCtl v b = c) : writeReg m WFT_TUN_CTL v 0 b = setResp m {} c :=
  (writeReg_tunCtl hm (.inl (tunBusy_iff.mpr hbusy))).trans (congrArg (setResp m {}) h)

theorem tunWrite_starts {m : Nat} {v : Word} {b : Block} (hm : accessMade m WFT_TUN_CTL b = true) (habort : v.getLsbD 12 = false)
    (hidle : b.get WFT_TUN_STAT_result ≠ 1) (hnode : v.toNat % 1024 ≠ nodeId b) :
    writeReg m WFT_TUN_CTL (v ||| 0x800) 0 b = wrote m (tunCtl (v ||| 0x800)) b := by
  refine writeReg_tunCtl hm (.inr ?_)
  rwa [tunCtl_starts habort hidle hnode, Block.get_wsend, nodeId_wsend, tunStarted_node, tunStarted_nodeId]

theorem tunStarted_sys (v : Word) (b : Block) : (tunStarted v b).sys = b.sys := by simp [tunStarted, tunNamed]

theorem tunStarted_wft (v : Word) (b : Block) : (tunStarted v b).wft =
    { b.wft with tunTag := (b.wft.tunTag + 1) % 65536, tunWrite := (tunNamed v b).on WFT_TUN_CTL_write } := by simp [tunStarted, tunNamed]

section
variable (m : Nat) (x : WSend) (b : Block)

theorem sent_sys : (setResp m {} (wsend x b)).sys = b.sys := rfl
theorem sent_get (f : Fld) : (setResp m {} (wsend x b)).get f = b.get f := rfl
theorem sent_tunTag : (setResp m {} (wsend x b)).wft.tunTag = b.wft.tunTag := rfl
theorem sent_tx : (setResp m {} (wsend x b)).wft.tx = b.wft.tx ++ [x] := rfl

end

theorem tunRequested_gets (m : Nat) (x : WSend) (v : Word) (b : Block) :
    (setResp m {} (wsend x (tunStarted v b))).sys = b.sys ∧ (setResp m {} (wsend x (tunStarted v b))).get WFT_TUN_STAT_result = 1 ∧
    (setResp m {} (wsend x (tunStarted v b))).get WFT_TUN_CTL_node = v.toNat % 1024 ∧
    (setResp m {} (wsend x (tunStarted v b))).wft.tunTag = (b.wft.tunTag + 1) % 65536 ∧
    (setResp m {} (wsend x (tunStarted v b))).wft.tx = b.wft.tx ++ [x] :=
  ⟨(sent_sys ..).trans (tunStarted_sys v b), (sent_get ..).trans (tunStarted_result v b), (sent_get ..).trans (tunStarted_node v b),
    (sent_tunTag ..).trans (congrArg Weft.tunTag (tunStarted_wft v b)), (sent_tx ..).trans (congrArg (fun w => w.tx ++ [x]) (tunStarted_wft v b))⟩

/-- Settles O56. -/
theorem frameCommands : Obligations.FrameCommands := by
  unfold Obligations.FrameCommands
  refine ⟨fun h s hlive hcrc hleg hb hring hdst => ?frames, fun h s hlive hcrc hends httl hleg hfew events =>
      run_live_congr hlive (onFrame_badCrc hcrc hends httl hleg hfew ..), fun h pick seg ws s hlive hcrc hleg hring =>
      ⟨fun hr => run_live_congr hlive (audioFrame_root hcrc hleg hring _ _ _ hr), fun hr httl =>
        ⟨run_live_congr hlive (audioFrame_lap2 hcrc hleg hring _ _ _ hr httl), run_live_congr hlive (audioFrame_lap1 hcrc hleg hring _ _ _ hr httl)⟩⟩,
    fun m v s hlive hm habort hstart => ⟨fun hbusy => ⟨run_live_congr hlive (tunWrite_busy hm hbusy (tunCtl_startBusy habort hbusy)),
      run_live_congr hlive (tunWrite_busy hm hbusy (tunCtl_abortBusy hstart hbusy))⟩, fun hidle hnode => ?starts⟩,
    fun s hlive => run_live_congr hlive (tunTimeout_eq s.blk)⟩
  case frames =>
    have taken {cls : Nat} {take : Block → Block} := onFrame_taken hcrc hleg hb hring hdst cls take
    exact ⟨fun events => run_live_congr hlive taken, fun p => run_live_congr hlive taken,
      fun tag layers => ⟨run_live_congr hlive (taken.trans (passAnswered_placed ..)), run_live_congr hlive (taken.trans (passAnswered_exhausted ..))⟩,
      fun tag write o data => run_live_congr hlive taken,
      fun tag err data hbusy htag => run_live_congr hlive (taken.trans (tunResponse_awaited hbusy htag ..)),
      fun pick => run_live_congr hlive taken, fun block count bytes hboot => run_live_congr hlive (taken.trans (bootFrame_block hboot ..)),
      fun blocks hr => run_live_congr hlive (taken.trans (if_pos hr))⟩
  case starts =>
    have hwrite := tunWrite_starts hm habort hidle hnode
    refine ⟨run_live_congr hlive hwrite, fun hq => ⟨_, run_ends hlive (hwrite.trans (congrArg (setResp m.val {}) (tunCtl_starts habort hidle hnode))), ?_⟩⟩
    have hstarted := tunRequested_gets m.val (.tunRequest (v.toNat % 1024) ((s.blk.wft.tunTag + 1) % 65536) (v.getLsbD 10)
      (s.blk.num WFT_TUN_ADDR) (s.blk.num WFT_TUN_DATA)) v s.blk
    generalize setResp m.val {} _ = r at hstarted ⊢
    obtain ⟨hsys, hresult, hnode, htag, htx⟩ := hstarted
    have hquiet : r.quiet := s.blk.quiet_of_sys hsys hq
    exact ⟨(finish_get 0 hquiet (by decide)).trans hresult, (finish_get 0 hquiet (by decide)).trans hnode,
      (congrArg Weft.tunTag (finish_wft 0 hquiet)).trans htag, (congrArg Weft.tx (finish_wft 0 hquiet)).trans htx⟩

end Sys2Proof.Machine

namespace Sys2Proof.Machine

/-! ### The DV32 registers (R361–R364, R374) -/

theorem noteLegacy_leg (e : Ev) (code : Nat) (b : Block) : (noteLegacy e code b).leg = b.leg := by
  unfold noteLegacy
  split
  · split
    · rw [Block.flag_leg, Block.bump_leg]
    · rfl
  · rfl

theorem noteLegacy_foldl_leg (evs : List Ev) (code : Nat) : ∀ b : Block, (evs.foldl (fun acc e => noteLegacy e code acc) b).leg = b.leg := by
  induction evs with
  | nil => exact fun _ => rfl
  | cons e evs ih => exact fun b => (ih _).trans (noteLegacy_leg e code b)

theorem writeStatus_leg (src seq code : Nat) (quiet : Bool) (b : Block) : (writeStatus src seq code quiet b).leg = b.leg := by
  unfold writeStatus
  dsimp only
  split
  · rfl
  · split
    · rw [Block.bump_leg]
    · rw [Block.setBit_leg]

/-- Submitting an item leaves the DV32 ports and contexts as they are. -/
theorem submit_leg (src : Nat) (numbered : Bool) (evs : List Ev) (code : Nat) (quiet : Bool) (b : Block) :
    (submit src numbered evs code quiet b).leg = b.leg := by
  unfold submit
  cases srcOn b src with
  | false => rfl
  | true =>
    cases numbered with
    | false =>
      simp only [Bool.not_true, Bool.false_eq_true, if_false]
      split
      · exact noteLegacy_foldl_leg ..
      · rfl
    | true =>
      simp only [Bool.not_true, Bool.false_eq_true, if_false, if_true]
      split
      · exact (writeStatus_leg ..).trans (noteLegacy_foldl_leg ..)
      · rfl

theorem dvPort_congr {b c : Block} (h : c.leg = b.leg) (i : Nat) : dvPort c i = dvPort b i := by
  unfold dvPort
  rw [h]

theorem dvCtx_congr {b c : Block} (h : c.leg = b.leg) (i v : Nat) : dvCtx c i v = dvCtx b i v := by
  unfold dvCtx
  rw [h]

theorem dvTimed_started {b : Block} (h : b.tbu.started = true) (i a x : Nat) : dvTimed i a x b =
    submit 6 true [{ time := BitVec.ofNat 64 (b.sample + 1 + dvDelay b), head := 0x1100,
                     ext := .legacy i (if a < 0x20 then (dvPort b i).page else 32) a x }] 0 false (dvKeep i a x b) := by
  unfold dvTimed
  rw [h]
  rfl

/-- Before pick 0 a timed write enters its register image at once. -/
def dvEntered (i a x : Nat) (b : Block) : Block :=
  let v := if a < 0x20 then (dvPort b i).page else 32
  let c := dvCtx b i v
  let r := dvWrite a x (c.regs, c.st)
  setDvCtx i v { c with regs := r.1, st := if v = 32 then c.st else r.2 } (dvKeep i a x b)

theorem dvTimed_early {b : Block} (h : b.tbu.started = false) (i a x : Nat) : dvTimed i a x b = submit 6 true [] 0 false (dvEntered i a x b) := by
  unfold dvTimed
  rw [h]
  rfl

/-- The port that a timed write leaves holds the last written value. -/
theorem dvPort_timed (i a x : Nat) (b : Block) : dvPort (dvTimed i a x b) i =
    { dvPort b i with image := FMap.set (fun _ => 0) (dvPort b i).image (dvKey (dvPort b i) a) x } := by
  have hkeep : dvPort (dvKeep i a x b) i = { dvPort b i with image := FMap.set (fun _ => 0) (dvPort b i).image (dvKey (dvPort b i) a) x } :=
    FMap.get_set_same ..
  cases h : b.tbu.started with
  | true =>
    rw [dvTimed_started h, dvPort_congr (submit_leg ..)]
    exact hkeep
  | false =>
    rw [dvTimed_early h, dvPort_congr (submit_leg ..)]
    exact hkeep

/-- A register reads back what was last written. -/
theorem dvRead_timed {a : Nat} (ha : a < 0x16) (i x : Nat) (b : Block) : dvRead (dvTimed i a x b) i a = x := by
  have hkey : dvKey (dvPort b i) a = (dvPort b i).page * 64 + a := if_pos (by omega)
  unfold dvRead
  rw [dvPort_timed, hkey]
  exact (if_pos ha).trans (FMap.get_set_same ..)

theorem dvWrite_plain {a x : Nat} (ha : 0 < a) (hx : x < 256) (rs : FMap Nat × DvState) : dvWrite a x rs = (FMap.set (fun _ => 0) rs.1 a x, rs.2) := by
  unfold dvWrite
  rw [Nat.mod_eq_of_lt hx]
  exact if_neg (by omega)

theorem dvCtx_timed {i a x : Nat} {b : Block} (h : b.tbu.started = false) (ha : 0 < a) (ha' : a < 0x20) (hx : x < 256) :
    dvCtx (dvTimed i a x b) i (dvPort b i).page =
      { dvCtx b i (dvPort b i).page with regs := FMap.set (fun _ => 0) (dvCtx b i (dvPort b i).page).regs a x } := by
  rw [dvTimed_early h, dvCtx_congr (submit_leg ..)]
  unfold dvEntered
  dsimp only
  rw [if_pos ha', dvWrite_plain ha hx]
  refine (FMap.get_set_same ..).trans ?_
  dsimp only
  rw [ite_self]

/-- A write to a DV32 port that is enabled acts. -/
theorem dvWriteTo_on {i : Nat} {b : Block} (hon : dvOn b i = true) (hsrc : srcOn b 6 = true) (f : Block → Block) : dvWriteTo i f b = f b :=
  (if_pos hsrc).trans (if_pos hon)

theorem dvGctrl_room {i x : Nat} {b : Block} (h : queueFull b 6 1 = false) : dvGctrl i x b =
    setDvPort i { dvPort (dvTimed i 0x20 x b) i with irqEn := x / 2 % 2 == 1 } (dvTimed i 0x20 x b) := if_neg (Bool.eq_false_iff.mp h)

theorem dvCaptured_room {b : Block} (h : queueFull b 6 1 = false) (f : Block → Block) : dvCaptured f b = submit 6 true [] 0 false (f b) :=
  if_neg (Bool.eq_false_iff.mp h)

theorem dvCaptured_full {b : Block} (h : queueFull b 6 1 = true) (f : Block → Block) : dvCaptured f b =
    (submit 6 true [] 0 false (b.bump LEG_CNT_rej)).flag LEG_IRQ_STAT_rej := if_pos h

theorem dvEndf_byte {i k x : Nat} (hx : x < 256) (b : Block) : dvEndf i k x b =
    let p := dvPort b i
    let fresh := if p.upT = some b.now then p.fresh else 0
    setDvPort i { p with endf := (p.endf - (p.endf &&& (x * 256 ^ k))) ||| fresh } b := by
  unfold dvEndf
  rw [Nat.mod_eq_of_lt hx]

/-- Settles O57. -/
theorem dv32Writes : Obligations.Dv32Writes := by
  unfold Obligations.Dv32Writes
  intro i v s hlive hon hsrc
  dsimp only
  have acts (f : Block → Block) {g : Block → Block} (h : f s.blk = g s.blk) : s.run (dvWriteTo i.val f) = .next (s.on g) :=
    run_live_congr hlive ((dvWriteTo_on hon hsrc f).trans h)
  refine ⟨acts _ rfl, fun a ha => acts _ (if_pos ha), fun a b hstart _ => dvTimed_started hstart .., fun a b ha _ => dvRead_timed ha ..,
    fun a b hstart _ ha ha' => dvCtx_timed hstart ha ha' v.isLt, fun hroom => acts _ (dvGctrl_room hroom),
    fun hroom => ⟨fun k => acts _ ((dvCaptured_room hroom _).trans (congrArg _ (dvEndf_byte v.isLt _))), acts _ (dvCaptured_room hroom _),
      fun a ha => acts _ ((if_pos ha).trans (dvCaptured_room hroom _))⟩,
    fun hfull => ⟨fun k => acts _ (dvCaptured_full hfull _), acts _ (dvCaptured_full hfull _),
      fun a ha => acts _ ((if_pos ha).trans (dvCaptured_full hfull _))⟩⟩

end Sys2Proof.Machine

namespace Sys2Proof.Machine

/-! ### The power die (R407–R420, R432) -/

theorem ok_congr {s : State} {f g : Block → Block} (h : f s.blk = g s.blk) : s.ok f = .next (s.on g) := congrArg Host.Outcome.next (on_congr h)

theorem uvloFall_eq (b : Block) : uvloFall b = setPwr (fun p => { p with pfw := true, shut := false, retry := false }) (railsOff b) := rfl

theorem overVoltage_eq (b : Block) : overVoltage b =
    setPwr (fun p => { p with pfw := true, shut := false, retry := false, overVolt := true }) (railsOff b) := by
  unfold overVoltage uvloFall
  generalize railsOff b = c
  rfl

theorem currentLimit_eq (b : Block) : currentLimit b = (b.bump PWR_CNT_ilim).put PWR_IRQ_STAT_ilim 1 := by
  unfold currentLimit Block.flag
  rfl

theorem phasesOk_congr {b c : Block} (h : c.get PWR_STAT_phase_ok = b.get PWR_STAT_phase_ok) : phasesOk c = phasesOk b := by
  have hbit (i : Nat) : c.bit PWR_STAT_phase_ok i = b.bit PWR_STAT_phase_ok i := congrArg (Nat.testBit · i) h
  unfold phasesOk
  simp only [hbit]

/-- A phase fails while two others work (R416). -/
theorem phaseFailure_others {p : Nat} {b : Block} (hok : b.bit PWR_STAT_phase_ok p = true) (hmore : 2 ≤ phasesOk (b.clrBit PWR_STAT_phase_ok p)) :
    phaseFailure p b = ((b.clrBit PWR_STAT_phase_ok p).bump PWR_CNT_phase).put PWR_IRQ_STAT_phase 1 := by
  have hcnt : PWR_STAT_phase_ok.addr ≠ PWR_CNT_phase.addr := by decide
  have hirq : PWR_STAT_phase_ok.addr ≠ PWR_IRQ_STAT_phase.addr := by decide
  have hleft : phasesOk (((b.clrBit PWR_STAT_phase_ok p).bump PWR_CNT_phase).flag PWR_IRQ_STAT_phase) = phasesOk (b.clrBit PWR_STAT_phase_ok p) :=
    phasesOk_congr (by rw [Block.flag_eq, Block.get_put_ne _ _ hirq, Block.bump_eq, Block.get_put_ne _ _ hcnt])
  unfold phaseFailure
  rw [if_pos hok]
  dsimp only
  rw [hleft, if_neg (Nat.not_le.mpr hmore)]
  rfl

theorem brownOutShutdown_held {b : Block} (h : Hold.brownOut ∈ b.tbu.holds) :
    brownOutShutdown b = setPwr (fun p => { p with shut := true }) (railsOff b) := if_pos (List.contains_iff_mem.mpr h)

theorem brownOutRepower_good {b : Block} (hshut : b.pwr.shut = true) (hpfw : b.pwr.pfw = false) :
    brownOutRepower b = setPwr (fun p => { p with shut := false }) (railsOn b) := if_pos ⟨hshut, Bool.eq_false_iff.mp hpfw⟩

theorem thermalSample_held {b : Block} (h : b.sys.held = true) (temps : List Half) (pdie : Half) (vin iin vcore : Nat) :
    thermalSample temps pdie vin iin vcore b = takePdie pdie (takeSupply vin iin vcore b) := by
  unfold thermalSample
  rw [h]
  rfl

/-- A brown-out before start-up step 10 shuts down at once (R417). -/
theorem brownOut_early {t : Nat} {b : Block} (hheld : b.sys.held = false) (hpfw : b.pwr.pfw = false) (hstep : b.get SYS_STAT_step < 10) :
    brownOut t b = setPwr (fun p => { p with shut := true }) (railsOff (setPwr (fun p => { p with pfw := true, boT := t, good := none })
      ((b.bump PWR_CNT_bo).flag PWR_IRQ_STAT_bo))) := by
  unfold brownOut
  rw [hheld, hpfw]
  exact (if_neg nofun).trans (if_pos hstep)

theorem brownOutRecovery_good {t g : Nat} {b : Block} (hg : b.pwr.good = some g) (hhold : Hold.brownOut ∈ b.tbu.holds) (h1 : g + 1000000 ≤ t)
    (h2 : t ≤ b.pwr.boT + holdMs b * 1000000) (hrail : b.get PWR_STAT_rail_ok = 0x3F) : brownOutRecovery t b =
      let b1 := setPwr (fun p => { p with good := none }) (((b.put PWR_STAT_hold 0).bump PWR_CNT_rec).flag PWR_IRQ_STAT_rec)
      { b1 with tbu := { b1.tbu with holds := b1.tbu.holds.filter (· != .brownOut) } } := by
  unfold brownOutRecovery
  rw [hg]
  exact if_pos ⟨List.contains_iff_mem.mpr hhold, h1, h2, hrail⟩

theorem advanceLive_live {s : State} (hlive : s.live) (t : Nat) : advanceLive t s.blk = advanceTo t s.blk := if_neg (Bool.eq_false_iff.mp hlive)

/-- A command of the power die at a time, while the compute die runs. -/
theorem okAt_congr {s : State} (hlive : s.live) {t : Nat} {f : Block → Block} {g : Block → Block} (h : f (advanceTo t s.blk) = g s.blk) :
    s.ok (fun b => f (advanceLive t b)) = .next (s.on g) := ok_congr ((congrArg f (advanceLive_live hlive t)).trans h)

theorem filter_contains_ne {l : List Hold} {x y : Hold} (h : l.contains x = false) : (l.filter (· != y)).contains x = false := by
  rw [Bool.eq_false_iff, ne_eq, List.contains_iff_mem] at *
  exact fun hm => h ((List.mem_filter.mp hm).1)

/-- T3 ends, and with it the chip safe state that it was the cause of (R419). -/
theorem t3Resume_alone {b : Block} (hcrit : b.on THM_STAT_critical = true) (hauto : b.on THM_LIM_t3_auto = true) (hcool : 1000 ≤ b.pwr.cool)
    (hsafe : b.tbu.holds.contains .safe = false) : t3Resume b =
      let b1 := (b.put THM_STAT_critical 0).put THM_STAT_therm_n 0
      (({ b1 with tbu := { b1.tbu with holds := b1.tbu.holds.filter (· != .thermal) } } : Block).put REL_STAT_safe 0).put REL_STAT_cause 0 := by
  unfold t3Resume
  rw [if_pos ⟨hcrit, hauto, hcool⟩]
  exact if_neg (Bool.eq_false_iff.mp (filter_contains_ne hsafe))

theorem unlockWrite_challenge {v : Word} (b : Block) (hchal : v.getLsbD 8 = true) (hsub : v.getLsbD 9 = false) :
    unlockWrite v b = challenge (b.put SEC_UNLK_scope (v.toNat % 8)) := by
  have h9 : ¬ v.toNat / 512 % 2 = 1 := by
    have := Nat.testBit_eq_decide_div_mod_eq (x := v.toNat) (i := 9)
    rw [BitVec.getLsbD, this] at hsub
    exact of_decide_eq_false hsub
  have h8 : v.toNat / 256 % 2 = 1 := by
    have := Nat.testBit_eq_decide_div_mod_eq (x := v.toNat) (i := 8)
    rw [BitVec.getLsbD, this] at hchal
    exact of_decide_eq_true hchal
  unfold unlockWrite
  dsimp only
  rw [if_neg h9, if_pos h8]

/-- Settles O60. -/
theorem powerCommands : Obligations.PowerCommands := by
  unfold Obligations.PowerCommands
  refine ⟨fun s => ⟨ok_congr (uvloFall_eq _), ok_congr (overVoltage_eq _), fun h => ok_congr (if_pos h), fun h => ok_congr (if_pos h), fun h => ok_congr (if_pos h), ok_congr (currentLimit_eq _),
      fun p hok hmore => ok_congr (phaseFailure_others hok hmore), fun h => ok_congr (brownOutShutdown_held h),
      fun hshut hpfw => ok_congr (brownOutRepower_good hshut hpfw), fun s0 s1 s2 s3 s4 s5 vin iin vcore h => ok_congr (thermalSample_held h ..)⟩,
    fun t s hlive => ?timed,
    fun s hlive => ⟨fun h => run_live_congr hlive (if_pos h), fun hcrit hauto hcool hsafe => run_live_congr hlive (t3Resume_alone hcrit hauto hcool hsafe),
      fun hsafe hauto => run_live_congr hlive (if_pos ⟨List.contains_iff_mem.mpr hsafe, hauto⟩), fun m v hm hchal hsub => run_live_congr hlive ?challenge⟩⟩
  case timed =>
    have hheld : (advanceTo t.toNat s.blk).sys.held = false := (congrArg Sys.held (advanceTo_sameBut t.toNat s.blk).sys).trans hlive
    exact ⟨fun hpfw hstep => okAt_congr hlive (brownOut_early hheld hpfw hstep), fun hpfw => okAt_congr hlive (if_pos hpfw),
      fun g hg hhold h1 h2 hrail => okAt_congr hlive (brownOutRecovery_good hg hhold h1 h2 hrail)⟩
  case challenge =>
    exact (writeReg_of_single singles_plain.2.2 hm (no_hw _) rfl).trans (congrArg (setResp m.val {}) (unlockWrite_challenge s.blk hchal hsub))

end Sys2Proof.Machine

namespace Sys2Proof.Machine

/-! ### The issue of a bundle (R219, R224, R235–R254) -/

/-- A block that leaves shuttle `h` of `b` as `x` and its memory as `m`, and every other part of `b` as it is. -/
structure Leaves (h : Nat) (b : Block) (x : Shuttle) (m : List Host.Cell) (c : Block) : Prop where
  self : c.shuttle h = x
  others : ∀ k, k ≠ h → c.shuttle k = b.shuttle k
  mem : c.mem = m
  rest : c = { b with sht := c.sht, mem := c.mem }

@[simp] theorem Block.shuttle_setShuttle (b : Block) (h : Nat) (x : Shuttle) : (b.setShuttle h x).shuttle h = x := FMap.get_set_same _ _ _ _

theorem Block.shuttle_setShuttle_ne (b : Block) {h k : Nat} (x : Shuttle) (hk : k ≠ h) : (b.setShuttle h x).shuttle k = b.shuttle k :=
  FMap.get_set_ne _ _ _ hk

theorem Leaves.refl (h : Nat) (b : Block) : Leaves h b (b.shuttle h) b.mem b := ⟨rfl, fun _ _ => rfl, rfl, rfl⟩

theorem Leaves.setShuttle {h : Nat} {b c : Block} {x : Shuttle} {m : List Host.Cell} (l : Leaves h b x m c) (y : Shuttle) :
    Leaves h b y m (c.setShuttle h y) where
  self := Block.shuttle_setShuttle c h y
  others k hk := (Block.shuttle_setShuttle_ne c y hk).trans (l.others k hk)
  mem := l.mem
  rest := by
    have hr := l.rest
    generalize c.sht = z, c.mem = m' at hr
    subst hr
    rfl

theorem Leaves.setMem {h : Nat} {b c : Block} {x : Shuttle} {m : List Host.Cell} (l : Leaves h b x m c) (m' : List Host.Cell) :
    Leaves h b x m' { c with mem := m' } where
  self := l.self
  others := l.others
  mem := rfl
  rest := by
    have hr := l.rest
    generalize c.sht = z, c.mem = m'' at hr
    subst hr
    rfl

theorem Leaves.addFlights {h : Nat} {b c : Block} {x : Shuttle} {m : List Host.Cell} (l : Leaves h b x m c) (f : List Flight) :
    Leaves h b { x with flights := x.flights ++ f } m (addFlights h f c) := by
  have hs := l.setShuttle { x with flights := x.flights ++ f }
  unfold Machine.addFlights
  rw [l.self]
  exact hs

section
variable {h : Nat} {b c : Block} {x : Shuttle} {m : List Host.Cell} (l : Leaves h b x m c)
include l

theorem Leaves.regs : c.regs = b.regs := (congrArg Block.regs l.rest).trans rfl
theorem Leaves.sys : c.sys = b.sys := (congrArg Block.sys l.rest).trans rfl
theorem Leaves.alc : c.alc = b.alc := (congrArg Block.alc l.rest).trans rfl
theorem Leaves.dlr : c.dlr = b.dlr := (congrArg Block.dlr l.rest).trans rfl
theorem Leaves.efe : c.efe = b.efe := (congrArg Block.efe l.rest).trans rfl
theorem Leaves.tbu : c.tbu = b.tbu := (congrArg Block.tbu l.rest).trans rfl
theorem Leaves.get (f : Fld) : c.get f = b.get f := congrArg (fun r => f.of (FMap.get regReset r f.addr)) l.regs

end

/-! #### What a legal bundle does -/

theorem endHandler_running {h : Nat} {c : COp} {b : Block} (hst : shtState b h = 1) (hc : ∀ e, c ≠ .done e) : endHandler h c b = b := by
  unfold endHandler
  rw [if_neg (by omega), if_neg (by omega)]
  cases c with
  | done e => exact absurd rfl (hc e)
  | _ => rfl

theorem waitl_other {h : Nat} {c : COp} {b : Block} (hc : ∀ n, c ≠ .waitl n) : waitl h c b = b := by
  cases c with
  | waitl n => exact absurd rfl (hc n)
  | _ => rfl

theorem execC_flights_nil (sh : Shuttle) : ({ sh with flights := sh.flights ++ [] } : Shuttle) = sh := by rw [List.append_nil]

/-- The block as the instructions of a bundle of shuttle `h` find it: its register writes have landed. -/
def Block.begun (b : Block) (h : Nat) : Block := b.setShuttle h ((b.shuttle h).startBundle (b.shuttle h).bundle)

theorem Leaves.begun (h : Nat) (b : Block) : Leaves h b ((b.shuttle h).startBundle (b.shuttle h).bundle) b.mem (b.begun h) :=
  (Leaves.refl h b).setShuttle _

/-- A legal bundle: its loads leave the shuttle as `x1`, slots X and C add their writes, its stores leave it as `x2` and the memory as `m`,
and WAITL and what goes on follow. -/
theorem issueLegal_waits {h : Nat} {b : Block} {c : COp} {sh x1 x2 : Shuttle} {m : List Host.Cell}
    (hsh : (b.shuttle h).startBundle (b.shuttle h).bundle = sh)
    (hloads : Leaves h b x1 b.mem (execLoad h 1 sh sh.m1 (b.begun h) (execLoad h 0 sh sh.m0 (b.begun h) (b.begun h))))
    (hstores : ∀ b3, Leaves h b (execC h b.now sh c { x1 with flights := x1.flights ++ execX sh sh.x }) b.mem b3 →
      Leaves h b x2 m (execStore h 1 sh sh.m1 (b.begun h) (execStore h 0 sh sh.m0 (b.begun h) b3))) :
    ∃ b4, Leaves h b x2 m b4 ∧ issueLegal h c b =
      endHandler h c (countBundle h sh.pc ((waitl h c b4).setShuttle h (sequence sh c ((waitl h c b4).shuttle h)))) := by
  have h2 := hloads.addFlights (execX sh sh.x)
  refine ⟨_, hstores _ (h2.setShuttle _), ?_⟩
  unfold issueLegal
  dsimp only
  rw [hsh]
  unfold Block.begun at hloads h2 ⊢
  rw [hsh] at hloads h2 ⊢
  rw [h2.self]

/-- A legal bundle that waits for no transfer. -/
theorem issueLegal_leaves {h : Nat} {b : Block} {c : COp} {sh x1 x2 : Shuttle} {m : List Host.Cell}
    (hsh : (b.shuttle h).startBundle (b.shuttle h).bundle = sh) (hw : ∀ b4, Leaves h b x2 m b4 → waitl h c b4 = b4)
    (hloads : Leaves h b x1 b.mem (execLoad h 1 sh sh.m1 (b.begun h) (execLoad h 0 sh sh.m0 (b.begun h) (b.begun h))))
    (hstores : ∀ b3, Leaves h b (execC h b.now sh c { x1 with flights := x1.flights ++ execX sh sh.x }) b.mem b3 →
      Leaves h b x2 m (execStore h 1 sh sh.m1 (b.begun h) (execStore h 0 sh sh.m0 (b.begun h) b3))) :
    ∃ c6, Leaves h b (sequence sh c x2) m c6 ∧ issueLegal h c b = endHandler h c (countBundle h sh.pc c6) := by
  obtain ⟨b4, h4, hissue⟩ := issueLegal_waits hsh hloads hstores
  rw [hw b4 h4, h4.self] at hissue
  exact ⟨_, h4.setShuttle _, hissue⟩

section
variable {h : Nat} {b : Block} {c : COp} {sh : Shuttle} (hsh : (b.shuttle h).startBundle (b.shuttle h).bundle = sh)
  (hm0 : sh.m0 = .nop) (hm1 : sh.m1 = .nop) (hx : sh.x = .nop)
include hsh hm0 hm1 hx

/-- With the other slots empty, slot C alone says what the bundle leaves. -/
theorem issueLegal_alone_waits : ∃ b4, Leaves h b (execC h b.now sh c sh) b.mem b4 ∧ issueLegal h c b =
    endHandler h c (countBundle h sh.pc ((waitl h c b4).setShuttle h (sequence sh c ((waitl h c b4).shuttle h)))) := by
  refine issueLegal_waits (x1 := sh) hsh ?_ fun b3 h3 => ?_
  · rw [hm0, hm1]
    exact hsh ▸ Leaves.begun h b
  · have hn : execX sh sh.x = [] := by rw [hx]; rfl
    rw [hn, execC_flights_nil] at h3
    rw [hm0, hm1]
    exact h3

theorem issueLegal_alone (hw : ∀ b4, Leaves h b (execC h b.now sh c sh) b.mem b4 → waitl h c b4 = b4) :
    ∃ c6, Leaves h b (sequence sh c (execC h b.now sh c sh)) b.mem c6 ∧
      issueLegal h c b = endHandler h c (countBundle h sh.pc c6) := by
  obtain ⟨b4, h4, hissue⟩ := issueLegal_alone_waits (c := c) hsh hm0 hm1 hx
  rw [hw b4 h4, h4.self] at hissue
  exact ⟨_, h4.setShuttle _, hissue⟩

end

/-! #### What R254 has nothing against -/

/-- A bundle is legal where its fields are, and slot C holds nothing that its place forbids. -/
theorem bundleLegal_of {st : Nat} {sh : Shuttle} {c : COp} (hm0 : sh.m0.ok = true) (hm1 : sh.m1.ok = true) (hx : sh.x.ok = true)
    (hpc : 64 ≤ sh.pc) (hc : c.ok = true) (hloop : c.looping = true → sh.levels < 2) (hctl : c.control = true → sh.slotsLeft = 0)
    (hbr : c.branching = true → sh.isLoopEnd sh.pc = false) (hrep : c.unrepeatable = true → sh.rep = none)
    (hbrd : ∀ a, c = .brd a → 64 ≤ (sh.rd a.toNat).toNat % 8192) (hend : c = .draw ∨ c = .rte → st = 2 ∨ st = 3)
    (hdone : ∀ e, c = .done e → st ≠ 3) : bundleLegal st sh c = true := by
  have h1 : (c.looping && decide (2 ≤ sh.levels)) = false := by
    cases hl : c.looping with
    | false => rfl
    | true => simpa using hloop hl
  have h2 : (c.control && decide (0 < sh.slotsLeft)) = false := by
    cases hl : c.control with
    | false => rfl
    | true => simpa using hctl hl
  have h3 : (c.branching && sh.isLoopEnd sh.pc) = false := by
    cases hl : c.branching with
    | false => rfl
    | true => simpa using hbr hl
  have h4 : (c.unrepeatable && sh.rep.isSome) = false := by
    cases hl : c.unrepeatable with
    | false => rfl
    | true => rw [hrep hl]; rfl
  unfold bundleLegal
  rw [hm0, hm1, hx, hc, h1, h2, h3, h4, decide_eq_true hpc]
  cases c with
  | brd a => exact decide_eq_true (hbrd a rfl)
  | draw => simpa using hend (.inl rfl)
  | rte => simpa using hend (.inr rfl)
  | done e => simpa using hdone e rfl
  | _ => rfl

theorem COp.control_of_looping {c : COp} (h : c.looping = true) : c.control = true := by
  cases c with
  | loop | loopd => rfl
  | _ => cases h

theorem COp.control_of_branching {c : COp} (h : c.branching = true) : c.control = true := by
  cases c with
  | br | call | brd | rep | repd => rfl
  | _ => cases h

/-- Slot C with neither control nor WAITL is legal wherever its own fields are. -/
theorem bundleLegal_of_repeatable {st : Nat} {sh : Shuttle} {c : COp} (hm0 : sh.m0.ok = true) (hm1 : sh.m1.ok = true) (hx : sh.x.ok = true)
    (hpc : 64 ≤ sh.pc) (hc : c.ok = true) (hu : c.unrepeatable = false) : bundleLegal st sh c = true := by
  have hctl : ¬ c.control = true := Bool.eq_false_iff.mp (Bool.or_eq_false_iff.mp hu).1
  exact bundleLegal_of hm0 hm1 hx hpc hc (fun h => absurd (COp.control_of_looping h) hctl) (fun h => absurd h hctl)
    (fun h => absurd (COp.control_of_branching h) hctl) (fun h => absurd h (Bool.eq_false_iff.mp hu))
    (fun _ e => absurd (congrArg COp.control e) hctl)
    (fun e => absurd (e.elim (congrArg COp.control) (congrArg COp.control)) hctl) (fun _ e => absurd (congrArg COp.control e) hctl)

/-! #### The end of the issue -/

theorem countBundle_self {h pc : Nat} {b c : Block} {x : Shuttle} {m : List Host.Cell} (l : Leaves h b x m c) : (countBundle h pc c).shuttle h =
    { x with bundle := x.bundle + 1, m0 := .nop, m1 := .nop, x := .nop } := by
  have e : (countBundle h pc c).shuttle h = { c.shuttle h with bundle := (c.shuttle h).bundle + 1, m0 := .nop, m1 := .nop, x := .nop } :=
    Block.shuttle_setShuttle c h _
  rw [e, l.self]

theorem countBundle_others {h pc : Nat} {b c : Block} {x : Shuttle} {m : List Host.Cell} (l : Leaves h b x m c) {k : Nat} (hk : k ≠ h) :
    (countBundle h pc c).shuttle k = b.shuttle k := (Block.shuttle_setShuttle_ne c _ hk).trans (l.others k hk)

theorem countBundle_state {h pc : Nat} {b c : Block} {x : Shuttle} {m : List Host.Cell} (l : Leaves h b x m c) :
    shtState (countBundle h pc c) h = shtState b h := by
  have hne : (SHT_SSTAT_state h).addr ≠ (SHT_SPC_bundle h).addr := by show SHT_SSTAT h ≠ SHT_SPC h; unfold SHT_SSTAT SHT_SPC; omega
  exact (Block.get_put_ne _ _ hne).trans (l.get _)

/-- The command of slot C of a legal bundle issues it. -/
theorem slotC_legal {h : Nat} {c : COp} {b : Block} (hi : issuing b h = true) (he : eventDue h b = false)
    (hl : bundleLegal (shtState b h) ((b.shuttle h).startBundle (b.shuttle h).bundle) c = true) : slotC h c b = issueLegal h c b := by
  unfold slotC
  rw [hi, he, hl]
  rfl

/-- What `State.bundleDone` says of a shuttle that runs a card, once its bundle leaves the machine so. -/
theorem bundleDone_of {h : Fin 160} {s : State} {f : Block → Block} {x : Shuttle} {m : List Host.Cell} {c : Block}
    (hlive : s.live) (hq : s.blk.quiet)
    (hself : (f s.blk).shuttle h.val = { x with bundle := x.bundle + 1, m0 := .nop, m1 := .nop, x := .nop })
    (hf : f s.blk = (c.setShuttle h.val ((f s.blk).shuttle h.val)).put (SHT_SPC_bundle h.val) (s.atIssue h.val).pc)
    {y : Shuttle} (l : Leaves h.val s.blk y m c) :
    ∃ t, s.run f = .next t ∧ s.bundleDone h.val x m t := by
  obtain ⟨z, hz⟩ : ∃ z, z = (f s.blk).shuttle h.val := ⟨_, rfl⟩
  rw [← hz] at hself hf
  have l' := l.setShuttle z
  have hq' : (f s.blk).quiet := by
    rw [hf]
    exact Block.quiet_of_sys (b := s.blk) l'.sys hq
  have hcvo : (SHT_SPC_bundle h.val).addr ≠ CVO_STAT := by
    show SHT_SPC h.val ≠ CVO_STAT
    unfold SHT_SPC CVO_STAT
    omega
  refine ⟨_, run_live hlive f, ?_, fun k hk => ?_, ?_, fun a ha => ?_, ?_, ?_, ?_, ?_, ?_, rfl⟩
  case _ => exact (congrArg (FMap.get (fun _ => ({} : Shuttle)) · h.val) (finish_sht 0 hq')).trans (hz.symm.trans hself)
  case _ =>
    refine (congrArg (FMap.get (fun _ => ({} : Shuttle)) · k) (finish_sht 0 hq')).trans ?_
    show (f s.blk).shuttle k = _
    rw [hf]
    exact l'.others k hk
  case _ => exact (finish_mem 0 hq').trans (by rw [hf]; exact l'.mem)
  case _ =>
    obtain ⟨h1, h2⟩ := List.ne_and_not_mem_of_not_mem_cons ha
    refine (finish_rd 0 hq' h1).trans ?_
    rw [hf, Block.rd_put_ne _ _ fun e => h2 (List.mem_singleton.mpr e)]
    exact congrArg (FMap.get regReset · a) l'.regs
  case _ =>
    refine (finish_get 0 hq' hcvo).trans ?_
    rw [hf]
    exact Block.get_put _ rfl _
  case _ => exact (finish_alc 0 hq').trans (by rw [hf]; exact l'.alc)
  case _ => exact (finish_dlr 0 hq').trans (by rw [hf]; exact l'.dlr)
  case _ => exact (finish_efe 0 hq').trans (by rw [hf]; exact l'.efe)
  case _ => exact (finish_tbu 0 hq').trans (by rw [hf]; exact l'.tbu)

/-- A legal bundle of a shuttle that runs a card, and what it leaves. -/
theorem bundle_issues {h : Fin 160} {s : State} (hb : s.bundles h.val) {c : COp} {x : Shuttle} {m : List Host.Cell} {c6 : Block}
    (hlegal : bundleLegal 1 (s.atIssue h.val) c = true) (hc : ∀ e, c ≠ .done e) (l : Leaves h.val s.blk x m c6)
    (hissue : issueLegal h.val c s.blk = endHandler h.val c (countBundle h.val (s.atIssue h.val).pc c6)) :
    ∃ t, s.run (slotC h.val c) = .next t ∧ s.bundleDone h.val x m t := by
  obtain ⟨hlive, hq, hi, hst, he⟩ := hb
  have hf : slotC h.val c s.blk = countBundle h.val (s.atIssue h.val).pc c6 := by
    rw [slotC_legal hi he (by rw [hst]; exact hlegal), hissue, endHandler_running ((countBundle_state l).trans hst) hc]
  have hself := countBundle_self (pc := (s.atIssue h.val).pc) l
  rw [← hf] at hself
  refine bundleDone_of hlive hq hself ?_ l
  rw [hself, hf]
  unfold countBundle
  dsimp only
  rw [l.self]

end Sys2Proof.Machine

namespace Sys2Proof.Machine

/-! ### Slot C issues the bundle (R235, R245–R254) -/

/-- A shuttle whose next bundle holds nothing but slot C. -/
structure Alone (sh : Shuttle) : Prop where
  m0 : sh.m0 = .nop
  m1 : sh.m1 = .nop
  x : sh.x = .nop
  pc : 64 ≤ sh.pc

/-- Whatever slot C holds, its command issues the bundle or faults. -/
theorem slotC_issues {h : Nat} {s : State} (hlive : s.live) (hi : s.issues h) (he : eventDue h s.blk = false) (c : COp) :
    s.run (slotC h c) = .next (s.on (if bundleLegal (shtState s.blk h) ((s.blk.shuttle h).startBundle (s.blk.shuttle h).bundle) c
      then issueLegal h c else issueIllegal h)) := by
  refine run_live_congr hlive ?_
  unfold slotC
  rw [show issuing s.blk h = true from hi, he]
  exact (apply_ite (fun f : Block → Block => f s.blk) _ _ _).symm

/-! #### What goes on with a shuttle keeps (R224, R250–R252) -/

/-- Two shuttles differ in nothing but where they go on. -/
def Shuttle.sameGoing (x y : Shuttle) : Prop :=
  y = { x with pc := y.pc, lc := y.lc, levels := y.levels, rep := y.rep, slotsLeft := y.slotsLeft, branch := y.branch }

theorem Shuttle.loopEnd_sameGoing (n : Nat) (x : Shuttle) : x.sameGoing (Shuttle.loopEnd n x) := by
  induction n generalizing x with
  | zero => rfl
  | succ n ih =>
    unfold Shuttle.loopEnd
    dsimp only
    split
    · rfl
    · split
      · rfl
      · exact (ih _).trans rfl

theorem Shuttle.onward_sameGoing (x : Shuttle) : x.sameGoing x.onward := by
  unfold Shuttle.onward
  split
  · split
    · rfl
    · exact (Shuttle.loopEnd_sameGoing 2 _).trans rfl
  · split
    · dsimp only
      split
      · rfl
      · exact (Shuttle.loopEnd_sameGoing 2 _).trans rfl
    · split
      · exact Shuttle.loopEnd_sameGoing 2 _
      · dsimp only
        split
        · rfl
        · exact (Shuttle.loopEnd_sameGoing 2 _).trans rfl

/-! #### Slot C alone -/

section
variable {h : Fin 160} {s : State} (ha : Alone (s.atIssue h.val))
include ha

theorem alone_legal {c : COp} (hc : c.ok = true) (hloop : c.looping = true → (s.atIssue h.val).levels < 2)
    (hctl : c.control = true → (s.atIssue h.val).slotsLeft = 0)
    (hbr : c.branching = true → (s.atIssue h.val).isLoopEnd (s.atIssue h.val).pc = false)
    (hrep : c.unrepeatable = true → (s.atIssue h.val).rep = none)
    (hbrd : ∀ a, c = .brd a → 64 ≤ ((s.atIssue h.val).rd a.toNat).toNat % 8192) (hend : ¬(c = .draw ∨ c = .rte)) :
    bundleLegal 1 (s.atIssue h.val) c = true :=
  bundleLegal_of (by rw [ha.m0]; rfl) (by rw [ha.m1]; rfl) (by rw [ha.x]; rfl) ha.pc hc hloop hctl hbr hrep hbrd (fun e => absurd e hend)
    fun _ _ => by decide

/-- A branch or REP outside the delay slots, a repeated bundle and the last bundle of a body is legal. -/
theorem alone_branch_legal {c : COp} (hin : ((s.atIssue h.val).slotsLeft = 0 ∧ (s.atIssue h.val).rep = none) ∧
    (s.atIssue h.val).isLoopEnd (s.atIssue h.val).pc = false) (hc : c.ok = true) (hloop : c.looping = false)
    (hbrd : ∀ a, c = .brd a → 64 ≤ ((s.atIssue h.val).rd a.toNat).toNat % 8192) (hend : ¬(c = .draw ∨ c = .rte)) :
    bundleLegal 1 (s.atIssue h.val) c = true :=
  alone_legal ha hc (fun e => absurd e (Bool.eq_false_iff.mp hloop)) (fun _ => hin.1.1) (fun _ => hin.2) (fun _ => hin.1.2) hbrd hend

/-- A LOOP outside the delay slots and a repeated bundle is legal while a level is free. -/
theorem alone_loop_legal {c : COp} (hfree : (s.atIssue h.val).slotsLeft = 0 ∧ (s.atIssue h.val).rep = none)
    (hlv : (s.atIssue h.val).levels < 2) (hc : c.ok = true) (hl : c.looping = true) : bundleLegal 1 (s.atIssue h.val) c = true := by
  have hbr : ¬ c.branching = true := by
    cases c with
    | loop | loopd => exact Bool.false_ne_true
    | _ => cases hl
  exact alone_legal ha hc (fun _ => hlv) (fun _ => hfree.1) (fun e => absurd e hbr) (fun _ => hfree.2)
    (fun a e => absurd (e ▸ hl : (COp.brd a).looping = true) Bool.false_ne_true)
    (fun e => e.elim (fun e => Bool.false_ne_true (e ▸ hl : COp.draw.looping = true)) fun e => Bool.false_ne_true (e ▸ hl : COp.rte.looping = true))

variable (hb : s.bundles h.val)
include hb

theorem alone_issues {c : COp} (hlegal : bundleLegal 1 (s.atIssue h.val) c = true) (hd : ∀ e, c ≠ .done e)
    (hw : ∀ b4, Leaves h.val s.blk (execC h.val s.blk.now (s.atIssue h.val) c (s.atIssue h.val)) s.blk.mem b4 → waitl h.val c b4 = b4) :
    ∃ t, s.run (slotC h.val c) = .next t ∧ s.bundleDone h.val
      (sequence (s.atIssue h.val) c (execC h.val s.blk.now (s.atIssue h.val) c (s.atIssue h.val))) s.blk.mem t := by
  obtain ⟨c6, l, hissue⟩ := issueLegal_alone (h := h.val) (b := s.blk) rfl ha.m0 ha.m1 ha.x hw
  exact bundle_issues hb hlegal hd l hissue

/-- An instruction of slot C that neither branches nor waits: its writes are on their way, and the shuttle goes on. -/
theorem alone_writes {c : COp} {x : Shuttle} (hc : c.ok = true) (hu : c.unrepeatable = false)
    (hx : sequence (s.atIssue h.val) c (execC h.val s.blk.now (s.atIssue h.val) c (s.atIssue h.val)) = x) :
    ∃ t, s.run (slotC h.val c) = .next t ∧ s.bundleDone h.val x s.blk.mem t := by
  have hctl : ¬ c.control = true := Bool.eq_false_iff.mp (Bool.or_eq_false_iff.mp hu).1
  have hwait : ∀ n, c ≠ .waitl n := by
    rintro n rfl
    cases hu
  have hdone : ∀ e, c ≠ .done e := by
    rintro e rfl
    exact hctl rfl
  subst hx
  exact alone_issues ha hb (bundleLegal_of_repeatable (by rw [ha.m0]; rfl) (by rw [ha.m1]; rfl) (by rw [ha.x]; rfl) ha.pc hc hu) hdone
    fun b4 _ => waitl_other hwait

/-- A branch, a REP or a LOOP that is legal decides where the shuttle goes on. -/
theorem alone_goes {c : COp} {x : Shuttle} (hlegal : bundleLegal 1 (s.atIssue h.val) c = true) (hd : ∀ e, c ≠ .done e)
    (hw : ∀ n, c ≠ .waitl n) (hx : sequence (s.atIssue h.val) c (execC h.val s.blk.now (s.atIssue h.val) c (s.atIssue h.val)) = x) :
    ∃ t, s.run (slotC h.val c) = .next t ∧ s.bundleDone h.val x s.blk.mem t := by
  subst hx
  exact alone_issues ha hb hlegal hd fun b4 _ => waitl_other hw

end

/-! #### WAITL (R217) -/

/-- Neither the shuttles nor what resets are asked for differ between two blocks. -/
structure KeepsShuttles (b c : Block) : Prop where
  sht : c.sht = b.sht
  sys : c.sys = b.sys

theorem KeepsShuttles.refl (b : Block) : KeepsShuttles b b := ⟨rfl, rfl⟩
theorem KeepsShuttles.tbu (b : Block) (x : Tbu) : KeepsShuttles b { b with tbu := x } := ⟨rfl, rfl⟩
theorem KeepsShuttles.rel (b : Block) (x : Rel) : KeepsShuttles b { b with rel := x } := ⟨rfl, rfl⟩
theorem KeepsShuttles.alc (b : Block) (x : Alloc) : KeepsShuttles b { b with alc := x } := ⟨rfl, rfl⟩
theorem KeepsShuttles.trans {b c d : Block} (h1 : KeepsShuttles b c) (h2 : KeepsShuttles c d) : KeepsShuttles b d :=
  ⟨h2.sht.trans h1.sht, h2.sys.trans h1.sys⟩
theorem KeepsShuttles.put {b c : Block} (h : KeepsShuttles b c) (f : Fld) (v : Nat) : KeepsShuttles b (c.put f v) := ⟨h.sht, h.sys⟩
theorem KeepsShuttles.bump {b c : Block} (h : KeepsShuttles b c) (f : Fld) : KeepsShuttles b (c.bump f) := ⟨by simp [h.sht], by simp [h.sys]⟩
theorem KeepsShuttles.flag {b c : Block} (h : KeepsShuttles b c) (f : Fld) : KeepsShuttles b (c.flag f) := ⟨by simp [h.sht], by simp [h.sys]⟩
theorem KeepsShuttles.ite {p : Prop} [Decidable p] {b c d : Block} (h1 : KeepsShuttles b c) (h2 : KeepsShuttles b d) :
    KeepsShuttles b (if p then c else d) := by
  split
  · exact h1
  · exact h2

theorem noteHarness_keepsShuttles (h k slot a : Nat) (b : Block) : KeepsShuttles b (noteHarness h k slot a b) :=
  .ite (.refl b) ((((((KeepsShuttles.refl b).put _ _).put _ _).put _ _).put _ _).put _ _)

theorem contextUe_keepsShuttles (v a : Nat) (b : Block) : KeepsShuttles b (contextUe v a b) := by
  unfold contextUe
  dsimp only
  have h : KeepsShuttles b (noteHarness (v / 256) 0 (v % 256) a { b with rel := { b.rel with
      ctxUe := FMap.set (fun _ => 0) b.rel.ctxUe v (FMap.get (fun _ => 0) b.rel.ctxUe v + 1), ueVoices := addNew v b.rel.ueVoices } }) :=
    (KeepsShuttles.rel b _).trans (noteHarness_keepsShuttles _ _ _ _ _)
  generalize noteHarness _ _ _ _ _ = c at h ⊢
  exact .ite ((h.trans (.alc c _)).bump _) h

theorem scratchUe_keepsShuttles (k : Nat) (b : Block) : KeepsShuttles b (scratchUe k b) := .ite ⟨rfl, rfl⟩ ⟨rfl, rfl⟩

theorem contain_keepsShuttles (a : Nat) (b : Block) : KeepsShuttles b (contain a b) := by
  unfold contain
  split
  · exact .ite (noteHarness_keepsShuttles ..) (.ite (contextUe_keepsShuttles ..) (.ite (noteHarness_keepsShuttles ..)
      (.ite ((noteHarness_keepsShuttles ..).trans (scratchUe_keepsShuttles ..)) (noteHarness_keepsShuttles ..))))
  · exact .ite ⟨rfl, rfl⟩ (.refl b)
  · exact .refl b

theorem safeEntry_dram_keepsShuttles (b : Block) : KeepsShuttles b (safeEntry 4 0 b) := by
  unfold safeEntry
  dsimp only
  rw [if_neg (by decide : ¬ (4 : Nat) = 8), if_neg (by decide : ¬ (4 : Nat) = 8)]
  have h0 := KeepsShuttles.tbu b
  have h1 := fun x => ((((h0 x).put REL_STAT_safe 1).put REL_STAT_cause 4).bump REL_CNT_safe).flag REL_IRQ_STAT_safe
  exact .ite (.ite (h0 _) ((h0 _).bump _)) (.ite (h1 _) ((((h1 _).put _ _).put _ _).put _ _))

/-- The check of a word touches no shuttle. -/
theorem eccCheck_keepsShuttles (a : Nat) (e : Ecc) (scrub : Bool) (b : Block) : KeepsShuttles b (eccCheck a e scrub b) := by
  unfold eccCheck
  dsimp only
  have h0 := KeepsShuttles.refl b
  split
  · exact h0
  · have h1 := fun p : Bool => KeepsShuttles.ite (p := p = true) ((h0.bump DRC_ECC_CNT_ue).flag DRC_IRQ_STAT_ue)
      ((h0.bump DRC_ECC_CNT_ce).flag DRC_IRQ_STAT_ce)
    have h2 := fun c (hc : KeepsShuttles b c) sector ue => KeepsShuttles.ite (p := c.on DRC_ECC_CAP_valid = true) hc
      (((hc.put DRC_ECC_CAP_sector sector).put DRC_ECC_CAP_ue ue).put DRC_ECC_CAP_valid 1)
    have h3 := fun c (hc : KeepsShuttles b c) => (⟨hc.sht, hc.sys⟩ : KeepsShuttles b { c with rel := { c.rel with dramUe := c.rel.dramUe + 1 } })
    exact .ite (.ite ((h3 _ (h2 _ (h1 _) _ _)).trans (safeEntry_dram_keepsShuttles _)) (h3 _ (h2 _ (h1 _) _ _))) (h2 _ (h1 _) _ _)
  · have h1 := fun p : Bool => KeepsShuttles.ite (p := p = true) ((h0.bump MEM_ECC_CNT_ue).flag MEM_IRQ_STAT_ue)
      ((h0.bump MEM_ECC_CNT_ce).flag MEM_IRQ_STAT_ce)
    have h2 := fun c (hc : KeepsShuttles b c) a i ue sc sy => KeepsShuttles.ite (p := c.on MEM_ECC_CAP_INFO_valid = true) hc
      ((((((hc.put MEM_ECC_CAP_ADDR_addr a).put MEM_ECC_CAP_INFO_array i).put MEM_ECC_CAP_INFO_ue ue).put MEM_ECC_CAP_INFO_scrub sc).put
        MEM_ECC_CAP_INFO_syndrome sy).put MEM_ECC_CAP_INFO_valid 1)
    exact .ite ((h2 _ (h1 _) _ _ _ _ _).trans (contain_keepsShuttles a _)) (h2 _ (h1 _) _ _ _ _ _)

end Sys2Proof.Machine

namespace Sys2Proof.Machine

theorem pendFault_xfers (h k cause : Nat) (addr : Word) (b : Block) : ((pendFault h cause addr b).shuttle k).xfers = (b.shuttle k).xfers := by
  unfold pendFault
  dsimp only
  split
  · rfl
  · by_cases hk : k = h
    · subst hk
      rw [Block.shuttle_setShuttle]
    · rw [Block.shuttle_setShuttle_ne _ _ hk]

theorem pendFault_sys (h cause : Nat) (addr : Word) (b : Block) : (pendFault h cause addr b).sys = b.sys := by
  unfold pendFault
  dsimp only
  split
  · rfl
  · exact Block.setShuttle_sys ..

/-- Neither the outstanding transfers of shuttle `k` nor what resets are asked for differ between two blocks. -/
structure KeepsXfers (k : Nat) (b c : Block) : Prop where
  xfers : (c.shuttle k).xfers = (b.shuttle k).xfers
  sys : c.sys = b.sys

theorem KeepsXfers.setMem {k : Nat} {b c : Block} (h : KeepsXfers k b c) (m : List Host.Cell) : KeepsXfers k b { c with mem := m } :=
  ⟨h.xfers, h.sys⟩

theorem KeepsXfers.ite {k : Nat} {p : Prop} [Decidable p] {b c d : Block} (h1 : KeepsXfers k b c) (h2 : KeepsXfers k b d) :
    KeepsXfers k b (if p then c else d) := by
  split
  · exact h1
  · exact h2

/-- A transfer that completes leaves the other transfers outstanding, and asks for no reset. -/
theorem Xfer.move_keeps (h k : Nat) (x : Xfer) (b : Block) : KeepsXfers k b (x.move h b) := by
  have hecc := eccCheck_keepsShuttles (x.from h) x.ecc false b
  unfold Xfer.move
  dsimp only
  generalize eccCheck (x.from h) x.ecc false b = c at hecc ⊢
  have hc : KeepsXfers k b c := ⟨congrArg (fun z => (FMap.get (fun _ => ({} : Shuttle)) z k).xfers) hecc.sht, hecc.sys⟩
  have hp : ∀ w, KeepsXfers k b (pendFault h 1 w c) := fun w => ⟨(pendFault_xfers ..).trans hc.xfers, (pendFault_sys ..).trans hc.sys⟩
  split
  · exact .ite ((hp _).setMem _) (.ite ((hp _).setMem _) (hp _))
  · exact hc.setMem _

theorem completeXfer_keeps (h : Nat) (b : Block) :
    ((completeXfer h b).shuttle h).xfers = (b.shuttle h).xfers.tail ∧ (completeXfer h b).sys = b.sys := by
  unfold completeXfer
  dsimp only
  split
  next hx => exact ⟨by rw [hx]; rfl, rfl⟩
  next x rest hx =>
    obtain ⟨h1, h2⟩ := Xfer.move_keeps h h x (b.setShuttle h { b.shuttle h with xfers := rest })
    refine ⟨h1.trans ?_, h2.trans rfl⟩
    rw [Block.shuttle_setShuttle, hx]
    rfl

/-- The oldest transfers complete until `n` remain. -/
theorem completeTo_keeps (h n fuel : Nat) (b : Block) (hf : (b.shuttle h).xfers.length - n ≤ fuel) :
    ((completeTo h n fuel b).shuttle h).xfers = (b.shuttle h).xfers.drop ((b.shuttle h).xfers.length - n) ∧ (completeTo h n fuel b).sys = b.sys := by
  induction fuel generalizing b with
  | zero =>
    rw [Nat.le_zero.mp hf]
    exact ⟨rfl, rfl⟩
  | succ fuel ih =>
    unfold completeTo
    obtain ⟨h1, h2⟩ := completeXfer_keeps h b
    split
    next hle =>
      rw [Nat.sub_eq_zero_of_le hle]
      exact ⟨rfl, rfl⟩
    next hgt =>
      have hlen : ((completeXfer h b).shuttle h).xfers.length = (b.shuttle h).xfers.length - 1 := by rw [h1, List.length_tail]
      obtain ⟨h3, h4⟩ := ih (completeXfer h b) (by omega)
      refine ⟨h3.trans ?_, h4.trans h2⟩
      rw [h1, ← List.drop_one, List.drop_drop, List.length_drop]
      congr 1
      omega

theorem Shuttle.onward_xfers (x : Shuttle) : x.onward.xfers = x.xfers := (congrArg Shuttle.xfers x.onward_sameGoing).trans rfl
theorem Shuttle.onward_card (x : Shuttle) : x.onward.card = x.card := (congrArg Shuttle.card x.onward_sameGoing).trans rfl
theorem Shuttle.onward_d (x : Shuttle) : x.onward.d = x.d := (congrArg Shuttle.d x.onward_sameGoing).trans rfl
theorem Shuttle.onward_epc (x : Shuttle) : x.onward.epc = x.epc := (congrArg Shuttle.epc x.onward_sameGoing).trans rfl
theorem Shuttle.onward_eflg (x : Shuttle) : x.onward.eflg = x.eflg := (congrArg Shuttle.eflg x.onward_sameGoing).trans rfl

section
variable {h : Fin 160} {s : State} (ha : Alone (s.atIssue h.val)) (hrep : (s.atIssue h.val).rep = none)
include ha hrep

theorem waitl_legal (n : BitVec 3) : bundleLegal 1 (s.atIssue h.val) (.waitl n) = true :=
  alone_legal ha rfl nofun nofun nofun (fun _ => hrep) nofun (by simp)

variable (hb : s.bundles h.val)
include hb

/-- WAITL without enough outstanding transfers goes on at once. -/
theorem waitl_goes (n : BitVec 3) (hn : (s.atIssue h.val).xfers.length ≤ n.toNat) :
    ∃ t, s.run (slotC h.val (.waitl n)) = .next t ∧ s.bundleDone h.val (s.atIssue h.val).onward s.blk.mem t := by
  refine alone_issues ha hb (waitl_legal ha hrep n) nofun fun b4 l => ?_
  refine if_pos ?_
  rw [l.self]
  exact hn

/-- WAITL leaves at most `n` transfers outstanding, the youngest (R217). -/
theorem waitl_xfers (n : BitVec 3) (h8 : (s.atIssue h.val).xfers.length ≤ 8) : ∃ t, s.run (slotC h.val (.waitl n)) = .next t ∧
    (t.blk.shuttle h.val).xfers = (s.atIssue h.val).xfers.drop ((s.atIssue h.val).xfers.length - n.toNat) := by
  obtain ⟨b4, l, hissue⟩ := issueLegal_alone_waits (h := h.val) (b := s.blk) (c := .waitl n) rfl ha.m0 ha.m1 ha.x
  have hself : b4.shuttle h.val = s.atIssue h.val := l.self
  have hlegal := waitl_legal ha hrep n
  obtain ⟨hlive, hq, hi, hst, he⟩ := hb
  obtain ⟨h1, h2⟩ := completeTo_keeps h.val n.toNat 8 b4 (by rw [hself]; omega)
  have hend : ∀ b, endHandler h.val (.waitl n) b = b := by
    intro b
    unfold endHandler
    dsimp only
    split
    · rfl
    · split <;> rfl
  have hf : slotC h.val (.waitl n) s.blk = countBundle h.val (s.atIssue h.val).pc ((completeTo h.val n.toNat 8 b4).setShuttle h.val
      ((completeTo h.val n.toNat 8 b4).shuttle h.val).onward) := by
    rw [slotC_legal hi he (by rw [hst]; exact hlegal), hissue, hend]
    rfl
  generalize completeTo h.val n.toNat 8 b4 = b5 at h1 h2 hf
  have hq' : (slotC h.val (.waitl n) s.blk).quiet := by
    rw [hf]
    exact Block.quiet_of_sys (b := s.blk) (h2.trans l.sys) hq
  refine ⟨_, run_live hlive _, ?_⟩
  refine (congrArg (fun z => (FMap.get (fun _ => ({} : Shuttle)) z h.val).xfers) (finish_sht 0 hq')).trans ?_
  show ((slotC h.val (.waitl n) s.blk).shuttle h.val).xfers = _
  have hc := countBundle_self (pc := (s.atIssue h.val).pc) ((Leaves.refl h.val b5).setShuttle (b5.shuttle h.val).onward)
  rw [hf, hc, ← hself, ← h1]
  exact Shuttle.onward_xfers _

end

/-! #### DONE (R230) and the ends of handlers (R227, R228, R253) -/

theorem Shuttle.put_card (x : Shuttle) (cls reg : Nat) (v : Acc) : (x.put cls reg v).card = x.card := by
  unfold Shuttle.put
  dsimp only
  split <;> rfl

theorem Shuttle.fold_card (x : Shuttle) (k : Nat) (len : Word) : (x.fold k len).card = x.card := by
  unfold Shuttle.fold
  dsimp only
  split
  · rfl
  · split <;> rfl

/-- The writes that land at a bundle's start do not change the card in service. -/
theorem Shuttle.startBundle_card (x : Shuttle) (i : Nat) : (x.startBundle i).card = x.card := by
  have hputs : ∀ (l : List Flight) (y : Shuttle), (l.foldl (fun acc x => acc.put x.cls x.reg x.val) y).card = y.card := by
    intro l
    induction l with
    | nil => exact fun _ => rfl
    | cons f fs ih => exact fun y => (ih _).trans (Shuttle.put_card ..)
  have hfolds : ∀ (l : List (Nat × Nat × Word)) (y : Shuttle), (l.foldl (fun acc x => acc.fold x.2.1 x.2.2) y).card = y.card := by
    intro l
    induction l with
    | nil => exact fun _ => rfl
    | cons f fs ih => exact fun y => (ih _).trans (Shuttle.fold_card ..)
  unfold Shuttle.startBundle
  exact (hfolds _ _).trans (hputs _ _)

theorem endHandler_done {h : Nat} {e : Bool} {b : Block} (hst : shtState b h = 1) (hty : ∀ c, cardOf b h = some c → c.type ≠ 5) :
    endHandler h (.done e) b = b.setShuttle h { b.shuttle h with done := some e } := by
  have hany : (cardOf b h).any (·.type == 5) = false := by
    cases hc : cardOf b h with
    | none => rfl
    | some c => exact beq_eq_false_iff_ne.mpr (hty c hc)
  unfold endHandler
  rw [if_neg (by omega), if_neg (by omega)]
  dsimp only
  rw [hany]
  rfl

theorem Block.shuttle_put (b : Block) (f : Fld) (v h : Nat) : (b.put f v).shuttle h = b.shuttle h := rfl

theorem Block.put_setShuttle (b : Block) (f : Fld) (v h : Nat) (x : Shuttle) : (b.put f v).setShuttle h x = (b.setShuttle h x).put f v := rfl

/-- DONE of a card that no program of type 5 runs: the bundle issues, and the shuttle waits with its flag (R230). -/
theorem done_waits {h : Fin 160} {s : State} (ha : Alone (s.atIssue h.val)) (hb : s.bundles h.val)
    (hfree : (s.atIssue h.val).slotsLeft = 0 ∧ (s.atIssue h.val).rep = none) (hty : ∀ c, cardOf s.blk h.val = some c → c.type ≠ 5) (e : Bool) :
    ∃ t, s.run (slotC h.val (.done e)) = .next t ∧ s.bundleDone h.val { (s.atIssue h.val).onward with done := some e } s.blk.mem t := by
  obtain ⟨c6, l, hissue⟩ := issueLegal_alone (h := h.val) (b := s.blk) (c := .done e) rfl ha.m0 ha.m1 ha.x fun _ _ => rfl
  have hlegal : bundleLegal 1 (s.atIssue h.val) (.done e) = true :=
    alone_legal ha rfl nofun (fun _ => hfree.1) nofun (fun _ => hfree.2) nofun (by simp)
  have l : Leaves h.val s.blk (s.atIssue h.val).onward s.blk.mem c6 := l
  obtain ⟨hlive, hq, hi, hst, he⟩ := hb
  have hself := countBundle_self (pc := (s.atIssue h.val).pc) l
  have hcard : cardOf (countBundle h.val (s.atIssue h.val).pc c6) h.val = cardOf s.blk h.val := by
    have h1 : ((countBundle h.val (s.atIssue h.val).pc c6).shuttle h.val).card = (s.blk.shuttle h.val).card := by
      rw [hself]
      exact (Shuttle.onward_card _).trans (Shuttle.startBundle_card _ _)
    have h2 : (countBundle h.val (s.atIssue h.val).pc c6).dlr = s.blk.dlr := l.dlr
    unfold cardOf
    rw [h1, h2]
  have hf : slotC h.val (.done e) s.blk = (countBundle h.val (s.atIssue h.val).pc c6).setShuttle h.val
      { (countBundle h.val (s.atIssue h.val).pc c6).shuttle h.val with done := some e } := by
    rw [slotC_legal hi he (by rw [hst]; exact hlegal), hissue]
    exact endHandler_done ((countBundle_state l).trans hst) fun c hc => hty c (hcard.symm.trans hc)
  refine bundleDone_of (c := c6.setShuttle h.val { c6.shuttle h.val with bundle := (c6.shuttle h.val).bundle + 1, m0 := .nop, m1 := .nop, x := .nop })
    hlive hq ?_ ?_ (l.setShuttle _)
  · rw [hf, Block.shuttle_setShuttle, hself]
  · rw [hf, Block.shuttle_setShuttle]
    exact Block.put_setShuttle _ _ _ _ _

/-- A handler's end: its bundle issues, the shuttle stands as `z`, and its state is `v`. -/
theorem handlerEnds_of {h : Fin 160} {s : State} {f : Block → Block} (hlive : s.live) (hq : s.blk.quiet) {x z : Shuttle} {m : List Host.Cell}
    {c6 : Block} {pc v : Nat} (l : Leaves h.val s.blk x m c6) (hv : v < 8)
    (hf : f s.blk = ((countBundle h.val pc c6).setShuttle h.val z).put (SHT_SSTAT_state h.val) v) :
    ∃ t, s.run f = .next t ∧ shtState t.blk h.val = v ∧ t.blk.shuttle h.val = z ∧ (∀ k, k ≠ h.val → t.blk.shuttle k = s.blk.shuttle k) ∧
      t.blk.mem = m ∧ t.blk.alc = s.blk.alc ∧ t.blk.dlr = s.blk.dlr := by
  have hq' : (f s.blk).quiet := by
    rw [hf]
    exact Block.quiet_of_sys (b := s.blk) (by simp [countBundle, l.sys]) hq
  have hcvo : (SHT_SSTAT_state h.val).addr ≠ CVO_STAT := by
    show SHT_SSTAT h.val ≠ CVO_STAT
    unfold SHT_SSTAT CVO_STAT
    omega
  refine ⟨_, run_live hlive f, ?_, ?_, fun k hk => ?_, ?_, ?_, ?_⟩
  case _ =>
    refine (finish_get 0 hq' hcvo).trans ?_
    rw [hf, Block.get_put _ rfl]
    exact Nat.mod_eq_of_lt hv
  case _ =>
    refine (congrArg (FMap.get (fun _ => ({} : Shuttle)) · h.val) (finish_sht 0 hq')).trans ?_
    show (f s.blk).shuttle h.val = _
    rw [hf, Block.shuttle_put, Block.shuttle_setShuttle]
  case _ =>
    refine (congrArg (FMap.get (fun _ => ({} : Shuttle)) · k) (finish_sht 0 hq')).trans ?_
    show (f s.blk).shuttle k = _
    rw [hf, Block.shuttle_put, Block.shuttle_setShuttle_ne _ _ hk, countBundle_others l hk]
  case _ => exact (finish_mem 0 hq').trans (by rw [hf]; simp [countBundle, l.mem])
  case _ => exact (finish_alc 0 hq').trans (by rw [hf]; simp [countBundle, l.alc])
  case _ => exact (finish_dlr 0 hq').trans (by rw [hf]; simp [countBundle, l.dlr])

/-- What ends a handler where it is alone in its bundle. -/
theorem ends_issues {h : Fin 160} {s : State} {c : COp} (hi : s.issues h.val) (he : eventDue h.val s.blk = false) (ha : Alone (s.atIssue h.val))
    (hsl : (s.atIssue h.val).slotsLeft = 0) (hrep : (s.atIssue h.val).rep = none) (hc : c = .draw ∨ c = .rte ∨ ∃ e, c = .done e)
    (hst : shtState s.blk h.val = 2 ∨ c = .rte ∧ shtState s.blk h.val = 3) : ∃ c6, Leaves h.val s.blk (s.atIssue h.val).onward s.blk.mem c6 ∧
      slotC h.val c s.blk = endHandler h.val c (countBundle h.val (s.atIssue h.val).pc c6) := by
  have hshape : c.ok = true ∧ c.looping = false ∧ c.branching = false ∧ (∀ a, c ≠ .brd a) ∧ (∀ b, waitl h.val c b = b) ∧
      sequence (s.atIssue h.val) c (execC h.val s.blk.now (s.atIssue h.val) c (s.atIssue h.val)) = (s.atIssue h.val).onward := by
    obtain rfl | rfl | ⟨e, rfl⟩ := hc <;> exact ⟨rfl, rfl, rfl, nofun, fun _ => rfl, rfl⟩
  obtain ⟨hok, hloop, hbr, hbrd, hw, hseq⟩ := hshape
  have hlegal : bundleLegal (shtState s.blk h.val) (s.atIssue h.val) c = true := by
    refine bundleLegal_of (by rw [ha.m0]; rfl) (by rw [ha.m1]; rfl) (by rw [ha.x]; rfl) ha.pc hok (fun e => absurd e (by rw [hloop]; decide))
      (fun _ => hsl) (fun e => absurd e (by rw [hbr]; decide)) (fun _ => hrep) (fun a e => absurd e (hbrd a)) (fun _ => ?_) fun e hce => ?_
    · exact hst.imp id And.right
    · subst hce
      obtain hst | ⟨hrte, -⟩ := hst
      · omega
      · cases hrte
  obtain ⟨c6, l, hissue⟩ := issueLegal_alone (h := h.val) (b := s.blk) (c := c) rfl ha.m0 ha.m1 ha.x fun b4 _ => hw b4
  exact ⟨c6, hseq ▸ l, (slotC_legal hi he hlegal).trans hissue⟩

theorem endHandler_fault {h : Nat} {c : COp} {b : Block} (hst : shtState b h = 2) (hc : c = .draw ∨ c = .rte ∨ ∃ e, c = .done e) :
    endHandler h c b = enterDraw h b.now b := by
  unfold endHandler
  rw [if_pos hst]
  obtain rfl | rfl | ⟨e, rfl⟩ := hc <;> rfl

theorem endHandler_tapReturn {h : Nat} {b : Block} (hst : shtState b h = 3) : endHandler h .rte b = (b.setShuttle h { b.shuttle h with
    pc := (b.shuttle h).epc.toNat % 8192, flg := (b.shuttle h).eflg }).put (SHT_SSTAT_state h) 1 := by
  unfold endHandler
  rw [if_neg (by omega), if_pos hst]

end Sys2Proof.Machine

namespace Sys2Proof.Machine

/-! #### The results of slot C -/

theorem ldhi_word (i : BitVec 16) (w : Word) : BitVec.ofNat 32 (i.toNat * 65536 + w.toNat % 65536) = i ++ w.extractLsb' 0 16 := by
  have hlow : (w.extractLsb' 0 16).toNat = w.toNat % 65536 := by rw [BitVec.extractLsb'_toNat, Nat.shiftRight_zero]
  have hi := i.isLt
  refine BitVec.eq_of_toNat_eq ?_
  rw [BitVec.toNat_append, hlow, ← Nat.shiftLeft_add_eq_or_of_lt (Nat.mod_lt _ (by decide)), Nat.shiftLeft_eq, BitVec.toNat_ofNat]
  omega

theorem shift_amount (n : BitVec 5) : (n.setWidth 32 : Word).toNat % 64 = n.toNat := by
  have hn := n.isLt
  rw [BitVec.toNat_setWidth]
  omega

theorem aluOut_shl_amount (x : Word) (n : BitVec 5) : aluOut .shl x (n.setWidth 32) = outZN (shlW x n.toNat) :=
  congrArg (fun k => outZN (shlW x k)) (shift_amount n)
theorem aluOut_shr_amount (x : Word) (n : BitVec 5) : aluOut .shr x (n.setWidth 32) = outZN (shrW x n.toNat) :=
  congrArg (fun k => outZN (shrW x k)) (shift_amount n)
theorem aluOut_asr_amount (x : Word) (n : BitVec 5) : aluOut .asr x (n.setWidth 32) = outZN (asrW x n.toNat) :=
  congrArg (fun k => outZN (asrW x k)) (shift_amount n)

theorem shape_reserved (x : Word) : shape .reserved x = 0 := rfl

theorem countBundle_now {h pc : Nat} {b c : Block} {x : Shuttle} {m : List Host.Cell} (l : Leaves h b x m c) : (countBundle h pc c).now = b.now := by
  have hne : TBU_CYCLE ≠ (SHT_SPC_bundle h).addr := by
    show TBU_CYCLE ≠ SHT_SPC h
    unfold SHT_SPC TBU_CYCLE
    omega
  exact (Block.num_put_ne _ _ hne).trans (congrArg (fun r => (FMap.get regReset r TBU_CYCLE).toNat) l.regs)

/-- Settles O29: a bundle whose other slots are empty leaves what slot C makes of the shuttle at issue. -/
theorem slotCIssues : Obligations.SlotCIssues := by
  unfold Obligations.SlotCIssues
  refine ⟨fun h s c hlive hi he => ?dispatch, fun h s hb => ?running, fun h s hlive hq hi he => ?handlers⟩
  case dispatch =>
    intro legal issued
    have key : ∀ c', c = c' → s.run (slotC h.val c') = issued := by
      rintro _ rfl
      exact slotC_issues hlive hi he c
    exact ⟨key _,
      fun d a b => ⟨key _, key _, key _, key _, key _, key _, key _, key _, key _, key _, key _, key _, key _, key _⟩,
      fun a b => key _, fun d a => key _, fun d a i => ⟨key _, key _, key _, key _⟩, fun d a k n => key _, fun a i => key _,
      fun d i => key _, fun d i => key _, fun d a b k => key _,
      fun d x => ⟨key _, key _, key _, key _, key _, key _, key _, key _⟩, fun dst src dc sc => key _, fun k len i => key _,
      fun k t => key _, fun d t => key _, fun a => key _, fun n => key _, fun a => key _, fun n o => key _, fun a o => key _,
      fun n => key _, fun e => key _, key _, key _⟩
  case running =>
    intro sh hm0 hm1 hx hpc after writes D flags word res free inside
    have ha : Alone (s.atIssue h.val) := ⟨hm0, hm1, hx, hpc⟩
    -- an instruction that writes and goes on
    have W : ∀ {c : COp} {x : Shuttle}, c.ok = true → c.unrepeatable = false → sequence sh c (execC h.val s.blk.now sh c sh) = x →
      ∃ t, s.run (slotC h.val c) = .next t ∧ s.bundleDone h.val x s.blk.mem t := fun hc hu he => alone_writes ha hb hc hu he
    refine ⟨?nop, fun d a b => ?alu, fun a b => W rfl rfl rfl, fun d a => W rfl rfl rfl, fun d a i => ?imm, fun d a n => ?shi,
      fun a i => W rfl rfl rfl, fun d i => W rfl rfl rfl, fun d i => ?ldhi, fun d a b k => W rfl rfl rfl, fun d x => ?shp,
      fun dst src dc sc hok => ?movx, fun k i => ?setbl, fun hin => ?branch, fun hfree hlv => ?loop, fun hrep => ?waitl,
      fun hfree hty e => done_waits ha hb hfree hty e⟩
    case nop => exact W (c := .nop) rfl rfl (congrArg Shuttle.onward (execC_flights_nil sh).symm)
    case alu =>
      exact ⟨W rfl rfl rfl, W rfl rfl rfl, W rfl rfl rfl, W rfl rfl rfl, W rfl rfl rfl, W rfl rfl rfl, W rfl rfl rfl, W rfl rfl rfl,
        W rfl rfl rfl, W rfl rfl rfl, W rfl rfl rfl, W rfl rfl rfl, W rfl rfl rfl, W rfl rfl rfl⟩
    case imm => exact ⟨W rfl rfl rfl, W rfl rfl rfl, W rfl rfl rfl, W rfl rfl rfl⟩
    case shi =>
      have hf : ∀ {r r' : AluOut}, r' = r → ({ sh with flights := sh.flights ++ aluFlights sh (some d.toNat) r } : Shuttle).onward =
          ({ sh with flights := sh.flights ++ res d r' } : Shuttle).onward := by
        rintro r _ rfl
        rfl
      exact ⟨W (c := .shi d a 0 n) rfl rfl (hf (aluOut_shl_amount _ n)), W (c := .shi d a 1 n) rfl rfl (hf (aluOut_shr_amount _ n)),
        W (c := .shi d a 2 n) rfl rfl (hf (aluOut_asr_amount _ n))⟩
    case ldhi =>
      exact W (c := .ldhi d i) rfl rfl
        (congrArg (fun v => ({ sh with flights := sh.flights ++ word d v } : Shuttle).onward) (ldhi_word i (D d)))
    case shp =>
      exact ⟨W rfl rfl rfl, W rfl rfl rfl, W rfl rfl rfl, W rfl rfl rfl, W rfl rfl rfl, W rfl rfl rfl, W rfl rfl rfl,
        W (c := .shp .reserved d x) rfl rfl (congrArg (fun v => ({ sh with flights := sh.flights ++ [laterW sh 3 4 0 d.toNat v] } : Shuttle).onward)
          (shape_reserved (D x)))⟩
    case movx =>
      refine ⟨fun hne => W hok rfl ?_, fun heq => W hok rfl ?_⟩
      · have hn : ¬ dc.toNat = 4 := fun e => hne (BitVec.eq_of_toNat_eq e)
        exact congrArg Shuttle.onward (if_neg hn)
      · subst heq
        rfl
    case setbl => exact ⟨W rfl rfl rfl, W rfl rfl rfl⟩
    case branch =>
      have hle : ∀ n : BitVec 13, 64 ≤ n.toNat → decide (64 ≤ n.toNat) = true := fun n hn => decide_eq_true hn
      exact ⟨fun k t ht => alone_goes ha hb (alone_branch_legal ha hin (hle t ht) rfl nofun (by simp)) nofun nofun rfl,
        fun d t ht => alone_goes ha hb (alone_branch_legal ha hin (hle t ht) rfl nofun (by simp)) nofun nofun rfl,
        fun a hd => alone_goes ha hb (alone_branch_legal ha hin rfl rfl (by rintro _ ⟨⟩; exact hd) (by simp)) nofun nofun rfl,
        fun n hn => alone_goes ha hb (alone_branch_legal ha hin (decide_eq_true hn) rfl nofun (by simp)) nofun nofun rfl,
        fun a => alone_goes ha hb (alone_branch_legal ha hin rfl rfl nofun (by simp)) nofun nofun rfl⟩
    case loop =>
      exact ⟨fun n o => alone_goes ha hb (alone_loop_legal ha hfree hlv rfl rfl) nofun nofun rfl,
        fun a o => alone_goes ha hb (alone_loop_legal ha hfree hlv rfl rfl) nofun nofun rfl⟩
    case waitl =>
      refine ⟨fun n hn => ?_, fun n h8 => waitl_xfers ha hrep hb n h8⟩
      have hw := waitl_goes ha hrep hb n hn
      rw [← execC_flights_nil (s.atIssue h.val)] at hw
      exact hw
  case handlers =>
    intro sh hm0 hm1 hx hpc hsl hrep
    have ha : Alone (s.atIssue h.val) := ⟨hm0, hm1, hx, hpc⟩
    refine ⟨fun hst => ?fault, fun hst => ?tap⟩
    case fault =>
      have key : ∀ c, (c = .draw ∨ c = .rte ∨ ∃ e, c = .done e) → ∃ t, s.run (slotC h.val c) = .next t ∧
          shtState t.blk h.val = 0 ∧ (t.blk.shuttle h.val).card = none ∧ (t.blk.shuttle h.val).drawT = s.blk.now ∧
          (t.blk.shuttle h.val).d = sh.d ∧ (∀ k, k ≠ h.val → t.blk.shuttle k = s.blk.shuttle k) ∧ t.blk.mem = s.blk.mem ∧
          t.blk.alc = s.blk.alc ∧ t.blk.dlr = s.blk.dlr := by
        intro c hc
        obtain ⟨c6, l, hf⟩ := ends_issues hi he ha hsl hrep hc (.inl hst)
        rw [endHandler_fault ((countBundle_state l).trans hst) hc] at hf
        obtain ⟨t, ht, hv, hz, hothers, hmem, halc, hdlr⟩ := handlerEnds_of hlive hq l (by decide : 0 < 8) hf
        refine ⟨t, ht, hv, by rw [hz], ?_, ?_, hothers, hmem, halc, hdlr⟩
        · rw [hz]
          exact countBundle_now l
        · rw [hz, countBundle_self l]
          exact Shuttle.onward_d _
      intro i hmem
      simp only [List.mem_cons, List.not_mem_nil, or_false] at hmem
      obtain rfl | rfl | rfl | rfl := hmem
      · exact key .draw (.inl rfl)
      · exact key .rte (.inr (.inl rfl))
      · exact key (.done false) (.inr (.inr ⟨_, rfl⟩))
      · exact key (.done true) (.inr (.inr ⟨_, rfl⟩))
    case tap =>
      obtain ⟨c6, l, hf⟩ := ends_issues hi he ha hsl hrep (.inr (.inl rfl)) (.inr ⟨rfl, hst⟩)
      rw [endHandler_tapReturn ((countBundle_state l).trans hst)] at hf
      obtain ⟨t, ht, hv, hz, hothers, hmem, halc, hdlr⟩ := handlerEnds_of hlive hq l (by decide : 1 < 8) hf
      rw [countBundle_self l] at hz
      refine ⟨t, ht, hv, ?_, ?_, ?_, hothers, hmem, halc, hdlr⟩
      · rw [hz]
        exact congrArg (fun w : Word => w.toNat % 8192) (Shuttle.onward_epc _)
      · rw [hz]
        exact Shuttle.onward_eflg _
      · rw [hz]
        exact Shuttle.onward_d _

end Sys2Proof.Machine

namespace Sys2Proof.Machine

/-! ### Slots M0, M1 and X (R208, R209, R219, R235–R244) -/

/-! #### The instruction is given to the next bundle -/

theorem slotM_gives {h : Nat} {s : State} (hlive : s.live) (hi : s.issues h) (m1 : Bool) (op : MOp) :
    s.run (slotM h m1 op) = .next (s.on fun b =>
      b.setShuttle h (if m1 then { b.shuttle h with m1 := op } else { b.shuttle h with m0 := op })) := by
  refine run_live_congr hlive (if_neg ?_)
  rw [show issuing s.blk h = true from hi]
  decide

theorem slotX_gives {h : Nat} {s : State} (hlive : s.live) (hi : s.issues h) (op : XOp) :
    s.run (slotX h op) = .next (s.on fun b => b.setShuttle h { b.shuttle h with x := op }) := by
  refine run_live_congr hlive (if_neg ?_)
  rw [show issuing s.blk h = true from hi]
  decide

/-! #### The memory of a shuttle alone (R211, R239) -/

/-- A local address lies in the shuttle's own set, aligned to the access. -/
def inPrivate (a : Word) (n : Nat) : Prop := a.toNat % n = 0 ∧ 0x180000 ≤ a.toNat ∧ a.toNat < 0x184000

theorem localAccess_private {a : Word} {n : Nat} (ha : inPrivate a n) (b : Block) (h : Nat) (store : Bool) :
    localAccess b h a.toNat n store = .at (privBase h + (a.toNat - 0x180000)) := by
  obtain ⟨hal, hlo, hhi⟩ := ha
  unfold localAccess
  rw [if_neg (by omega), if_neg (by omega), if_neg (by omega), if_neg (by omega), if_neg (by omega), if_pos hhi]

/-- Without outstanding transfers a load reads the memory (R217). -/
theorem localBytes_settled {h : Nat} {b : Block} (hx : (b.shuttle h).xfers = []) (a p n : Nat) : localBytes h a p n b = Memory.bytes b.mem p n := by
  unfold localBytes Memory.bytes
  dsimp only
  rw [hx]
  rfl

theorem postFlight_toList (sh : Shuttle) (rank : Nat) (f : FmtA) (n : Nat) :
    postFlight sh rank f n = ((f.posted sh n).map fun p => laterW sh rank 1 1 f.p.toNat p).toList := by
  unfold postFlight
  cases f.posted sh n <;> rfl

/-- The registers that a load of a kind writes, from the bytes it read. -/
def loadWrites (sh : Shuttle) (rank : Nat) (k : Load) (d : Nat) (l : List Byte) : List Flight :=
  match k with
  | .pair => [laterW sh rank 3 0 d (BitVec.ofNat 32 (leNat (l.take 4))), laterW sh rank 3 0 (d + 1) (BitVec.ofNat 32 (leNat (l.drop 4)))]
  | _ => [laterW sh rank 3 0 d (loadWord k l)]

section
variable (sh : Shuttle) (rank d a : Nat) (m : List Host.Cell)

theorem loadWrites_word : loadWrites sh rank .word d (Memory.bytes m a 4) = [laterW sh rank 3 0 d (BitVec.ofNat 32 (Memory.num m a 4))] := rfl
theorem loadWrites_half : loadWrites sh rank .half d (Memory.bytes m a 2) =
    [laterW sh rank 3 0 d ((BitVec.ofNat 16 (Memory.num m a 2)).signExtend 32)] := rfl
theorem loadWrites_halfU : loadWrites sh rank .halfU d (Memory.bytes m a 2) = [laterW sh rank 3 0 d (BitVec.ofNat 32 (Memory.num m a 2))] := rfl
theorem loadWrites_byte : loadWrites sh rank .byte d (Memory.bytes m a 1) = [laterW sh rank 3 0 d (BitVec.ofNat 32 (Memory.num m a 1))] := rfl
theorem loadWrites_pair : loadWrites sh rank .pair d (Memory.bytes m a 8) = [laterW sh rank 3 0 d (BitVec.ofNat 32 (Memory.num m a 4)),
    laterW sh rank 3 0 (d + 1) (BitVec.ofNat 32 (Memory.num m (a + 4) 4))] := by
  have hlow : (Memory.bytes m a 8).take 4 = Memory.bytes m a 4 := rfl
  have hhigh : (Memory.bytes m a 8).drop 4 = Memory.bytes m (a + 4) 4 := rfl
  unfold loadWrites
  dsimp only
  rw [hlow, hhigh]
  rfl

end

theorem doLoad_private {h rank : Nat} {sh : Shuttle} {k : Load} {f : FmtA} {b0 b : Block} (hin : inPrivate (f.addr sh) k.size)
    (hx : (b0.shuttle h).xfers = []) : doLoad h rank sh k f .clean b0 b = addFlights h (postFlight sh rank f k.size ++
      loadWrites sh rank k f.d.toNat (Memory.bytes b0.mem (privBase h + ((f.addr sh).toNat - 0x180000)) k.size)) b := by
  unfold doLoad
  dsimp only
  rw [localAccess_private hin, ← localBytes_settled hx (f.addr sh).toNat]
  dsimp only
  rw [eccCheck_clean]
  cases k <;> rfl

/-- The bytes that a store of a kind writes. -/
def storeBytes (sh : Shuttle) (k : StoreKind) (d : Nat) : List Byte :=
  match k with
  | .pair => leBytes 4 (sh.rd d).toNat ++ leBytes 4 (sh.rd (d + 1)).toNat
  | _ => leBytes k.size (sh.rd d).toNat

theorem doStore_private {h rank : Nat} {sh : Shuttle} {k : StoreKind} {f : FmtA} {b0 b : Block} (hin : inPrivate (f.addr sh) k.size) :
    doStore h rank sh k f .clean b0 b = addFlights h (postFlight sh rank f k.size)
      { b with mem := Memory.setBytes b.mem (privBase h + ((f.addr sh).toNat - 0x180000)) (storeBytes sh k f.d.toNat) } := by
  unfold doStore
  dsimp only
  rw [localAccess_private hin]
  dsimp only
  rw [eccCheck_clean]
  cases k <;> rfl

/-! #### What NOP in slot C issues -/

section
variable {h : Fin 160} {s : State} (hb : s.bundles h.val) (hpc : 64 ≤ (s.atIssue h.val).pc)
include hb hpc

/-- NOP in slot C issues what the other slots hold. -/
theorem nop_issues {x1 x2 : Shuttle} {m : List Host.Cell} (hm0 : (s.atIssue h.val).m0.ok = true) (hm1 : (s.atIssue h.val).m1.ok = true)
    (hx : (s.atIssue h.val).x.ok = true)
    (hloads : Leaves h.val s.blk x1 s.blk.mem (execLoad h.val 1 (s.atIssue h.val) (s.atIssue h.val).m1 (s.blk.begun h.val)
      (execLoad h.val 0 (s.atIssue h.val) (s.atIssue h.val).m0 (s.blk.begun h.val) (s.blk.begun h.val))))
    (hstores : ∀ b3, Leaves h.val s.blk { x1 with flights := x1.flights ++ execX (s.atIssue h.val) (s.atIssue h.val).x } s.blk.mem b3 →
      Leaves h.val s.blk x2 m (execStore h.val 1 (s.atIssue h.val) (s.atIssue h.val).m1 (s.blk.begun h.val)
        (execStore h.val 0 (s.atIssue h.val) (s.atIssue h.val).m0 (s.blk.begun h.val) b3))) :
    ∃ t, s.run (slotC h.val .nop) = .next t ∧ s.bundleDone h.val x2.onward m t := by
  obtain ⟨c6, l, hissue⟩ := issueLegal_leaves (c := .nop) (sh := s.atIssue h.val) rfl (fun _ _ => rfl) hloads hstores
  exact bundle_issues hb (bundleLegal_of_repeatable hm0 hm1 hx hpc rfl rfl) nofun l hissue

/-- Slot X alone: its writes are on their way. -/
theorem slotX_alone (hm0 : (s.atIssue h.val).m0 = .nop) (hm1 : (s.atIssue h.val).m1 = .nop) (hx : (s.atIssue h.val).x.ok = true) :
    ∃ t, s.run (slotC h.val .nop) = .next t ∧ s.bundleDone h.val ({ s.atIssue h.val with
      flights := (s.atIssue h.val).flights ++ execX (s.atIssue h.val) (s.atIssue h.val).x } : Shuttle).onward s.blk.mem t := by
  refine nop_issues (x1 := s.atIssue h.val) hb hpc (by rw [hm0]; rfl) (by rw [hm1]; rfl) hx ?_ fun b3 h3 => ?_
  · rw [hm0, hm1]
    exact Leaves.begun h.val s.blk
  · rw [hm0, hm1]
    exact h3

/-- Slot M1 or M0 alone. -/
theorem slotM_alone {m1 : Bool} {op : MOp} {x1 x2 : Shuttle} {m : List Host.Cell}
    (hop : (if m1 then (s.atIssue h.val).m1 else (s.atIssue h.val).m0) = op)
    (hother : (if m1 then (s.atIssue h.val).m0 else (s.atIssue h.val).m1) = .nop) (hx : (s.atIssue h.val).x = .nop) (hok : op.ok = true)
    (hloads : Leaves h.val s.blk x1 s.blk.mem
      (execLoad h.val (if m1 then 1 else 0) (s.atIssue h.val) op (s.blk.begun h.val) (s.blk.begun h.val)))
    (hstores : ∀ b3, Leaves h.val s.blk x1 s.blk.mem b3 → Leaves h.val s.blk x2 m
      (execStore h.val (if m1 then 1 else 0) (s.atIssue h.val) op (s.blk.begun h.val) b3)) :
    ∃ t, s.run (slotC h.val .nop) = .next t ∧ s.bundleDone h.val x2.onward m t := by
  have hn : ({ x1 with flights := x1.flights ++ execX (s.atIssue h.val) (s.atIssue h.val).x } : Shuttle) = x1 := by
    rw [show execX (s.atIssue h.val) (s.atIssue h.val).x = [] by rw [hx]; rfl]
    exact execC_flights_nil x1
  have hxok : (s.atIssue h.val).x.ok = true := by rw [hx]; rfl
  have hnop : MOp.ok .nop = true := rfl
  cases m1 with
  | false =>
    obtain rfl : (s.atIssue h.val).m0 = op := hop
    have hm1 : (s.atIssue h.val).m1 = .nop := hother
    refine nop_issues (x1 := x1) hb hpc hok (hm1 ▸ hnop) hxok ?_ fun b3 h3 => ?_
    · rw [hm1]
      exact hloads
    · rw [hm1]
      exact hstores b3 (hn ▸ h3)
  | true =>
    obtain rfl : (s.atIssue h.val).m1 = op := hop
    have hm0 : (s.atIssue h.val).m0 = .nop := hother
    refine nop_issues (x1 := x1) hb hpc (hm0 ▸ hnop) hok hxok ?_ fun b3 h3 => ?_
    · rw [hm0]
      exact hloads
    · rw [hm0]
      exact hstores b3 (hn ▸ h3)

end

/-! #### Slot X -/

theorem satHits_iff (w : Nat) (v : Int) : satHits (w + 1) v = decide (v < -(2 ^ w) ∨ 2 ^ w ≤ v) := by
  have hp : ((2 ^ w : Nat) : Int) = 2 ^ w := Int.natCast_pow 2 w
  have h0 : (0 : Int) < 2 ^ w := Int.pow_pos (by decide)
  unfold satHits satInt
  rw [Nat.add_sub_cancel, hp]
  generalize (2 ^ w : Int) = p at h0 ⊢
  split
  · rw [decide_eq_true (by omega)]
    exact bne_iff_ne.mpr (by omega)
  · split
    · rw [decide_eq_true (by omega)]
      exact bne_iff_ne.mpr (by omega)
    · rw [decide_eq_false (by omega)]
      exact bne_self_eq_false _

theorem sticky_iff (sh : Shuttle) (mask w : Nat) (v : Int) : sticky sh rankX mask (satHits (w + 1) v) =
    if v < -(2 ^ w) ∨ 2 ^ w ≤ v then [laterW sh 2 1 19 0 (BitVec.ofNat 32 mask)] else [] := by
  unfold sticky
  rw [satHits_iff]
  simp only [decide_eq_true_eq]
  rfl

theorem signed_eq (neg : Bool) (p : Int) : signed neg p = (if neg then -1 else 1) * p := by
  cases neg <;> simp [signed]

/-- The writes of a sum into an accumulator (R208), as R219 counts their distances. -/
theorem accumulate_eq (sh : Shuttle) (a : Nat) (acc neg : Bool) (p : Int) : accumulate sh a acc (signed neg p) =
    let v := (if acc then (sh.accum a).toInt else 0) + (if neg then -1 else 1) * p
    [later sh 2 1 17 a (accSat v), later sh 2 4 16 a (accSat v)] ++ (if v < -(2 ^ 71) ∨ 2 ^ 71 ≤ v then [laterW sh 2 1 19 0 32] else []) := by
  unfold accumulate
  rw [signed_eq]
  exact congrArg (_ ++ ·) (sticky_iff sh 32 71 _)

theorem extract_eq (sh : Shuttle) (a k d : Nat) : extract sh a k d =
    let v := extractExact (sh.extr a) k
    [laterW sh 2 4 0 d (sat32 v)] ++ (if v < -(2 ^ 31) ∨ 2 ^ 31 ≤ v then [laterW sh 2 1 19 0 16] else []) :=
  congrArg (_ ++ ·) (sticky_iff sh 16 31 _)

theorem cmac_re (conj : Bool) (p q : Int) : (if conj then p + q else p - q) = p - (if conj then -1 else 1) * q := by
  cases conj <;> simp

theorem cmac_im (conj : Bool) (p q : Int) : (if conj then p - q else q + p) = p + (if conj then -1 else 1) * q := by
  cases conj
  · simp [Int.add_comm]
  · simp [Int.sub_eq_add_neg]

/-- Settles O28. The instruction joins the next bundle; and with NOP in slot C and nothing else, its writes and stores are what the bundle
leaves. -/
theorem slotsGiven : Obligations.SlotsGiven := by
  unfold Obligations.SlotsGiven
  refine ⟨fun h s hlive hi => ?given, fun h s hb => ?issued⟩
  case given =>
    intro give giveX
    have M : ∀ m1 op, s.run (slotM h.val m1 op) = give m1 op := slotM_gives hlive hi
    have X : ∀ op, s.run (slotX h.val op) = giveX op := slotX_gives hlive hi
    exact ⟨fun m1 f e => ⟨M _ _, M _ _, M _ _, M _ _, M _ _, M _ _, M _ _, M _ _, M _ _⟩, fun m1 d f w inc e => M _ _,
      fun m1 l p z e => ⟨M _ _, M _ _⟩, fun m1 v t lane inc => M _ _, fun m1 k j cls imm => M _ _, fun m1 d k dir => M _ _,
      fun m1 k cls imm => M _ _, M _ _, M _ _, X _, fun pair acc neg conj zx zy => X _, fun a acc neg x y => X _,
      fun a a' na na' acc x y u v => X _, fun d a sh z => X _, fun a x => X _⟩
  case issued =>
    intro sh hpc after writes
    refine ⟨fun m1 op hop hother hx hok => ?slotM, fun hm0 hm1 hok => ?slotX⟩
    case slotM =>
      intro rank post at' inSet mem loads stores
      have B : Leaves h.val s.blk sh s.blk.mem (s.blk.begun h.val) := Leaves.begun h.val s.blk
      -- an instruction that stores nothing
      have L : ∀ l, (∀ b c, execStore h.val rank sh op b c = c) →
          execLoad h.val rank sh op (s.blk.begun h.val) (s.blk.begun h.val) = addFlights h.val l (s.blk.begun h.val) → writes l := by
        intro l hst hld
        exact slotM_alone hb hpc hop hother hx hok (hld ▸ B.addFlights l) fun b3 h3 => (hst _ b3).symm ▸ h3
      have R : ∀ f k l, sh.xfers = [] → inSet f k.size → op = .load k f .clean →
          loadWrites sh rank k f.d.toNat (Memory.bytes s.blk.mem (at' f) k.size) = l → writes (post f k.size ++ l) := by
        rintro f k _ hxf hin hk rfl
        refine L _ (fun b c => by rw [hk]; rfl) ?_
        have hld := doLoad_private (h := h.val) (rank := rank) (b0 := s.blk.begun h.val) (b := s.blk.begun h.val) hin
          ((congrArg Shuttle.xfers B.self).trans hxf)
        rw [postFlight_toList, B.mem] at hld
        rw [hk]
        exact hld
      have S : ∀ f k, inSet f k.size → op = .store k f .clean → stores f k.size (storeBytes sh k f.d.toNat) := by
        intro f k hin hk
        refine slotM_alone hb hpc hop hother hx hok (x1 := sh) ?_ fun b3 h3 => ?_
        · rw [hk]
          exact B
        · have hst := doStore_private (h := h.val) (rank := rank) (b0 := s.blk.begun h.val) (b := b3) (sh := sh) hin
          rw [postFlight_toList, h3.mem] at hst
          rw [hk]
          show Leaves h.val s.blk _ _ (doStore h.val rank sh k f .clean (s.blk.begun h.val) b3)
          rw [hst]
          exact (h3.setMem _).addFlights _
      refine ⟨fun f hxf hin hk => R f .word _ hxf hin hk (loadWrites_word ..),
        fun f hxf hin hk => R f .half _ hxf hin hk (loadWrites_half ..),
        fun f hxf hin hk => R f .halfU _ hxf hin hk (loadWrites_halfU ..),
        fun f hxf hin hk => R f .byte _ hxf hin hk (loadWrites_byte ..),
        fun f hxf hin hk => R f .pair _ hxf hin hk (loadWrites_pair ..), fun f hin hk => S f .word hin hk,
        fun f hin hk => S f .half hin hk, fun f hin hk => S f .byte hin hk, fun f hin hk => S f .pair hin hk,
        fun k j cls imm hk => ?padd, fun d k dir hk => ?pmov, fun k cls imm hk => ?pli⟩
      all_goals
        refine L _ (fun b c => by rw [hk]; rfl) ?_
        rw [hk]
        rfl
    case slotX =>
      intro sum
      have W : ∀ op l, sh.x = op → execX sh op = l → writes l := by
        rintro op _ hop rfl
        subst hop
        exact slotX_alone hb hpc hm0 hm1 hok
      refine ⟨fun a acc neg x y hk => W _ _ hk (accumulate_eq ..), fun a b na nb acc x y u v hk => W _ _ hk ?two,
        fun pair acc neg conj zx zy hk => W _ _ hk ?complex, fun d a k hk => W _ _ hk (extract_eq ..), fun a x hk => W _ _ hk rfl⟩
      case two => exact congr (congrArg (· ++ ·) (accumulate_eq ..)) (accumulate_eq ..)
      case complex =>
        unfold execX
        dsimp only
        rw [cmac_re, cmac_im]
        refine congr (congrArg (· ++ ·) (accumulate_eq ..)) ?_
        cases pair <;> exact accumulate_eq ..

end Sys2Proof.Machine

namespace Sys2Proof.Machine

/-! ### The mailbox commands (R399–R404, R447) -/

theorem mbTaken_served {b : Block} {m : MbCmd} {lo hi : Nat} (hmb : b.sys.mb = some m) (hc : m.claimed = true) (hup : b.sys.mpDown = false)
    (hop : lo ≤ m.op ∧ m.op ≤ hi) : mbTaken b lo hi = some m := by
  unfold mbTaken
  rw [hmb, hup]
  simp [hc, hop]

section
variable {s : State} {op : Nat} {m : MbCmd} (hs : s.serves op m)
include hs

theorem serves_taken {lo hi : Nat} (hop : lo ≤ op ∧ op ≤ hi) : mbTaken s.blk lo hi = some m := by
  obtain ⟨hmb, hc, rfl, -, hup, -⟩ := hs
  exact mbTaken_served hmb hc hup hop

/-- A command that the firmware serves ends with what its work answers. -/
theorem mbExec_serves (hlen : m.len ≤ 131008) {lo hi : Nat} (hop : lo ≤ op ∧ op ≤ hi) (repair : Bool) (f : Block → Nat × List Byte × Block) :
    mbExec lo hi repair f s.blk = mbFinish (f s.blk).1 (f s.blk).2.1 (f s.blk).2.2 := by
  have ht := serves_taken hs hop
  obtain ⟨hmb, hc, rfl, hcan, hup, hrec⟩ := hs
  unfold mbExec
  rw [ht]
  dsimp only
  rw [hrec, hcan, if_neg (by simp), if_neg Bool.false_ne_true, if_neg (by omega)]

theorem mbBadOpcode_serves (hlen : m.len ≤ 131008) (hop : op ≤ 65535) (hk : mbKnown op = false) : mbBadOpcode s.blk = mbFinish 3 [] s.blk := by
  have ht := serves_taken hs (lo := 0) (hi := 65535) ⟨Nat.zero_le _, hop⟩
  have he := mbExec_serves hs hlen (lo := 0) (hi := 65535) ⟨Nat.zero_le _, hop⟩ false fun a => (3, [], a)
  obtain ⟨-, -, rfl, -⟩ := hs
  unfold mbBadOpcode
  rw [ht]
  dsimp only
  rw [hk, if_neg Bool.false_ne_true, he]

/-- A container that may be applied waits for the next pick boundary (R403). -/
theorem mbPatch_serves (hlen : m.len ≤ 131008) (hop : op = 0x40) {secs : FMap (List Byte)} (hst : patchStatus (mbPayload s.blk 0 m.len) s.blk = 0)
    (hok : patchOk (mbPayload s.blk 0 m.len) s.blk = some secs) : mbPatch s.blk = setSys (fun x => { x with patch := some ⟨secs⟩ }) s.blk := by
  have ht := serves_taken hs (lo := 0x40) (hi := 0x40) (by omega)
  obtain ⟨hmb, hc, -, hcan, hup, hrec⟩ := hs
  unfold mbPatch
  rw [ht]
  dsimp only
  rw [hrec, hcan, if_neg Bool.false_ne_true, if_neg Bool.false_ne_true, if_neg (by omega), hst, hok]
  rfl

end

theorem patchOk_of_status {img : List Byte} {b : Block} (h : patchStatus img b = 0) : ∃ secs, patchOk img b = some secs := by
  unfold patchStatus at h
  split at h
  · cases h
  · cases h
  · cases h
  · split at h
    next hs => exact Option.isSome_iff_exists.mp hs
    next => cases h

/-- A cancel of any command but SAMPLE_LOAD and FLASH_PROGRAM ends it without a result (R402). -/
theorem mbSafePoint_plain {m : MbCmd} {b : Block} (work : Nat) (hmb : b.sys.mb = some m) (hc : m.claimed = true) (hcan : m.cancel = true)
    (hup : b.sys.mpDown = false) (hop : m.op ≤ 65535) (h10 : m.op ≠ 0x10) (h51 : m.op ≠ 0x51) :
    mbSafePoint work b = mbFinish 2 [] (setSys (fun x => { x with patch := none }) b) := by
  unfold mbSafePoint
  rw [mbTaken_served hmb hc hup ⟨Nat.zero_le _, hop⟩]
  dsimp only
  rw [hcan, if_neg (by decide), if_neg (fun h => h10 h.2), if_neg h51, if_neg h10]
  dsimp only
  unfold mbCancelled
  rw [if_neg (fun h => h.elim h51 h10)]

/-! #### The completion of a command -/

/-- The registers that a completion moves. -/
def mbRegs : List Nat := [XCH_MB_STAT, XCH_IRQ_STAT, CVO_STAT]

/-- What a completion leaves of a block as its command's work left it. -/
structure MbKeeps (c : Block) (result : List Byte) (t : Block) : Prop where
  alc : t.alc = c.alc
  dlr : t.dlr = c.dlr
  sec : t.sec = c.sec
  flash : t.sys.flash = c.sys.flash
  resetDue : t.sys.resetDue = c.sys.resetDue
  get : ∀ f : Fld, f.addr ∉ mbRegs → t.get f = c.get f
  num : ∀ a, a ∉ mbRegs → t.num a = c.num a
  mem : result.length ≤ 2 ^ 31 → ∀ a, 0x100000000 ≤ a → Memory.byte t.mem a = Memory.byte c.mem a

theorem mbStamped_moves (m : MbCmd) (b : Block) : RegsMoved mbRegs b (mbStamped m b) :=
  ((((RegsMoved.put b _ _ (by decide)).trans (.put _ _ _ (by decide))).trans (.put _ _ _ (by decide))).trans (.put _ _ _ (by decide))).trans
    (.put _ _ _ (by decide))

theorem mbStamped_irq (m : MbCmd) (b : Block) : (mbStamped m b).get XCH_IRQ_STAT_ready = 1 := by
  unfold mbStamped
  rw [Block.get_put _ rfl]
  rfl

theorem length_resultBlock (m : MbCmd) (status : Nat) (result : List Byte) : (resultBlock m status result).length = 64 + result.length := by
  simp only [resultBlock, List.length_append, length_leBytes, List.length_replicate]

theorem num_of_resultBlock (mem : List Host.Cell) (a k n v : Nat) (m : MbCmd) (status : Nat) (result : List Byte) (hk : k + n ≤ 64)
    (hat : ((resultBlock m status result).drop k).take n = leBytes n v) :
    Memory.num (Memory.setBytes mem a (resultBlock m status result)) (a + k) n = v % 256 ^ n := by
  have hlen : k + n ≤ (resultBlock m status result).length := by
    rw [length_resultBlock]
    omega
  rw [Memory.num, Memory.bytes_setBytes_at mem a hlen, hat, leNat_leBytes]

theorem byte_of_resultBlock (mem : List Host.Cell) (a i : Nat) (m : MbCmd) (status : Nat) (result : List Byte) (hi : i < result.length) :
    Memory.byte (Memory.setBytes mem a (resultBlock m status result)) (a + 64 + i) = result.getD i 0 := by
  have hlen : (leBytes 2 m.seq ++ leBytes 2 m.op ++ leBytes 2 status ++ leBytes 2 0 ++ leBytes 4 result.length ++
      List.replicate 52 (0 : Byte)).length = 64 := by simp only [List.length_append, length_leBytes, List.length_replicate]
  have hoff : a + 64 + i - a = 64 + i := by omega
  rw [Memory.byte_setBytes, length_resultBlock, if_pos (by omega), hoff]
  unfold resultBlock
  rw [List.getD_eq_getElem?_getD, List.getElem?_append_right (by omega), ← List.getD_eq_getElem?_getD, hlen, Nat.add_sub_cancel_left]

/-- The completion of a command whose work left the block as `c` (R399, R400). -/
theorem mbFinish_done {s : State} {m : MbCmd} (hlive : s.live) {g : Block → Block} {status : Nat} {result : List Byte} {c : Block}
    (hg : g s.blk = mbFinish status result c) (hmb : c.sys.mb = some m) (hq : c.quiet)
    (hslot : c.get XCH_MB_STAT_slot = s.blk.get XCH_MB_STAT_slot)
    (hmem : ∀ x, x < 0x100000000 → Memory.byte c.mem x = Memory.byte s.blk.mem x) (hst : status < 65536) :
    ∃ t, s.run g = .next t ∧ s.mbDone m status result t ∧ MbKeeps c result t.blk := by
  have hform : (mbEnded m status result c).mem =
      Memory.setBytes c.mem (mbResultBase (1 - s.blk.get XCH_MB_STAT_slot)) (resultBlock m status result) := by
    rw [← hslot]
    simp [mbEnded, mbStamped, setMb]
  have hmoves := mbStamped_moves m (setMb none { c with
    mem := Memory.setBytes c.mem (mbResultBase (1 - c.get XCH_MB_STAT_slot)) (resultBlock m status result) })
  have hsys : (mbEnded m status result c).sys = { c.sys with mb := none } := hmoves.field Block.sys fun _ _ => rfl
  have hq' : (mbEnded m status result c).quiet := by
    unfold Block.quiet at *
    rw [hsys]
    exact hq
  have hlt : 1 - s.blk.get XCH_MB_STAT_slot ≤ 1 := by omega
  obtain ⟨hbusy, hready, hseq, hslot'⟩ := mbEnded_gets m status result c
  rw [hslot, Nat.mod_eq_of_lt (by omega)] at hslot'
  rw [mbFinish_of hmb] at hg
  have hcvo : ∀ {a : Nat}, a ∉ mbRegs → a ≠ CVO_STAT := by
    rintro a ha rfl
    exact ha (by decide)
  refine ⟨_, run_ends hlive hg, ⟨?_, ?_, ?_, ?_, ?_, ?_, ?_, ?_, ?_, ?_, fun i hi => ?_, fun x hx hx' => ?_⟩,
    ⟨?_, ?_, ?_, ?_, ?_, fun f hf => ?_, fun a ha => ?_, fun hlen a ha => ?_⟩⟩
  case refine_1 => exact (finish_sys 0 hq' Sys.mb fun _ _ _ _ => rfl).trans (congrArg Sys.mb hsys)
  case refine_2 => exact (finish_get 0 hq' (by decide)).trans hbusy
  case refine_3 => exact (finish_get 0 hq' (by decide)).trans hready
  case refine_4 => exact (finish_get 0 hq' (by decide)).trans hslot'
  case refine_5 => exact (finish_get 0 hq' (by decide)).trans hseq
  case refine_6 => exact (finish_get 0 hq' (by decide)).trans (mbStamped_irq m _)
  case refine_7 =>
    rw [finish_mem 0 hq', hform]
    exact num_of_resultBlock _ _ 0 2 m.seq m status result (by decide) rfl
  case refine_8 =>
    rw [finish_mem 0 hq', hform]
    exact num_of_resultBlock _ _ 2 2 m.op m status result (by decide) rfl
  case refine_9 =>
    rw [finish_mem 0 hq', hform, num_of_resultBlock _ _ 4 2 status m status result (by decide) rfl]
    exact Nat.mod_eq_of_lt hst
  case refine_10 =>
    rw [finish_mem 0 hq', hform]
    exact num_of_resultBlock _ _ 8 4 result.length m status result (by decide) rfl
  case refine_11 =>
    rw [finish_mem 0 hq', hform]
    exact byte_of_resultBlock _ _ i m status result hi
  case refine_12 =>
    rw [finish_mem 0 hq', hform, Memory.byte_setBytes, length_resultBlock, if_neg (by omega)]
    exact hmem x hx'
  case refine_13 => exact (finish_alc 0 hq').trans (hmoves.field Block.alc fun _ _ => rfl)
  case refine_14 => exact (finish_dlr 0 hq').trans (hmoves.field Block.dlr fun _ _ => rfl)
  case refine_15 => exact (finish_sec 0 hq').trans (hmoves.field Block.sec fun _ _ => rfl)
  case refine_16 => exact (finish_sys 0 hq' Sys.flash fun _ _ _ _ => rfl).trans (by rw [hsys])
  case refine_17 => exact (finish_sys 0 hq' Sys.resetDue fun _ _ _ _ => rfl).trans (by rw [hsys])
  case refine_18 => exact (finish_get 0 hq' (hcvo hf)).trans (hmoves.get hf)
  case refine_19 => exact (finish_num 0 hq' (hcvo ha)).trans (hmoves.num ha)
  case refine_20 =>
    have hbase : mbResultBase (1 - s.blk.get XCH_MB_STAT_slot) ≤ 0x103F0000 := by
      unfold mbResultBase
      omega
    rw [finish_mem 0 hq', hform, Memory.byte_setBytes, length_resultBlock, if_neg (by omega)]

end Sys2Proof.Machine

namespace Sys2Proof.Machine

/-! #### The payload (R399) -/

/-- The chip SRAM holds its bytes where the map has them. -/
theorem memByte_chip {b : Block} {a : Nat} (hlo : 0x10000000 ≤ a) (hhi : a < 0x10400000) : memByte b a = Memory.byte b.mem a := by
  have hr : region b a = .chip (a - 0x10000000) := by
    unfold region
    rw [if_neg (by omega), if_neg (by omega), if_pos ⟨hlo, hhi⟩]
  have hcell : (Region.chip (a - 0x10000000)).cell a = a := by
    show 0x10000000 + (a - 0x10000000) = a
    omega
  unfold memByte
  rw [hr]
  dsimp only
  rw [hcell]

theorem mbPayload_eq (b : Block) {o n : Nat} (h : o + n ≤ 131008) : mbPayload b o n = Memory.bytes b.mem (0x103C0040 + o) n := by
  unfold mbPayload memBytes Memory.bytes mbCommandBase
  refine List.map_congr_left fun i hi => ?_
  have hlt := List.mem_range.mp hi
  exact memByte_chip (by omega) (by omega)

theorem mbArg_eq (b : Block) {o n : Nat} (h : o + n ≤ 131008) : mbArg b o n = Memory.num b.mem (0x103C0040 + o) n :=
  congrArg leNat (mbPayload_eq b h)

theorem length_bytes (m : List Host.Cell) (a n : Nat) : (Memory.bytes m a n).length = n := by simp [Memory.bytes]

theorem length_flatMap_const {α β : Type} (l : List α) (f : α → List β) (n : Nat) (h : ∀ x ∈ l, (f x).length = n) :
    (l.flatMap f).length = l.length * n := by
  induction l with
  | nil => exact (Nat.zero_mul n).symm
  | cons x l ih =>
    rw [List.flatMap_cons, List.length_append, ih fun y hy => h y (List.mem_cons_of_mem _ hy), h x List.mem_cons_self, List.length_cons,
      Nat.succ_mul, Nat.add_comm]

/-! #### What each command answers -/

theorem queryAnswer_length {b : Block} {q i : Nat} {l : List Nat} (h : queryAnswer b q i = some l) : l.length = 4 := by
  unfold queryAnswer at h
  split at h
  · split at h
    · cases h
    · dsimp only at h
      split at h <;> (cases h; rfl)
  · split at h
    · cases h
    · cases h
      rfl
  · split at h
    · cases h
    · cases h
      rfl
  · cases h

/-- SAMPLE_LOAD from the payload (R402). -/
theorem loadSome_payload {b : Block} {len : Nat} (hsrc : mbArg b 8 1 = 0) (hprot : ∀ k, protectedAt b k = false)
    (hlo : b.get SYS_DRAM_FREE_units * 65536 ≤ mbArg b 0 8) (hhi : mbArg b 0 8 + mbArg b 0xC 4 ≤ dramSize b)
    (hlen : 0x18 + mbArg b 0xC 4 ≤ len) : loadSome len none b =
      (0, leBytes 4 (mbPayload b 0x18 (mbArg b 0xC 4)).length,
        { b with mem := Memory.setBytes b.mem (0x100000000 + mbArg b 0 8) (mbPayload b 0x18 (mbArg b 0xC 4)) }) := by
  have hplan : loadPlan b len = (0, mbArg b 0 8, mbPayload b 0x18 (mbArg b 0xC 4)) := by
    unfold loadPlan
    dsimp only
    rw [hsrc, if_neg (by decide), if_neg (by simp [hprot]), if_neg (by omega), if_neg (by decide), if_pos hlen]
  unfold loadSome
  rw [hplan]
  rfl

theorem mbQuery_some {b : Block} {q : Nat} {l : List Nat} (h : queryAnswer b q (mbArg b 0 2) = some l) : mbQuery q b = (0, packs 4 l, b) := by
  unfold mbQuery
  rw [h]

theorem mbQuery_none {b : Block} {q : Nat} (h : queryAnswer b q (mbArg b 0 2) = none) : mbQuery q b = (4, [], b) := by
  unfold mbQuery
  rw [h]

/-! #### The flash -/

theorem FMap.get_setAll {α : Type} [DecidableEq α] (d : Nat → α) (f : Nat → α) (o n : Nat) (m : FMap α) (a : Nat) :
    FMap.get d (FMap.setAll d m ((List.range n).map fun i => (o + i, f i))) a = if o ≤ a ∧ a < o + n then f (a - o) else FMap.get d m a := by
  unfold FMap.setAll
  induction n with
  | zero => exact (if_neg (by omega)).symm
  | succ n ih =>
    rw [List.range_succ, List.map_append, List.foldl_append]
    show FMap.get d (FMap.set d _ (o + n) (f n)) a = _
    rw [FMap.get_set]
    by_cases ha : a = o + n
    · subst ha
      rw [if_pos rfl, if_pos (by omega), Nat.add_sub_cancel_left]
    · rw [if_neg ha, ih]
      by_cases hin : o ≤ a ∧ a < o + n
      · rw [if_pos hin, if_pos (by omega)]
      · rw [if_neg hin, if_neg (by omega)]

/-- A byte of the flash after bytes are written from an offset. -/
theorem flashWrite_byte (o : Nat) (l : List Byte) (b : Block) (a : Nat) : FMap.get (fun _ => 0xFF) (flashWrite o l b).sys.flash a =
    if o ≤ a ∧ a < o + l.length then l.getD (a - o) 0 else FMap.get (fun _ => 0xFF) b.sys.flash a :=
  FMap.get_setAll (fun _ => 0xFF) (fun i => l.getD i 0) o l.length b.sys.flash a

/-- One sector of FLASH_PROGRAM, when nothing fails (R402). -/
theorem flashSome_sector {b : Block} {len : Nat} (hboot : flashBoot b = true) (hal : mbArg b 0 4 % 4096 = 0)
    (hsize : mbArg b 0 4 + mbArg b 4 4 ≤ b.sys.flashSize) (hlen : 8 + mbArg b 4 4 ≤ len) (h1 : mbArg b 4 4 ≤ 4096) (h0 : 0 < mbArg b 4 4) :
    flashSome len none none b = (0, leBytes 4 (mbArg b 4 4), flashSector (mbArg b 0 4) 0 (mbPayload b 8 (mbArg b 4 4)) b) := by
  have hsec : ceilDiv (mbArg b 4 4) 4096 = 1 := by
    unfold ceilDiv
    omega
  have hone : min (ceilDiv (mbArg b 4 4) 4096) ((none : Option Nat).getD (ceilDiv (mbArg b 4 4) 4096)) = 1 := by
    rw [hsec]
    rfl
  have hgo : (!flashBoot b || mbArg b 0 4 % 4096 != 0 || decide (b.sys.flashSize < mbArg b 0 4 + mbArg b 4 4) ||
      decide (len < 8 + mbArg b 4 4)) = false := by
    rw [hboot, hal, decide_eq_false (by omega), decide_eq_false (by omega)]
    rfl
  unfold flashSome
  dsimp only
  rw [hgo, if_neg Bool.false_ne_true, hone, if_neg (by decide), if_neg (by decide), Nat.min_eq_left (by omega)]
  rfl

/-- The flash after one sector is programmed: the bytes, and 0xFF for the rest of the sector. -/
theorem flashSector_byte {o n : Nat} {l : List Byte} (hl : l.length = n) (hn : n ≤ 4096) (b : Block) (a : Nat) :
    FMap.get (fun _ => 0xFF) (flashSector o 0 l b).sys.flash a =
      if o ≤ a ∧ a < o + n then l.getD (a - o) 0 else if o ≤ a ∧ a < o + 4096 then 0xFF else FMap.get (fun _ => 0xFF) b.sys.flash a := by
  have hpart : (l.drop (4096 * 0)).take 4096 = l := by
    rw [Nat.mul_zero, List.drop_zero]
    exact List.take_of_length_le (by omega)
  unfold flashSector
  dsimp only
  rw [hpart, flashWrite_byte, List.length_append, List.length_replicate, hl, Nat.mul_zero, Nat.add_zero]
  by_cases hin : o ≤ a ∧ a < o + n
  · rw [if_pos (by omega), if_pos hin, List.getD_eq_getElem?_getD, List.getElem?_append_left (by omega), ← List.getD_eq_getElem?_getD]
  · rw [if_neg hin]
    by_cases hsec : o ≤ a ∧ a < o + 4096
    · rw [if_pos (by omega), if_pos hsec, List.getD_eq_getElem?_getD, List.getElem?_append_right (by omega),
        List.getElem?_replicate_of_lt (by omega), Option.getD_some]
    · rw [if_neg (by omega), if_neg hsec]

end Sys2Proof.Machine

namespace Sys2Proof.Machine

/-! #### Unlocking by the mailbox (R441, R447) -/

/-- A nonce's four words are drawn, and nothing else of the machine moves. -/
def nonceDrawn (b : Block) : Block :=
  ((((setSec (fun s => { s with nonce := true, drawn := s.drawn + 4 }) b).setNum (SEC_NONCE 0) (Config.trngWord (b.sec.drawn + 0)).toNat).setNum
    (SEC_NONCE 1) (Config.trngWord (b.sec.drawn + 1)).toNat).setNum (SEC_NONCE 2) (Config.trngWord (b.sec.drawn + 2)).toNat).setNum
    (SEC_NONCE 3) (Config.trngWord (b.sec.drawn + 3)).toNat

theorem challenge_draws {b : Block} (h : ¬ b.on SEC_STAT_trng_fail = true) : challenge b = nonceDrawn b := (if_neg h).trans rfl

theorem nonceDrawn_moves (b : Block) :
    RegsMoved nonceRegs (setSec (fun s => { s with nonce := true, drawn := s.drawn + 4 }) b) (nonceDrawn b) :=
  (((RegsMoved.wr _ _ _ (by decide)).trans (.wr _ _ _ (by decide))).trans (.wr _ _ _ (by decide))).trans (.wr _ _ _ (by decide))

theorem nonceDrawn_num (b : Block) : ∀ k, k < 4 → (nonceDrawn b).num (SEC_NONCE k) = (Config.trngWord (b.sec.drawn + k)).toNat := by
  have hword : ∀ (c : Block) (a : Nat) (w : Word), (c.setNum a w.toNat).num a = w.toNat := fun c a w =>
    Block.num_setNum c a (Nat.lt_trans w.isLt (by decide))
  intro k hk
  unfold nonceDrawn
  match k with
  | 0 => simp (disch := decide) only [Block.num_setNum_ne, hword]
  | 1 => simp (disch := decide) only [Block.num_setNum_ne, hword]
  | 2 => simp (disch := decide) only [Block.num_setNum_ne, hword]
  | 3 => simp only [hword]
  | k + 4 => omega

theorem flatMap_of_eq {α β : Type} {l : List α} {f g : α → List β} (h : ∀ x ∈ l, f x = g x) : l.flatMap f = l.flatMap g := by
  rw [List.flatMap_def, List.flatMap_def, List.map_congr_left h]

theorem nonceDrawn_bytes (b : Block) :
    nonceBytes (nonceDrawn b) = (List.range 4).flatMap fun k => leBytes 4 (Config.trngWord (b.sec.drawn + k)).toNat := by
  unfold nonceBytes
  refine flatMap_of_eq fun k hk => ?_
  rw [nonceDrawn_num b k (List.mem_range.mp hk)]

theorem leBytes_leNat (l : List Byte) : leBytes l.length (leNat l) = l := by
  induction l with
  | nil => rfl
  | cons x l ih =>
    have hx := x.isLt
    have hdiv : (x.toNat + 256 * leNat l) / 256 = leNat l := by omega
    have hmod : BitVec.ofNat 8 (x.toNat + 256 * leNat l) = x := by
      apply BitVec.eq_of_toNat_eq
      rw [BitVec.toNat_ofNat]
      omega
    show BitVec.ofNat 8 (x.toNat + 256 * leNat l) :: leBytes l.length ((x.toNat + 256 * leNat l) / 256) = x :: l
    rw [hdiv, hmod, ih]

theorem leNat_lt (l : List Byte) : leNat l < 256 ^ l.length := by
  induction l with
  | nil => exact Nat.one_pos
  | cons x l ih =>
    have hx := x.isLt
    show x.toNat + 256 * leNat l < 256 ^ (l.length + 1)
    rw [Nat.pow_succ']
    omega

/-- The registers that a mailbox response is written to. -/
def respRegs : List Nat := SEC_UNLK :: (List.range 8).map SEC_RESP

/-- The response and the scope of an UNLOCK_RESPONSE, as they reach the registers. -/
def responseGiven (b : Block) : Block :=
  (List.range 8).foldl (fun acc n => acc.setNum (SEC_RESP n) (mbArg b (4 + 4 * n) 4)) (b.put SEC_UNLK_scope (mbArg b 0 1 % 8))

theorem responseWords_moves (b c : Block) : RegsMoved ((List.range 8).map SEC_RESP) c
    ((List.range 8).foldl (fun acc n => acc.setNum (SEC_RESP n) (mbArg b (4 + 4 * n) 4)) c) :=
  RegsMoved.foldl (fun _ hn c => RegsMoved.wr c _ _ (List.mem_map_of_mem hn)) c

theorem responseGiven_moves (b : Block) : RegsMoved respRegs b (responseGiven b) :=
  (RegsMoved.put b _ _ List.mem_cons_self).trans
    (RegsMoved.foldl (fun _ hn c => RegsMoved.wr c _ _ (List.mem_cons_of_mem _ (List.mem_map_of_mem hn))) _)

theorem responseGiven_scope (b : Block) : (responseGiven b).get SEC_UNLK_scope = mbArg b 0 1 % 8 := by
  refine ((responseWords_moves b _).get (by decide)).trans ?_
  rw [Block.get_put _ rfl]
  exact Nat.mod_mod _ _

theorem responseGiven_num (b : Block) : ∀ n, n < 8 → (responseGiven b).num (SEC_RESP n) = mbArg b (4 + 4 * n) 4 := by
  have hword : ∀ (c : Block) (a o : Nat), (c.setNum a (mbArg b o 4)).num a = mbArg b o 4 := by
    intro c a o
    have h := leNat_lt (mbPayload b o 4)
    rw [show (mbPayload b o 4).length = 4 by simp [mbPayload, memBytes]] at h
    exact Block.num_setNum c a (Nat.lt_trans h (by decide))
  intro n hn
  unfold responseGiven
  rw [show List.range 8 = [0, 1, 2, 3, 4, 5, 6, 7] by decide]
  simp only [List.foldl_cons, List.foldl_nil]
  match n with
  | 0 | 1 | 2 | 3 | 4 | 5 | 6 => simp (disch := decide) only [Block.num_setNum_ne, hword]
  | 7 => simp only [hword]
  | n + 8 => omega

theorem responseGiven_bytes (b : Block) : responseBytes (responseGiven b) = (List.range 32).map fun i => Memory.byte b.mem (0x103C0044 + i) := by
  have hword : ∀ n, n < 8 → leBytes 4 ((responseGiven b).num (SEC_RESP n)) = Memory.bytes b.mem (0x103C0044 + 4 * n) 4 := by
    intro n hn
    have hl := leBytes_leNat (mbPayload b (4 + 4 * n) 4)
    rw [show (mbPayload b (4 + 4 * n) 4).length = 4 by simp [mbPayload, memBytes]] at hl
    rw [responseGiven_num b n hn]
    refine hl.trans ((mbPayload_eq b (by omega)).trans ?_)
    congr 1
    omega
  unfold responseBytes
  rw [flatMap_of_eq fun n hn => hword n (List.mem_range.mp hn)]
  rfl

end Sys2Proof.Machine

namespace Sys2Proof.Machine

/-! #### The answers -/

/-- A command whose work takes the length of its payload. -/
theorem mbExec_serves_len {s : State} {op : Nat} {m : MbCmd} (hs : s.serves op m) (hlen : m.len ≤ 131008) {lo hi : Nat} (hop : lo ≤ op ∧ op ≤ hi)
    (repair : Bool) (f : Nat → Block → Nat × List Byte × Block) {status : Nat} {result : List Byte} {c : Block}
    (hf : f m.len s.blk = (status, result, c)) :
    mbExec lo hi repair (f ((mbTaken s.blk lo hi).elim 0 (·.len))) s.blk = mbFinish status result c := by
  rw [mbExec_serves hs hlen hop, serves_taken hs hop]
  dsimp only [Option.elim]
  rw [hf]

theorem mbExec_serves_eq {s : State} {op : Nat} {m : MbCmd} (hs : s.serves op m) (hlen : m.len ≤ 131008) {lo hi : Nat} (hop : lo ≤ op ∧ op ≤ hi)
    (repair : Bool) {f : Block → Nat × List Byte × Block} {status : Nat} {result : List Byte} {c : Block}
    (hf : f s.blk = (status, result, c)) : mbExec lo hi repair f s.blk = mbFinish status result c := by
  rw [mbExec_serves hs hlen hop, hf]

/-- What a restart of the window of the maxima leaves as it is. -/
structure WindowRestarted (b c : Block) : Prop where
  picks : c.dlr.stats.picks = 0
  maxDepth : c.dlr.stats.maxDepth = []
  cards : c.dlr.cards = b.dlr.cards
  alc : c.alc = b.alc
  sys : c.sys = b.sys
  mem : c.mem = b.mem
  get : ∀ f, c.get f = b.get f

theorem restartWindow_restarted (b : Block) : WindowRestarted b (restartWindow b) := ⟨rfl, rfl, rfl, rfl, rfl, rfl, fun _ => rfl⟩

theorem flashSector_form (o k : Nat) (l : List Byte) (b : Block) : ∃ x, flashSector o k l b = { b with sys := { b.sys with flash := x } } :=
  ⟨_, rfl⟩

section
variable {s : State} {op : Nat} {m : MbCmd} (hlive : s.live) (hq : s.blk.quiet) (hs : s.serves op m) (hlen : m.len ≤ 131008)
include hlive hq hs

/-- A command that only reads completes, and leaves the engine as it is. -/
theorem mb_answers {g : Block → Block} {status : Nat} {result : List Byte} (hg : g s.blk = mbFinish status result s.blk)
    (hst : status < 65536) (hr : result.length ≤ 2 ^ 31) : ∃ t, s.run g = .next t ∧ s.mbDone m status result t ∧
      (t.blk.alc = s.blk.alc ∧ t.blk.dlr = s.blk.dlr ∧ t.blk.sys.flash = s.blk.sys.flash ∧
        ∀ a, 0x100000000 ≤ a → Memory.byte t.blk.mem a = Memory.byte s.blk.mem a) := by
  obtain ⟨t, ht, hdone, hk⟩ := mbFinish_done hlive hg hs.1 hq rfl (fun _ _ => rfl) hst
  exact ⟨t, ht, hdone, hk.alc, hk.dlr, hk.flash, hk.mem hr⟩

include hlen

theorem exec_sampleLoad_done (hop : op = 0x10) (hsrc : Memory.num s.blk.mem (0x103C0040 + 8) 1 = 0) (hprot : ∀ k, protectedAt s.blk k = false)
    (hlo : s.blk.get SYS_DRAM_FREE_units * 65536 ≤ Memory.num s.blk.mem (0x103C0040 + 0) 8)
    (hhi : Memory.num s.blk.mem (0x103C0040 + 0) 8 + Memory.num s.blk.mem (0x103C0040 + 0xC) 4 ≤ dramSize s.blk)
    (hin : 0x18 + Memory.num s.blk.mem (0x103C0040 + 0xC) 4 ≤ m.len) : ∃ t, exec .sampleLoad s = .next t ∧
      s.mbDone m 0 (leBytes 4 (Memory.num s.blk.mem (0x103C0040 + 0xC) 4)) t ∧ t.blk.alc = s.blk.alc ∧
      ∀ a, 0x100000000 ≤ a → Memory.byte t.blk.mem a =
        if 0x100000000 + Memory.num s.blk.mem (0x103C0040 + 0) 8 ≤ a ∧
            a < 0x100000000 + Memory.num s.blk.mem (0x103C0040 + 0) 8 + Memory.num s.blk.mem (0x103C0040 + 0xC) 4 then
          Memory.byte s.blk.mem (0x103C0058 + (a - (0x100000000 + Memory.num s.blk.mem (0x103C0040 + 0) 8)))
        else Memory.byte s.blk.mem a := by
  have hl := loadSome_payload (b := s.blk) (len := m.len) (by rw [mbArg_eq _ (by decide), hsrc]) hprot
    (by rw [mbArg_eq _ (by decide)]; exact hlo) (by rw [mbArg_eq _ (by decide), mbArg_eq _ (by decide)]; exact hhi)
    (by rw [mbArg_eq _ (by decide)]; exact hin)
  rw [mbArg_eq _ (by decide), mbArg_eq _ (by decide), mbPayload_eq _ (by omega), length_bytes] at hl
  obtain ⟨t, ht, hdone, hk⟩ := mbFinish_done (g := fun b => mbExec 0x10 0x10 false (loadSome ((mbTaken b 0x10 0x10).elim 0 (·.len)) none) b)
    hlive (mbExec_serves_len hs hlen (by omega) false (fun n => loadSome n none) hl) hs.1 hq rfl
    (fun x hx => by rw [Memory.byte_setBytes, if_neg (by omega)]) (by decide)
  refine ⟨t, ht, hdone, hk.alc, fun a ha => ?_⟩
  rw [hk.mem (by rw [length_leBytes]; decide) a ha, Memory.byte_setBytes, length_bytes]
  generalize Memory.num s.blk.mem (0x103C0040 + 0) 8 = o
  generalize Memory.num s.blk.mem (0x103C0040 + 0xC) 4 = n
  split
  next hx =>
    have hi : a - (0x100000000 + o) < n := by omega
    rw [← List.getElem_eq_getD (h := by rw [length_bytes]; exact hi)]
    simp [Memory.bytes]
  next => rfl

theorem exec_statsSnapshot_done (hop : op = 0x30) : ∃ t, exec .statsSnapshot s = .next t ∧
    s.mbDone m 0 (snapImage ((s.blk.get DLR_SNAP_STAT_seq + 1) % 65536) s.blk) t ∧
    t.blk.get DLR_SNAP_STAT_seq = (s.blk.get DLR_SNAP_STAT_seq + 1) % 65536 ∧ t.blk.dlr.stats.picks = 0 ∧ t.blk.dlr.stats.maxDepth = [] ∧
    t.blk.dlr.cards = s.blk.dlr.cards ∧ t.blk.alc = s.blk.alc := by
  have hw := restartWindow_restarted s.blk
  have hf : mbSnapshot s.blk = (0, snapImage ((s.blk.get DLR_SNAP_STAT_seq + 1) % 65536) s.blk,
      (restartWindow s.blk).put DLR_SNAP_STAT_seq ((s.blk.get DLR_SNAP_STAT_seq + 1) % 65536)) := rfl
  generalize restartWindow s.blk = w at hw hf
  have hsys : (w.put DLR_SNAP_STAT_seq ((s.blk.get DLR_SNAP_STAT_seq + 1) % 65536)).sys = s.blk.sys := (Block.put_sys _ _ _).trans hw.sys
  obtain ⟨t, ht, hdone, hk⟩ := mbFinish_done (g := mbExec 0x30 0x30 false mbSnapshot) hlive
    (mbExec_serves_eq hs hlen (by omega) false hf) ((congrArg Sys.mb hsys).trans hs.1) (Block.quiet_of_sys hsys hq)
    ((Block.get_put_ne _ _ (by decide)).trans (hw.get _)) (fun x _ => congrArg (Memory.byte · x) ((Block.put_mem _ _ _).trans hw.mem)) (by decide)
  have hdlr : t.blk.dlr = w.dlr := hk.dlr.trans (Block.put_dlr _ _ _)
  refine ⟨t, ht, hdone, ?_, hdlr ▸ hw.picks, hdlr ▸ hw.maxDepth, hdlr ▸ hw.cards, (hk.alc.trans (Block.put_alc _ _ _)).trans hw.alc⟩
  refine (hk.get _ (by decide)).trans ?_
  refine (Block.get_put _ rfl _).trans ?_
  exact Nat.mod_mod _ _

theorem exec_flashProgram_done (hop : op = 0x51) (hboot : s.blk.get SYS_STAT_bootsel ≤ 1)
    (hal : Memory.num s.blk.mem (0x103C0040 + 0) 4 % 4096 = 0)
    (hsize : Memory.num s.blk.mem (0x103C0040 + 0) 4 + Memory.num s.blk.mem (0x103C0040 + 4) 4 ≤ s.blk.sys.flashSize)
    (hin : 8 + Memory.num s.blk.mem (0x103C0040 + 4) 4 ≤ m.len) (h1 : Memory.num s.blk.mem (0x103C0040 + 4) 4 ≤ 4096)
    (h0 : 0 < Memory.num s.blk.mem (0x103C0040 + 4) 4) : ∃ t, exec (.flashProgram none) s = .next t ∧
      s.mbDone m 0 (leBytes 4 (Memory.num s.blk.mem (0x103C0040 + 4) 4)) t ∧ t.blk.alc = s.blk.alc ∧
      ∀ a, FMap.get (fun _ => 0xFF) t.blk.sys.flash a =
        if Memory.num s.blk.mem (0x103C0040 + 0) 4 ≤ a ∧ a < Memory.num s.blk.mem (0x103C0040 + 0) 4 + Memory.num s.blk.mem (0x103C0040 + 4) 4 then
          Memory.byte s.blk.mem (0x103C0048 + (a - Memory.num s.blk.mem (0x103C0040 + 0) 4))
        else if Memory.num s.blk.mem (0x103C0040 + 0) 4 ≤ a ∧ a < Memory.num s.blk.mem (0x103C0040 + 0) 4 + 4096 then 0xFF
        else FMap.get (fun _ => 0xFF) s.blk.sys.flash a := by
  have ho : mbArg s.blk 0 4 = Memory.num s.blk.mem (0x103C0040 + 0) 4 := mbArg_eq _ (by decide)
  have hn : mbArg s.blk 4 4 = Memory.num s.blk.mem (0x103C0040 + 4) 4 := mbArg_eq _ (by decide)
  have hl := flashSome_sector (b := s.blk) (len := m.len) (decide_eq_true hboot) (by rw [ho]; exact hal) (by rw [ho, hn]; exact hsize)
    (by rw [hn]; exact hin) (by rw [hn]; exact h1) (by rw [hn]; exact h0)
  rw [ho, hn, mbPayload_eq _ (by omega)] at hl
  have hbytes := flashSector_byte (o := Memory.num s.blk.mem (0x103C0040 + 0) 4)
    (length_bytes s.blk.mem (0x103C0040 + 8) (Memory.num s.blk.mem (0x103C0040 + 4) 4)) h1 s.blk
  obtain ⟨x, hx⟩ := flashSector_form (Memory.num s.blk.mem (0x103C0040 + 0) 4) 0
    (Memory.bytes s.blk.mem (0x103C0040 + 8) (Memory.num s.blk.mem (0x103C0040 + 4) 4)) s.blk
  rw [hx] at hl hbytes
  obtain ⟨t, ht, hdone, hk⟩ := mbFinish_done
    (g := fun b => mbExec 0x51 0x51 true (flashSome ((mbTaken b 0x51 0x51).elim 0 (·.len)) none none) b)
    hlive (mbExec_serves_len hs hlen (by omega) true (fun n => flashSome n none none) hl) hs.1 hq rfl (fun _ _ => rfl) (by decide)
  refine ⟨t, ht, hdone, hk.alc, fun a => ?_⟩
  rw [hk.flash, hbytes]
  generalize Memory.num s.blk.mem (0x103C0040 + 0) 4 = o
  generalize Memory.num s.blk.mem (0x103C0040 + 4) 4 = n
  split
  next hx =>
    have hi : a - o < n := by omega
    rw [← List.getElem_eq_getD (h := by rw [length_bytes]; exact hi)]
    simp [Memory.bytes]
  next => rfl

end

end Sys2Proof.Machine

namespace Sys2Proof.Machine

/-- What a challenge leaves: the nonce, and everything else but the registers of the unlock. -/
structure Challenged (b c : Block) : Prop where
  sec : c.sec = { b.sec with nonce := true, drawn := b.sec.drawn + 4 }
  num : ∀ k, k < 4 → c.num (SEC_NONCE k) = (Config.trngWord (b.sec.drawn + k)).toNat
  bytes : nonceBytes c = (List.range 4).flatMap fun k => leBytes 4 (Config.trngWord (b.sec.drawn + k)).toNat
  get : ∀ f : Fld, f.addr ∉ SEC_UNLK :: nonceRegs → c.get f = b.get f
  alc : c.alc = b.alc
  sys : c.sys = b.sys
  mem : c.mem = b.mem

theorem challenge_challenged {b : Block} (v : Nat) (h : ¬ b.on SEC_STAT_trng_fail = true) :
    Challenged b (challenge (b.put SEC_UNLK_scope v)) := by
  have hon : (b.put SEC_UNLK_scope v).on SEC_STAT_trng_fail = b.on SEC_STAT_trng_fail :=
    congrArg (· != 0) (Block.get_put_ne b (f := SEC_UNLK_scope) (g := SEC_STAT_trng_fail) v (by decide))
  rw [challenge_draws (by rw [hon]; exact h)]
  have hget : ∀ f : Fld, f.addr ≠ SEC_UNLK → (b.put SEC_UNLK_scope v).get f = b.get f := fun f hf => Block.get_put_ne b v hf
  have hsec := Block.put_sec b SEC_UNLK_scope v
  have halc := Block.put_alc b SEC_UNLK_scope v
  have hsys := Block.put_sys b SEC_UNLK_scope v
  have hmem := Block.put_mem b SEC_UNLK_scope v
  generalize b.put SEC_UNLK_scope v = d at hget hsec halc hsys hmem ⊢
  have hm := nonceDrawn_moves d
  refine ⟨hsec ▸ hm.field Block.sec fun _ _ => rfl, hsec ▸ nonceDrawn_num d, hsec ▸ nonceDrawn_bytes d, fun f hf => ?_,
    (hm.field Block.alc fun _ _ => rfl).trans halc, (hm.field Block.sys fun _ _ => rfl).trans hsys,
    (hm.field Block.mem fun _ _ => rfl).trans hmem⟩
  obtain ⟨h1, h2⟩ := List.ne_and_not_mem_of_not_mem_cons hf
  exact (hm.get h2).trans (hget f h1)

/-- What a response leaves that is given with method 2: its scopes are open, or it is refused and the lockout runs. -/
structure Responded (b : Block) (right : Bool) (c : Block) : Prop where
  result : c.get SEC_UNLK_result = if right then 1 else 2
  opn : c.get SEC_STAT_opn = if right then b.get SEC_STAT_opn ||| mbArg b 0 1 % 8 else b.get SEC_STAT_opn
  fails : right = false → c.sec.fails = b.sec.fails + 1 ∧ c.sec.lockout = true
  slot : c.get XCH_MB_STAT_slot = b.get XCH_MB_STAT_slot
  alc : c.alc = b.alc
  sys : c.sys = b.sys
  mem : c.mem = b.mem

theorem submitUnlock_responded {b : Block} (hmethod : b.get SEC_STAT_method = 2) (hlock : b.sec.lockout = false) (hfails : b.sec.fails < 16) :
    Responded b (((List.range 32).map fun i => Memory.byte b.mem (0x103C0044 + i)) ==
      (b.sec.fuses.password ++ List.replicate 16 0).take 16 ++ List.replicate 16 0) (submitUnlock (responseGiven b)) := by
  have hg := responseGiven_moves b
  have hbytes := responseGiven_bytes b
  have hscope := responseGiven_scope b
  have hsec : (responseGiven b).sec = b.sec := hg.field Block.sec fun _ _ => rfl
  have hsys : (responseGiven b).sys = b.sys := hg.field Block.sys fun _ _ => rfl
  have halc : (responseGiven b).alc = b.alc := hg.field Block.alc fun _ _ => rfl
  have hmem : (responseGiven b).mem = b.mem := hg.field Block.mem fun _ _ => rfl
  have hm2 : (responseGiven b).get SEC_STAT_method = 2 := (hg.get (by decide)).trans hmethod
  have hopn : (responseGiven b).get SEC_STAT_opn = b.get SEC_STAT_opn := hg.get (by decide)
  have hslot : (responseGiven b).get XCH_MB_STAT_slot = b.get XCH_MB_STAT_slot := hg.get (by decide)
  generalize responseGiven b = d at hbytes hscope hsec hsys halc hmem hm2 hopn hslot ⊢
  have hright : responseMatches d = (((List.range 32).map fun i => Memory.byte b.mem (0x103C0044 + i)) ==
      (b.sec.fuses.password ++ List.replicate 16 0).take 16 ++ List.replicate 16 0) := by
    unfold responseMatches
    rw [hm2, if_neg (by decide), hbytes, hsec]
  rw [← hright, submitUnlock_examined (by rw [hsec]; exact hlock) (by rw [hsec]; exact hfails) (.inr hm2), hm2]
  show Responded b (responseMatches d) (if responseMatches d = true then openScopes d else refuseResponse d)
  cases responseMatches d with
  | true =>
    obtain ⟨hres, hop, -, -⟩ := openScopes_gets d
    have ho := openScopes_moves d
    rw [if_pos rfl]
    refine ⟨hres, ?_, nofun, (ho.get (by decide)).trans hslot, (ho.field Block.alc fun _ _ => rfl).trans halc,
      (ho.field Block.sys fun _ _ => rfl).trans hsys, (ho.field Block.mem fun _ _ => rfl).trans hmem⟩
    rw [hop, hopn, hscope]
    rfl
  | false =>
    obtain ⟨hres, hop, -, -⟩ := refuseResponse_gets d
    have ho := refuseResponse_moves d
    rw [if_neg Bool.false_ne_true]
    refine ⟨hres, hop.trans hopn, fun _ => ?_, (ho.get (by decide)).trans hslot, (ho.field Block.alc fun _ _ => rfl).trans halc,
      (ho.field Block.sys fun _ _ => rfl).trans hsys, (ho.field Block.mem fun _ _ => rfl).trans hmem⟩
    have hs : (refuseResponse d).sec = (refusedOnce d).sec := ho.field Block.sec fun _ _ => rfl
    rw [hs]
    refine ⟨?_, rfl⟩
    show min 16 (d.sec.fails + 1) = b.sec.fails + 1
    rw [hsec]
    omega

section
variable {s : State} {op : Nat} {m : MbCmd} (hlive : s.live) (hq : s.blk.quiet) (hs : s.serves op m) (hlen : m.len ≤ 131008)
include hlive hq hs hlen

theorem exec_unlockChallenge_done (hop : op = 0x60) (hmethod : s.blk.get SEC_STAT_method ≠ 0) (htrng : ¬ s.blk.on SEC_STAT_trng_fail = true) :
    ∃ t, exec .unlockChallenge s = .next t ∧ s.mbDone m 0 (((List.range 4).flatMap fun k =>
        leBytes 4 (Config.trngWord (s.blk.sec.drawn + k)).toNat) ++ leBytes 8 s.blk.sec.serial ++ leBytes 1 (s.blk.get SEC_STAT_method) ++
          leBytes 7 0) t ∧ t.blk.sec.nonce = true ∧ t.blk.sec.drawn = s.blk.sec.drawn + 4 ∧
      (∀ k, k < 4 → t.blk.num (SEC_NONCE k) = (Config.trngWord (s.blk.sec.drawn + k)).toNat) ∧ t.blk.alc = s.blk.alc := by
  have hc := challenge_challenged (mbArg s.blk 0 1 % 8) htrng
  have hf : mbChallenge s.blk = (0, nonceBytes (challenge (s.blk.put SEC_UNLK_scope (mbArg s.blk 0 1 % 8))) ++
      leBytes 8 (challenge (s.blk.put SEC_UNLK_scope (mbArg s.blk 0 1 % 8))).sec.serial ++
      leBytes 1 ((challenge (s.blk.put SEC_UNLK_scope (mbArg s.blk 0 1 % 8))).get SEC_STAT_method) ++ leBytes 7 0,
      challenge (s.blk.put SEC_UNLK_scope (mbArg s.blk 0 1 % 8))) := by
    unfold mbChallenge
    dsimp only
    rw [if_neg]
    rintro (h | h)
    · exact hmethod h
    · exact h (by rw [hc.sec])
  generalize challenge (s.blk.put SEC_UNLK_scope (mbArg s.blk 0 1 % 8)) = c at hc hf
  rw [hc.bytes, hc.get SEC_STAT_method (by decide), hc.sec] at hf
  obtain ⟨t, ht, hdone, hk⟩ := mbFinish_done (g := mbExec 0x60 0x60 true mbChallenge) hlive
    (mbExec_serves_eq hs hlen (by omega) true hf) ((congrArg Sys.mb hc.sys).trans hs.1) (Block.quiet_of_sys hc.sys hq) (hc.get _ (by decide))
    (fun x _ => congrArg (Memory.byte · x) hc.mem) (by decide)
  have hsec := hk.sec.trans hc.sec
  have hnonce : ∀ k, k < 4 → SEC_NONCE k ∉ mbRegs := by decide
  exact ⟨t, ht, hdone, by rw [hsec], by rw [hsec], fun k hk' => (hk.num _ (hnonce k hk')).trans (hc.num k hk'), hk.alc.trans hc.alc⟩

theorem exec_unlockResponse_done (hop : op = 0x61) (hmethod : s.blk.get SEC_STAT_method = 2) (hlock : s.blk.sec.lockout = false)
    (hfails : s.blk.sec.fails < 16) (right : Bool)
    (hright : (((List.range 32).map fun i => Memory.byte s.blk.mem (0x103C0044 + i)) ==
      (s.blk.sec.fuses.password ++ List.replicate 16 0).take 16 ++ List.replicate 16 0) = right) :
    (right = true → ∃ t, exec .unlockResponse s = .next t ∧
      s.mbDone m 0 (leBytes 1 (s.blk.get SEC_STAT_opn ||| (Memory.num s.blk.mem (0x103C0040 + 0) 1 % 8)) ++ leBytes 3 0) t ∧
      t.blk.get SEC_STAT_opn = s.blk.get SEC_STAT_opn ||| (Memory.num s.blk.mem (0x103C0040 + 0) 1 % 8) ∧ t.blk.alc = s.blk.alc) ∧
    (right = false → ∃ t, exec .unlockResponse s = .next t ∧ s.mbDone m 5 [] t ∧ t.blk.get SEC_STAT_opn = s.blk.get SEC_STAT_opn ∧
      t.blk.sec.fails = s.blk.sec.fails + 1 ∧ t.blk.sec.lockout = true ∧ t.blk.alc = s.blk.alc) := by
  have hc := submitUnlock_responded hmethod hlock hfails
  rw [hright] at hc
  have hf : mbResponse s.blk = if (submitUnlock (responseGiven s.blk)).get SEC_UNLK_result = 1 then
      (0, leBytes 1 ((submitUnlock (responseGiven s.blk)).get SEC_STAT_opn) ++ leBytes 3 0, submitUnlock (responseGiven s.blk))
      else (5, [], submitUnlock (responseGiven s.blk)) := rfl
  generalize submitUnlock (responseGiven s.blk) = c at hc hf
  have hscope : mbArg s.blk 0 1 = Memory.num s.blk.mem (0x103C0040 + 0) 1 := mbArg_eq _ (by decide)
  have hdone := fun {status result} (hr : mbResponse s.blk = (status, result, c)) (hst : status < 65536) =>
    mbFinish_done (g := mbExec 0x61 0x61 true mbResponse) hlive (mbExec_serves_eq hs hlen (by omega) true hr)
      ((congrArg Sys.mb hc.sys).trans hs.1) (Block.quiet_of_sys hc.sys hq) hc.slot (fun x _ => congrArg (Memory.byte · x) hc.mem) hst
  refine ⟨?_, ?_⟩
  · rintro rfl
    have hopn := hc.opn
    rw [if_pos rfl, hscope] at hopn
    have hres : c.get SEC_UNLK_result = 1 := hc.result
    rw [if_pos hres, hopn] at hf
    obtain ⟨t, ht, hd, hk⟩ := hdone hf (by decide)
    exact ⟨t, ht, hd, (hk.get _ (by decide)).trans hopn, hk.alc.trans hc.alc⟩
  · rintro rfl
    rw [if_neg (by rw [hc.result]; decide)] at hf
    obtain ⟨t, ht, hd, hk⟩ := hdone hf (by decide)
    obtain ⟨h1, h2⟩ := hc.fails rfl
    exact ⟨t, ht, hd, (hk.get _ (by decide)).trans hc.opn, (congrArg Sec.fails hk.sec).trans h1, (congrArg Sec.lockout hk.sec).trans h2,
      hk.alc.trans hc.alc⟩

end

end Sys2Proof.Machine

namespace Sys2Proof.Machine

theorem length_regBytes (b : Block) (n a : Nat) : (regBytes b n a).length = n := length_leBytes n _

theorem length_weftStatus (b : Block) : (mbWeftStatus b).2.1.length ≤ 2 ^ 31 := by
  have hn := get_lt b WFT_NODE_n
  have hl := length_flatMap_const (List.range (b.get WFT_NODE_n))
    (fun i => regBytes b 8 (WFT_NT_SER i) ++ regBytes b 4 (WFT_NT_HOP i) ++ regBytes b 4 (WFT_NT_DROOT i)) 16
    fun i _ => by simp only [List.length_append, length_regBytes]
  unfold mbWeftStatus
  dsimp only
  rw [List.length_append, hl, List.length_append, length_regBytes, length_regBytes, List.length_range]
  have hw : WFT_NODE_n.width = 11 := rfl
  rw [hw] at hn
  omega

theorem length_selftest (b : Block) : (mbSelftest b).2.1.length ≤ 2 ^ 31 := by
  have hl := length_flatMap_const (List.range 5) (fun k => regBytes b 4 (REL_RETIRE k)) 4 fun k _ => length_regBytes ..
  unfold mbSelftest
  simp only [List.length_append, length_leBytes, length_regBytes, hl, List.length_range]
  decide

/-- Settles O59: each command's work is said once, and its completion is `mbFinish_done`. -/
theorem mailboxAnswers : Obligations.MailboxAnswers := by
  unfold Obligations.MailboxAnswers
  refine ⟨fun op m s hlive hs hlen => ?ends, fun op m s hlive hq hs hlen => ?answers,
    fun m work s hlive hmb hc hcan hup hop h10 h51 => run_live_congr hlive (mbSafePoint_plain work hmb hc hcan hup hop h10 h51),
    fun s hlive hdue => run_live_congr hlive (if_pos hdue)⟩
  case ends =>
    intro ends
    have E : ∀ {lo hi : Nat} (repair : Bool) (f : Block → Nat × List Byte × Block), lo ≤ op ∧ op ≤ hi →
        s.run (mbExec lo hi repair f) = ends f := fun repair f hop => run_live_congr hlive (mbExec_serves hs hlen hop repair f)
    have EL : ∀ {lo hi : Nat} (repair : Bool) (f : Nat → Block → Nat × List Byte × Block), lo ≤ op ∧ op ≤ hi →
        s.run (fun b => mbExec lo hi repair (f ((mbTaken b lo hi).elim 0 (·.len))) b) = ends (f m.len) :=
      fun repair f hop => run_live_congr hlive (mbExec_serves_len hs hlen hop repair f rfl)
    refine ⟨fun h => E true mbPing (by omega), fun h => E false mbSelftest (by omega), fun h => E false mbWeftStatus (by omega),
      fun h => EL false (fun n => loadSome n none) (by omega), fun h => E false (mbQuery 0) (by omega), fun h => E false (mbQuery 1) (by omega),
      fun h => E false (mbQuery 2) (by omega), fun h => E false mbSnapshot (by omega), fun h hst => ?patch, fun h => E true mbFlashRead (by omega),
      fun h fail => EL true (fun n => flashSome n none fail) (by omega), fun h => E true mbChallenge (by omega),
      fun h => E true mbResponse (by omega), fun h => E true mbReset (by omega),
      fun hop hk => run_live_congr hlive (mbBadOpcode_serves hs hlen hop hk)⟩
    case patch =>
      obtain ⟨secs, hok⟩ := patchOk_of_status hst
      exact ⟨secs, hok, run_live_congr hlive (mbPatch_serves hs hlen h hst hok)⟩
  case answers =>
    intro b ends same reg arg
    have A : ∀ {g : Block → Block} {status : Nat} {result : List Byte}, g s.blk = mbFinish status result s.blk → status < 65536 →
        result.length ≤ 2 ^ 31 → ∃ t, s.run g = .next t ∧ s.mbDone m status result t ∧ same t := mb_answers hlive hq hs
    refine ⟨fun h => ?selftest, fun h => ?weft, fun h hsrc hprot hlo hhi hin => exec_sampleLoad_done hlive hq hs hlen h hsrc hprot hlo hhi hin,
      fun q c hqc => ?query, fun h => exec_statsSnapshot_done hlive hq hs hlen h, fun hboot => ⟨fun h hn hsize => ?flashRead,
      fun h hal hsize hin h1 h0 => exec_flashProgram_done hlive hq hs hlen h hboot hal hsize hin h1 h0⟩,
      fun h hmethod htrng => exec_unlockChallenge_done hlive hq hs hlen h hmethod htrng,
      fun h hmethod hlock hfails => ?response, fun h => ?reset,
      fun hop hk => A (g := mbBadOpcode) (mbBadOpcode_serves hs hlen hop hk) (by decide) (by decide)⟩
    case selftest => exact A (mbExec_serves hs hlen (by omega) false mbSelftest) (by decide) (length_selftest b)
    case weft => exact A (mbExec_serves hs hlen (by omega) false mbWeftStatus) (by decide) (length_weftStatus b)
    case query =>
      have harg : mbArg s.blk 0 2 = arg 0 2 := mbArg_eq _ (by decide)
      have key : ∀ {lo : Nat}, op = lo → (∀ l, queryAnswer b q (arg 0 2) = some l →
          ∃ t, s.run (mbExec lo lo false (mbQuery q)) = .next t ∧ s.mbDone m 0 (l.flatMap (leBytes 4)) t ∧ same t) ∧
          (queryAnswer b q (arg 0 2) = none → ∃ t, s.run (mbExec lo lo false (mbQuery q)) = .next t ∧ s.mbDone m 4 [] t ∧ same t) := by
        rintro lo rfl
        rw [← harg]
        refine ⟨fun l hl => A (mbExec_serves_eq hs hlen (by omega) false (mbQuery_some hl)) (by decide) ?_,
          fun hn => A (mbExec_serves_eq hs hlen (by omega) false (mbQuery_none hn)) (by decide) (by decide)⟩
        rw [length_flatMap_const l (leBytes 4) 4 fun x _ => length_leBytes 4 x, queryAnswer_length hl]
        decide
      obtain ⟨h, rfl, rfl⟩ | ⟨h, rfl, rfl⟩ | ⟨h, rfl, rfl⟩ := hqc
      · exact key h
      · exact key h
      · exact key h
    case flashRead =>
      have ho : mbArg s.blk 0 4 = arg 0 4 := mbArg_eq _ (by decide)
      have hn' : mbArg s.blk 4 4 = arg 4 4 := mbArg_eq _ (by decide)
      have hf : mbFlashRead s.blk = (0, flashBytes s.blk (arg 0 4) (arg 4 4), s.blk) := by
        unfold mbFlashRead
        dsimp only
        rw [ho, hn', if_pos ⟨decide_eq_true hboot, hn, hsize⟩]
      refine A (mbExec_serves_eq hs hlen (by omega) true hf) (by decide) ?_
      simp only [flashBytes, List.length_map, List.length_range]
      omega
    case response =>
      exact exec_unlockResponse_done hlive hq hs hlen h hmethod hlock hfails _ rfl
    case reset =>
      obtain ⟨t, ht, hdone, hk⟩ := mbFinish_done (g := mbExec 0x70 0x70 true mbReset) hlive
        (mbExec_serves_eq hs hlen (by omega) true (f := mbReset) rfl) hs.1 hq rfl (fun _ _ => rfl) (by decide)
      exact ⟨t, ht, hdone, hk.resetDue, hk.alc, hk.dlr, hk.flash, hk.mem (by decide)⟩

end Sys2Proof.Machine

namespace Sys2Proof.Machine

/-! ### Released events (R55–R58, R105, R115–R141, R203, R261, R297) -/

section
variable (b : Block) (v : Nat) (x : Voice)

@[simp] theorem Block.voice_setVoice_same : (b.setVoice v x).voice v = x := FMap.get_set_same _ _ _ _

theorem Block.voice_setVoice_ne {u : Nat} (h : u ≠ v) : (b.setVoice v x).voice u = b.voice u := FMap.get_set_ne _ _ _ h

theorem Block.voice_setVoice (u : Nat) : (b.setVoice v x).voice u = if u = v then x else b.voice u := FMap.get_set _ _ _ _ _

@[simp] theorem Block.part_setVoice (p : Nat) : (b.setVoice v x).part p = b.part p := rfl
@[simp] theorem Block.note_setVoice (k : Nat) : (b.setVoice v x).note k = b.note k := rfl

end

section
variable (b : Block) (k : Nat) (x : Option Note)

@[simp] theorem Block.note_setNote_same : (b.setNote k x).note k = x := FMap.get_set_same _ _ _ _

theorem Block.note_setNote_ne {j : Nat} (h : j ≠ k) : (b.setNote k x).note j = b.note j := FMap.get_set_ne _ _ _ h

@[simp] theorem Block.voice_setNote (v : Nat) : (b.setNote k x).voice v = b.voice v := rfl
@[simp] theorem Block.part_setNote (p : Nat) : (b.setNote k x).part p = b.part p := rfl

end

/-- What follows a released event's effect: the state is as its effect left the block, but for CVO_STAT and the MSI-X bookkeeping. -/
structure After (c : Block) (t : State) : Prop where
  mem : t.blk.mem = c.mem
  efe : t.blk.efe = c.efe
  alc : t.blk.alc = c.alc
  dlr : t.blk.dlr = c.dlr
  mix : t.blk.mix = c.mix
  cvo : t.blk.cvo = c.cvo
  rd : ∀ a, a ≠ CVO_STAT → t.blk.rd a = c.rd a

section
variable {c : Block} {t : State} (h : After c t)
include h

theorem After.voice (v : Nat) : t.blk.voice v = c.voice v := congrArg (fun a : Alloc => FMap.get (fun _ => ({} : Voice)) a.voices v) h.alc
theorem After.part (p : Nat) : t.blk.part p = c.part p := congrArg (fun a : Alloc => FMap.get (fun _ => ({} : Part)) a.parts p) h.alc
theorem After.note (k : Nat) : t.blk.note k = c.note k := congrArg (fun a : Alloc => FMap.get (fun _ => none) a.notes k) h.alc

end

/-- A released event acts: its effect on the block without it leaves `c`. -/
theorem released_acts {s : State} {op : Nat} {x : Timed} {rest : List Timed} {f : Timed → Block → Block} {c : Block} (hlive : s.live)
    (hq : s.blk.quiet) (hfront : s.front op x rest) (hf : f x (s.blk.popped rest) = c) (hsys : c.sys = s.blk.sys)
    (hefe : c.efe = { s.blk.efe with released := rest, units := c.efe.units }) {F : State → Prop} (hF : ∀ t, After c t → F t) :
    ∃ t, s.run (onReleased op f) = .next t ∧ t.blk.efe = { s.blk.efe with released := rest, units := t.blk.efe.units } ∧ F t := by
  have hq' : c.quiet := Block.quiet_of_sys hsys hq
  have ha : After c { s with blk := finish 0 c } := ⟨finish_mem 0 hq', finish_efe 0 hq', finish_alc 0 hq', finish_dlr 0 hq', finish_mix 0 hq',
    finish_cvo 0 hq', fun _ h => finish_rd 0 hq' h⟩
  refine ⟨_, run_ends hlive ((onReleased_of_front hfront f).trans hf), ?_, hF _ ha⟩
  rw [ha.efe]
  exact hefe

/-! #### Changes of a part (R58, R116, R129, R147) -/

@[simp] theorem part_mirror (p q : Nat) (f : MirrorField) (v : Int) (o : Nat) (b : Block) : (mirror p f v o b).part q = b.part q := rfl
@[simp] theorem voice_mirror (p v : Nat) (f : MirrorField) (w : Int) (o : Nat) (b : Block) : (mirror p f w o b).voice v = b.voice v := rfl
@[simp] theorem note_mirror (p k : Nat) (f : MirrorField) (w : Int) (o : Nat) (b : Block) : (mirror p f w o b).note k = b.note k := rfl

/-- An effect changes one part and mirrors values, and leaves everything else. -/
structure PartWork (b : Block) (p : Nat) (x : Part) (ms : List Mirror) (c : Block) : Prop where
  part : c.part p = x
  others : ∀ q, q ≠ p → c.part q = b.part q
  rest : c = { b with alc := { b.alc with parts := c.alc.parts, mirror := b.alc.mirror ++ ms } }

theorem PartWork.set (b : Block) (p : Nat) (x : Part) : PartWork b p x [] (b.setPart p x) where
  part := Block.part_setPart_same b p x
  others _ hq := Block.part_setPart_ne b p x hq
  rest := by
    rw [List.append_nil]
    rfl

theorem PartWork.setMirror (b : Block) (p : Nat) (x : Part) (f : MirrorField) (v : Int) (o : Nat) :
    PartWork b p x [{ part := p, field := f, value := v, offset := o }] (mirror p f v o (b.setPart p x)) where
  part := Block.part_setPart_same b p x
  others _ hq := Block.part_setPart_ne b p x hq
  rest := rfl

/-- A released event that changes its part. -/
theorem part_acts {s : State} {op : Nat} {x : Timed} {rest : List Timed} {f : Timed → Block → Block} (hlive : s.live) (hq : s.blk.quiet)
    (hfront : s.front op x rest) {p : Nat} {y : Part} {ms : List Mirror} (hw : PartWork (s.blk.popped rest) p y ms (f x (s.blk.popped rest))) :
    ∃ t, s.run (onReleased op f) = .next t ∧ t.blk.efe = { s.blk.efe with released := rest, units := t.blk.efe.units } ∧
      s.partDone p y ms t := by
  have hr := hw.rest
  have hp := hw.part
  have ho := hw.others
  generalize hc : f x (s.blk.popped rest) = c at hr hp ho
  refine released_acts hlive hq hfront hc ((congrArg Block.sys hr).trans rfl) ((congrArg Block.efe hr).trans ?_) fun t ha => ?_
  · rw [show c.efe = (s.blk.popped rest).efe from (congrArg Block.efe hr).trans rfl]
    rfl
  · refine ⟨(ha.part p).trans hp, fun q hq => (ha.part q).trans (ho q hq), ?_, ?_, ?_, fun a h => ?_⟩
    · rw [ha.alc]
      exact (congrArg Block.alc hr).trans rfl
    · exact ha.mem.trans ((congrArg Block.mem hr).trans rfl)
    · exact ha.dlr.trans ((congrArg Block.dlr hr).trans rfl)
    · exact (ha.rd a fun e => h (by rw [e]; exact List.mem_singleton.mpr rfl)).trans ((congrArg (Block.rd · a) hr).trans rfl)

theorem control_sets {x : Timed} {b : Block} (h : x.ev.ext = .none) : control x b = setCtl x.ev.part (x.ev.bits 31 24) (x.ev.bits 23 0) x.offset b := by
  unfold control
  dsimp only
  rw [h]

theorem pedal_eq {x : Timed} (b : Block) : pedal x b = setPedal x.ev.part (x.ev.bits 1 0) (x.ev.bits 31 16) x.offset b := rfl

/-- The sustain pedal moves without going up. -/
theorem setPedal_sustain {p depth o : Nat} {b : Block} (h : ¬ (0x8000 ≤ (b.part p).sustain ∧ depth < 0x8000)) :
    setPedal p 0 depth o b = mirror p .sustain depth o (b.setPart p { b.part p with sustain := depth }) := by
  have hd : ¬ (down (b.part p).sustain && !down depth) = true := by
    intro hd
    obtain ⟨h1, h2⟩ := Bool.and_eq_true_iff.mp hd
    refine h ⟨of_decide_eq_true h1, ?_⟩
    have h3 : ¬ 0x8000 ≤ depth := of_decide_eq_false (Bool.not_eq_true' _ ▸ h2)
    omega
  exact if_neg hd

/-- The sostenuto pedal moves without going down or up. -/
theorem setPedal_sostenuto {p depth o : Nat} {b : Block} (h : 0x8000 ≤ (b.part p).sostenuto ↔ 0x8000 ≤ depth) :
    setPedal p 1 depth o b = mirror p .sostenuto depth o (b.setPart p { b.part p with sostenuto := depth }) := by
  have hd : down (b.part p).sostenuto = down depth := decide_eq_decide.mpr h
  have hdown : ¬ (!down (b.part p).sostenuto && down depth) = true := by
    rw [hd, Bool.not_and_self]
    exact Bool.false_ne_true
  have hup : ¬ (down (b.part p).sostenuto && !down depth) = true := by
    rw [hd, Bool.and_not_self]
    exact Bool.false_ne_true
  exact (if_neg hdown).trans (if_neg hup)

theorem tune_table {x : Timed} {b : Block} (h : x.ev.oflags % 4 = 1) :
    tune x b = b.setPart x.ev.part { b.part x.ev.part with tuning := x.ev.bits 3 0 } := by
  unfold tune
  dsimp only
  rw [if_neg (by omega), if_pos (by omega)]

theorem tune_fine {x : Timed} {b : Block} (h : x.ev.oflags % 4 = 2) : tune x b =
    mirror x.ev.part .fine (BitVec.ofNat 16 (x.ev.bits 31 16)).toInt x.offset
      (b.setPart x.ev.part { b.part x.ev.part with fine := (BitVec.ofNat 16 (x.ev.bits 31 16)).toInt }) := by
  unfold tune
  dsimp only
  have h1 : ¬ x.ev.oflags % 2 = 1 := by omega
  have h2 : x.ev.oflags / 2 % 2 = 1 := by omega
  rw [if_neg h1, if_pos h2]

theorem setPart_setPart (b : Block) (p : Nat) (x y : Part) : ((b.setPart p x).setPart p y).part p = y ∧
    ∀ q, q ≠ p → ((b.setPart p x).setPart p y).part q = b.part q :=
  ⟨Block.part_setPart_same _ p y, fun _ hq => (Block.part_setPart_ne _ p y hq).trans (Block.part_setPart_ne b p x hq)⟩

/-- TUNE with both flags sets the tuning table and the fine tune. -/
theorem tune_both {x : Timed} {b : Block} (h : x.ev.oflags % 4 = 3) :
    let fine := (BitVec.ofNat 16 (x.ev.bits 31 16)).toInt
    PartWork b x.ev.part { b.part x.ev.part with tuning := x.ev.bits 3 0, fine := fine }
      [{ part := x.ev.part, field := .fine, value := fine, offset := x.offset }] (tune x b) := by
  intro fine
  have hp := setPart_setPart b x.ev.part { b.part x.ev.part with tuning := x.ev.bits 3 0 }
    { b.part x.ev.part with tuning := x.ev.bits 3 0, fine := fine }
  have ht : tune x b = mirror x.ev.part .fine fine x.offset ((b.setPart x.ev.part { b.part x.ev.part with tuning := x.ev.bits 3 0 }).setPart
      x.ev.part { b.part x.ev.part with tuning := x.ev.bits 3 0, fine := fine }) := by
    unfold tune
    dsimp only
    rw [if_pos (by omega), if_pos (by omega), Block.part_setPart_same]
  rw [ht]
  exact ⟨hp.1, hp.2, rfl⟩

end Sys2Proof.Machine

namespace Sys2Proof.Machine

/-! ### Notes put into release (R127, R129, R131) -/

/-- An effect stays within the allocator. -/
def AlcOnly (b c : Block) : Prop := c = { b with alc := c.alc }

section
variable {b c : Block}

theorem AlcOnly.refl (b : Block) : AlcOnly b b := rfl

theorem AlcOnly.trans {d : Block} (h : AlcOnly b c) (k : AlcOnly c d) : AlcOnly b d := by
  unfold AlcOnly at *
  rw [k, h]

theorem AlcOnly.setVoice (b : Block) (v : Nat) (x : Voice) : AlcOnly b (b.setVoice v x) := rfl
theorem AlcOnly.setNote (b : Block) (k : Nat) (x : Option Note) : AlcOnly b (b.setNote k x) := rfl
theorem AlcOnly.setPart (b : Block) (p : Nat) (x : Part) : AlcOnly b (b.setPart p x) := rfl
theorem AlcOnly.mirror (p : Nat) (f : MirrorField) (v : Int) (o : Nat) (b : Block) : AlcOnly b (mirror p f v o b) := rfl

variable (h : AlcOnly b c)
include h

theorem AlcOnly.mem : c.mem = b.mem := (congrArg Block.mem h).trans rfl
theorem AlcOnly.efe : c.efe = b.efe := (congrArg Block.efe h).trans rfl
theorem AlcOnly.dlr : c.dlr = b.dlr := (congrArg Block.dlr h).trans rfl
theorem AlcOnly.sys : c.sys = b.sys := (congrArg Block.sys h).trans rfl
theorem AlcOnly.rd (a : Nat) : c.rd a = b.rd a := (congrArg (Block.rd · a) h).trans rfl

/-- What a voice in release would be depends on the voice and the registers alone. -/
theorem AlcOnly.releasedVoice {v : Nat} (hv : c.voice v = b.voice v) (o : Nat) : c.releasedVoice v o = b.releasedVoice v o := by
  unfold Block.releasedVoice
  rw [hv, h]
  rfl

end

/-- The sounding voices of a set are put into release, every other voice stands, and so do the notes and the parts. -/
structure VoicesReleased (b : Block) (o : Nat) (S : Nat → Prop) [DecidablePred S] (c : Block) : Prop where
  only : AlcOnly b c
  notes : c.alc.notes = b.alc.notes
  parts : c.alc.parts = b.alc.parts
  voice : ∀ u, c.voice u = if S u ∧ (b.voice u).st = .sounding then b.releasedVoice u o else b.voice u

theorem voicesReleased_releaseVoice (v vel o : Nat) (b : Block) : VoicesReleased b o (· = v) (releaseVoice v vel o b) := by
  unfold releaseVoice
  dsimp only
  by_cases hs : (b.voice v).st = .sounding
  case pos =>
    rw [if_pos (beq_iff_eq.mpr hs)]
    refine ⟨(AlcOnly.setVoice b v _).trans (AlcOnly.mirror _ _ _ _ _), rfl, rfl, fun u => ?_⟩
    rw [voice_mirror, Block.voice_setVoice]
    by_cases hu : u = v
    case pos =>
      subst hu
      rw [if_pos rfl, if_pos ⟨rfl, hs⟩]
      rfl
    case neg => rw [if_neg hu, if_neg fun e => hu e.1]
  case neg =>
    rw [if_neg fun e => hs (beq_iff_eq.mp e)]
    refine ⟨AlcOnly.refl b, rfl, rfl, fun u => (if_neg ?_).symm⟩
    rintro ⟨rfl, e⟩
    exact hs e

/-- Released one after the other: a voice that is listed twice is already in release the second time. -/
theorem voicesReleased_foldl (vel o : Nat) (l : List (Nat × Voice)) (b : Block) :
    VoicesReleased b o (· ∈ l.map (·.1)) (l.foldl (fun acc kv => releaseVoice kv.1 vel o acc) b) := by
  induction l generalizing b with
  | nil => exact ⟨AlcOnly.refl b, rfl, rfl, fun u => (if_neg fun e => List.not_mem_nil e.1).symm⟩
  | cons kv l ih =>
    have h1 := voicesReleased_releaseVoice kv.1 vel o b
    have h2 := ih (releaseVoice kv.1 vel o b)
    rw [List.foldl_cons]
    generalize releaseVoice kv.1 vel o b = b1 at h1 h2
    generalize l.foldl (fun acc kv => releaseVoice kv.1 vel o acc) b1 = c at h2
    refine ⟨h1.only.trans h2.only, h2.notes.trans h1.notes, h2.parts.trans h1.parts, fun u => ?_⟩
    rw [h2.voice u]
    by_cases hu : u = kv.1 ∧ (b.voice u).st = .sounding
    case pos =>
      have hb : b1.voice u = b.releasedVoice u o := (h1.voice u).trans (if_pos hu)
      rw [hb, if_neg fun e => VState.noConfusion e.2, if_pos ⟨by rw [List.map_cons, hu.1]; exact List.mem_cons_self, hu.2⟩]
    case neg =>
      have hb : b1.voice u = b.voice u := (h1.voice u).trans (if_neg hu)
      rw [hb, h1.only.releasedVoice hb]
      refine ite_of_iff (and_congr_left fun hs => ?_) rfl rfl
      rw [List.map_cons, List.mem_cons]
      exact (or_iff_right fun e => hu ⟨e, hs⟩).symm

/-- Note `k`, which was `nt`, is in release: the block's side of `State.noteEnded`. -/
structure NoteReleased (b : Block) (k : Nat) (nt : Note) (vel o : Nat) (c : Block) : Prop where
  only : AlcOnly b c
  note : c.note k = some { nt with released := true, relVel := vel, sustained := false }
  others : ∀ j, j ≠ k → c.note j = b.note j
  voice : ∀ v, c.voice v =
    if v ∈ (noteVoices b k).map (·.1) ∧ (b.voice v).st = .sounding then b.releasedVoice v o else b.voice v

/-- An effect leaves the voices, and every note but one. -/
structure BeforeRelease (b : Block) (k : Nat) (c : Block) : Prop where
  only : AlcOnly b c
  voices : c.alc.voices = b.alc.voices
  others : ∀ j, j ≠ k → c.note j = b.note j

theorem releaseNote_releases {b0 b : Block} {k : Nat} {nt : Note} (h : BeforeRelease b0 k b) (hk : b.note k = some nt) (o : Nat) :
    NoteReleased b0 k nt nt.relVel o (releaseNote k o b) := by
  have hv (v : Nat) : b.voice v = b0.voice v := congrArg (FMap.get (fun _ => ({} : Voice)) · v) h.voices
  have hn : noteVoices b k = noteVoices b0 k := by
    unfold noteVoices voicesOf
    rw [h.voices]
  unfold releaseNote
  rw [hk]
  dsimp only
  rw [hn]
  have hr := voicesReleased_foldl nt.relVel o (noteVoices b0 k) (b.setNote k (some { nt with sustained := false, released := true }))
  generalize (noteVoices b0 k).foldl (fun acc kv => releaseVoice kv.1 nt.relVel o acc) _ = c at hr
  have hnote (j : Nat) : c.note j = (b.setNote k (some { nt with sustained := false, released := true })).note j :=
    congrArg (FMap.get (fun _ => none) · j) hr.notes
  have ho : AlcOnly b0 (b.setNote k (some { nt with sustained := false, released := true })) := h.only.trans (AlcOnly.setNote b k _)
  refine ⟨ho.trans hr.only, (hnote k).trans (Block.note_setNote_same b k _), fun j hj => ?_, fun v => ?_⟩
  · exact ((hnote j).trans (Block.note_setNote_ne b k _ hj)).trans (h.others j hj)
  · rw [hr.voice v, ho.releasedVoice (hv v)]
    rw [Block.voice_setNote, hv v]

theorem releaseNote_parts (k o : Nat) (b : Block) : (releaseNote k o b).alc.parts = b.alc.parts := by
  unfold releaseNote
  split
  · rfl
  · exact (voicesReleased_foldl _ o _ _).parts

/-- A note that no pedal holds, or that is forced, ends. -/
theorem endNote_releases {b0 b : Block} {k vel o : Nat} {nt : Note} {force : Bool} (h : BeforeRelease b0 k b) (hk : b.note k = some nt)
    (hr : nt.released = false) (hp : pedalHolds b nt = false ∨ force = true) : NoteReleased b0 k nt vel o (endNote k vel o force b) := by
  have hf : ¬ (pedalHolds b nt && !force) = true := by
    rcases hp with hp | hp
    · rw [hp, Bool.false_and]
      exact Bool.false_ne_true
    · rw [hp, Bool.not_true, Bool.and_false]
      exact Bool.false_ne_true
  unfold endNote
  rw [hk]
  dsimp only
  rw [hr, if_neg Bool.false_ne_true, if_neg hf]
  have hend := releaseNote_releases (nt := { nt with released := true, relVel := vel })
    ⟨h.only.trans (AlcOnly.setNote b k _), h.voices, fun j hj => (Block.note_setNote_ne b k _ hj).trans (h.others j hj)⟩
    (Block.note_setNote_same b k _) o
  exact ⟨hend.only, hend.note, hend.others, hend.voice⟩

/-- A pedal keeps the voices of a note that ends. -/
theorem endNote_held {b : Block} {k vel o : Nat} {nt : Note} (hk : b.note k = some nt) (hr : nt.released = false)
    (hp : pedalHolds b nt = true) :
    endNote k vel o false b = b.setNote k (some { nt with released := true, relVel := vel, sustained := true }) := by
  unfold endNote
  rw [hk]
  dsimp only
  rw [hr, if_neg Bool.false_ne_true, hp]
  exact if_pos rfl

/-- A released event that puts a note into release. -/
theorem note_acts {s : State} {op : Nat} {x : Timed} {rest : List Timed} {f : Timed → Block → Block} (hlive : s.live) (hq : s.blk.quiet)
    (hfront : s.front op x rest) {k : Nat} {nt : Note} {vel o : Nat} {F : State → Prop}
    (hr : NoteReleased (s.blk.popped rest) k nt vel o (f x (s.blk.popped rest)))
    (hF : ∀ t, After (f x (s.blk.popped rest)) t → s.noteEnded k nt vel o t → F t) :
    ∃ t, s.run (onReleased op f) = .next t ∧ t.blk.efe = { s.blk.efe with released := rest, units := t.blk.efe.units } ∧ F t := by
  generalize hc : f x (s.blk.popped rest) = c at hr hF
  refine released_acts hlive hq hfront hc hr.only.sys (hr.only.efe.trans ?_) fun t ha => hF t ha ?_
  · rw [hr.only.efe]
    rfl
  · exact ⟨(ha.note k).trans hr.note, fun j hj => (ha.note j).trans (hr.others j hj), fun v => (ha.voice v).trans (hr.voice v),
      ha.mem.trans hr.only.mem, ha.dlr.trans hr.only.dlr,
      fun a h => (ha.rd a fun e => h (by rw [e]; exact List.mem_singleton.mpr rfl)).trans (hr.only.rd a)⟩

/-- A NOTE_OFF of a POLY part goes to the note it finds. -/
theorem noteOff_endNote {x : Timed} {b : Block} {k : Nat} (hk : x.ev.kind ≠ 1) (hm : (b.part x.ev.part).mode = 0)
    (hf : findNote b x.ev.part x.ev.key (x.ev.bits 23 16) = some k) : noteOff x b = endNote k (x.ev.bits 15 0) x.offset false b := by
  unfold noteOff noteOffPart
  rw [if_neg hk]
  dsimp only
  rw [if_neg fun e => e.1 hm, hf]

/-- The sustain pedal goes up on the one note of its part that it kept. -/
theorem setPedal_up {b : Block} {p k depth o : Nat} {nt : Note} (h1 : 0x8000 ≤ (b.part p).sustain) (h2 : depth < 0x8000)
    (hn : partNotes b p = [(k, nt)]) (hs : nt.sustained = true) (hl : nt.latched = false) :
    setPedal p 0 depth o b = releaseNote k o (mirror p .sustain depth o (b.setPart p { b.part p with sustain := depth })) := by
  have hd : (down (b.part p).sustain && !down depth) = true :=
    Bool.and_eq_true_iff.mpr ⟨decide_eq_true h1, by
      rw [show down depth = false from decide_eq_false (by omega)]
      rfl⟩
  have hk : (nt.sustained && !(nt.latched && down (b.part p).sostenuto)) = true := by
    rw [hs, hl]
    rfl
  have hn' : partNotes (mirror p .sustain depth o (b.setPart p { b.part p with sustain := depth })) p = [(k, nt)] := hn
  refine (if_pos hd).trans ?_
  rw [hn', List.foldl_cons, List.foldl_nil]
  exact if_pos hk

/-- ALL_OFF of a part whose one note is neither booked nor fading. -/
theorem allOffPart_one {b : Block} {p k o : Nat} {nt : Note} (force : Bool) (hn : partNotes b p = [(k, nt)]) (hb : nt.booked = false)
    (hf : noteFading b k = false) : allOffPart force o p b =
      (endNote k 0x8000 o force b).setPart p { (endNote k 0x8000 o force b).part p with keys := [] } := by
  unfold allOffPart
  dsimp only
  rw [hn, List.foldl_cons, List.foldl_nil, hf, hb, if_neg (by decide)]

theorem NoteReleased.setPart {b c : Block} {k vel o : Nat} {nt : Note} (h : NoteReleased b k nt vel o c) (p : Nat) (x : Part) :
    NoteReleased b k nt vel o (c.setPart p x) := ⟨h.only.trans (AlcOnly.setPart c p x), h.note, h.others, h.voice⟩

end Sys2Proof.Machine

namespace Sys2Proof.Machine

/-! ### Per-note values and events for one voice (R55–R58, R203) -/

/-- A voice but for its per-note values and what they replaced. -/
def Voice.bare (y : Voice) : Voice := { y with undo := [], pressure := 0, pnBend := 0 }

theorem voice_noteUndo (v p o : Nat) (w : OldValue) (old : Int) (b : Block) (u : Nat) : (noteUndo v p o w old b).voice u =
    if u = v then { b.voice v with undo := keepUndo p (b.voice v).undo ++ [{ pick := p, off := o * b.osr, what := w, old := old }] }
    else b.voice u := Block.voice_setVoice b v _ u

/-- An effect touches voices only in their per-note values. -/
structure PnOnly (b c : Block) : Prop where
  only : AlcOnly b c
  bare : ∀ u, (c.voice u).bare = (b.voice u).bare

theorem PnOnly.trans {b c d : Block} (h : PnOnly b c) (k : PnOnly c d) : PnOnly b d :=
  ⟨h.only.trans k.only, fun u => (k.bare u).trans (h.bare u)⟩

theorem noteUndo_pnOnly (v p o : Nat) (w : OldValue) (old : Int) (b : Block) : PnOnly b (noteUndo v p o w old b) := by
  refine ⟨AlcOnly.setVoice b v _, fun u => ?_⟩
  rw [voice_noteUndo]
  by_cases hu : u = v
  case pos =>
    rw [if_pos hu, hu]
    rfl
  case neg => rw [if_neg hu]

/-- The voices of a set have a pressure, and nothing else of a voice has changed. -/
structure PressureSet (b : Block) (S : Nat → Prop) [DecidablePred S] (val : Nat) (c : Block) : Prop where
  pn : PnOnly b c
  bend : ∀ u, (c.voice u).pnBend = (b.voice u).pnBend
  value : ∀ u, (c.voice u).pressure = if S u then val else (b.voice u).pressure

/-- The voices of a set have a per-note bend, and nothing else of a voice has changed. -/
structure BendSet (b : Block) (S : Nat → Prop) [DecidablePred S] (val : Nat) (c : Block) : Prop where
  pn : PnOnly b c
  pressure : ∀ u, (c.voice u).pressure = (b.voice u).pressure
  value : ∀ u, (c.voice u).pnBend = if S u then val else (b.voice u).pnBend

theorem voice_writePressure (v p o val : Nat) (b : Block) (u : Nat) : (writePressure v p o val b).voice u =
    if u = v then { (noteUndo v p o .pressure (b.voice v).pressure b).voice v with pressure := val } else b.voice u := by
  unfold writePressure
  dsimp only
  rw [Block.voice_setVoice]
  by_cases hu : u = v
  case pos => rw [if_pos hu, if_pos hu]
  case neg => rw [if_neg hu, if_neg hu, voice_noteUndo, if_neg hu]

theorem voice_writePnBend (v p o val : Nat) (b : Block) (u : Nat) : (writePnBend v p o val b).voice u =
    if u = v then { (noteUndo v p o .pnBend (b.voice v).pnBend b).voice v with pnBend := val } else b.voice u := by
  unfold writePnBend
  dsimp only
  rw [Block.voice_setVoice]
  by_cases hu : u = v
  case pos => rw [if_pos hu, if_pos hu]
  case neg => rw [if_neg hu, if_neg hu, voice_noteUndo, if_neg hu]

theorem writePressure_sets (v p o val : Nat) (b : Block) : PressureSet b (· = v) val (writePressure v p o val b) := by
  refine ⟨⟨(AlcOnly.setVoice b v _).trans (AlcOnly.setVoice _ v _), fun u => ?_⟩, fun u => ?_, fun u => ?_⟩ <;>
    rw [voice_writePressure] <;> by_cases hu : u = v
  · rw [if_pos hu, voice_noteUndo, if_pos rfl, hu]
    rfl
  · rw [if_neg hu]
  · rw [if_pos hu, voice_noteUndo, if_pos rfl, hu]
  · rw [if_neg hu]
  · rw [if_pos hu, if_pos hu]
  · rw [if_neg hu, if_neg hu]

theorem writePnBend_sets (v p o val : Nat) (b : Block) : BendSet b (· = v) val (writePnBend v p o val b) := by
  refine ⟨⟨(AlcOnly.setVoice b v _).trans (AlcOnly.setVoice _ v _), fun u => ?_⟩, fun u => ?_, fun u => ?_⟩ <;>
    rw [voice_writePnBend] <;> by_cases hu : u = v
  · rw [if_pos hu, voice_noteUndo, if_pos rfl, hu]
    rfl
  · rw [if_neg hu]
  · rw [if_pos hu, voice_noteUndo, if_pos rfl, hu]
  · rw [if_neg hu]
  · rw [if_pos hu, if_pos hu]
  · rw [if_neg hu, if_neg hu]

/-- A value for the voice in front of a list, and then for the rest of it. -/
theorem value_of_cons {α : Type} {u v : Nat} {l : List Nat} {x a b c : α} (h1 : b = if u = v then x else a) (h2 : c = if u ∈ l then x else b) :
    c = if u ∈ v :: l then x else a := by
  rw [h2, h1]
  by_cases hl : u ∈ l
  case pos => rw [if_pos hl, if_pos (List.mem_cons_of_mem v hl)]
  case neg =>
    rw [if_neg hl]
    exact ite_of_iff (by rw [List.mem_cons, or_iff_left hl]) rfl rfl

theorem pressure_foldl (p c val o : Nat) (l : List (Nat × Voice)) (b : Block) : PressureSet b (· ∈ l.map (·.1)) val
    (l.foldl (fun acc kv => mirror p (perNoteField 3 kv.1 c) (val : Int) o (perNoteValue 3 kv.1 acc.pickNo o c val acc)) b) := by
  induction l generalizing b with
  | nil => exact ⟨⟨AlcOnly.refl b, fun _ => rfl⟩, fun _ => rfl, fun u => (if_neg List.not_mem_nil).symm⟩
  | cons kv l ih =>
    have h1 := writePressure_sets kv.1 b.pickNo o val b
    have h2 := ih (mirror p (perNoteField 3 kv.1 c) (val : Int) o (perNoteValue 3 kv.1 b.pickNo o c val b))
    have hm : PnOnly (writePressure kv.1 b.pickNo o val b)
        (mirror p (perNoteField 3 kv.1 c) (val : Int) o (perNoteValue 3 kv.1 b.pickNo o c val b)) := ⟨AlcOnly.mirror _ _ _ _ _, fun _ => rfl⟩
    exact ⟨(h1.pn.trans hm).trans h2.pn, fun u => (h2.bend u).trans (h1.bend u), fun u => value_of_cons (h1.value u) (h2.value u)⟩

theorem bend_foldl (p c val o : Nat) (l : List (Nat × Voice)) (b : Block) : BendSet b (· ∈ l.map (·.1)) val
    (l.foldl (fun acc kv => mirror p (perNoteField 7 kv.1 c) (val : Int) o (perNoteValue 7 kv.1 acc.pickNo o c val acc)) b) := by
  induction l generalizing b with
  | nil => exact ⟨⟨AlcOnly.refl b, fun _ => rfl⟩, fun _ => rfl, fun u => (if_neg List.not_mem_nil).symm⟩
  | cons kv l ih =>
    have h1 := writePnBend_sets kv.1 b.pickNo o val b
    have h2 := ih (mirror p (perNoteField 7 kv.1 c) (val : Int) o (perNoteValue 7 kv.1 b.pickNo o c val b))
    have hm : PnOnly (writePnBend kv.1 b.pickNo o val b)
        (mirror p (perNoteField 7 kv.1 c) (val : Int) o (perNoteValue 7 kv.1 b.pickNo o c val b)) := ⟨AlcOnly.mirror _ _ _ _ _, fun _ => rfl⟩
    exact ⟨(h1.pn.trans hm).trans h2.pn, fun u => (h2.pressure u).trans (h1.pressure u), fun u => value_of_cons (h1.value u) (h2.value u)⟩

/-- A per-note event for a note goes over the voices it addresses. -/
theorem perNoteEvent_note {op : Nat} {x : Timed} (h : x.ev.kind ≠ 1) (b : Block) : perNoteEvent op x b =
    (addressed b x.ev.part x.ev.key (x.ev.bits 23 16)).foldl (fun acc kv =>
      mirror x.ev.part (perNoteField op kv.1 (if op = 5 then x.ev.bits 31 24 else 0)) (x.ev.bits 15 0 : Int) x.offset
        (perNoteValue op kv.1 acc.pickNo x.offset (if op = 5 then x.ev.bits 31 24 else 0) (x.ev.bits 15 0) acc)) b := if_neg h

/-! #### Tracked controllers (R203) -/

theorem Memory.byte_setNum (m : List Host.Cell) (a n v x : Nat) (h : x < a ∨ a + n ≤ x) :
    Memory.byte (Memory.setNum m a n v) x = Memory.byte m x := by
  unfold Memory.setNum
  rw [Memory.byte_setBytes, length_leBytes, if_neg (by omega)]

theorem Memory.num_of_bytes {m m' : List Host.Cell} {a n : Nat} (h : ∀ i, i < n → Memory.byte m' (a + i) = Memory.byte m (a + i)) :
    Memory.num m' a n = Memory.num m a n := by
  unfold Memory.num Memory.bytes
  exact congrArg leNat (List.map_congr_left fun i hi => h i (List.mem_range.mp hi))

/-- The first `k` snapshot slots of voice `v` that track controller `c` hold a value. -/
structure SlotsWritten (b : Block) (v c val k : Nat) (d : Block) : Prop where
  only : d = { b with alc := d.alc, mem := d.mem }
  bare : ∀ u, (d.voice u).bare = (b.voice u).bare
  slot : ∀ j, j < 4 → Memory.num d.mem (ctxBase v + 0x3F4 + 2 * j) 2 =
    if j < k ∧ Memory.num b.mem (ctxBase v + 0x3F0 + j) 1 = c ∧ c ≠ 255 then val else Memory.num b.mem (ctxBase v + 0x3F4 + 2 * j) 2
  other : ∀ a, a < ctxBase v + 0x3F4 ∨ ctxBase v + 0x3FC ≤ a → Memory.byte d.mem a = Memory.byte b.mem a

theorem SlotsWritten.start (b : Block) (v c val : Nat) : SlotsWritten b v c val 0 b where
  only := rfl
  bare _ := rfl
  slot j _ := (if_neg fun h => Nat.not_lt_zero j h.1).symm
  other _ _ := rfl

/-- Write the next slot, if it tracks the controller. -/
theorem SlotsWritten.next {b d : Block} {v c val k : Nat} (h : SlotsWritten b v c val k d) (hk : k < 4) (hval : val < 65536) (p o : Nat) :
    SlotsWritten b v c val (k + 1)
      (if Memory.num d.mem (ctxBase v + 0x3F0 + k) 1 = c ∧ c ≠ 255 then writeParam v p o (0x3F4 + 2 * k) val d else d) := by
  have htag : Memory.num d.mem (ctxBase v + 0x3F0 + k) 1 = Memory.num b.mem (ctxBase v + 0x3F0 + k) 1 :=
    Memory.num_of_bytes fun i hi => h.other _ (by omega)
  rw [htag]
  by_cases hc : Memory.num b.mem (ctxBase v + 0x3F0 + k) 1 = c ∧ c ≠ 255
  case neg =>
    rw [if_neg hc]
    refine ⟨h.only, h.bare, fun j hj => (h.slot j hj).trans ?_, h.other⟩
    refine ite_of_iff (and_congr_left fun ht => ⟨fun e => by omega, fun e => ?_⟩) rfl rfl
    have hjk : j ≠ k := fun e => hc (e ▸ ht)
    omega
  case pos =>
    rw [if_pos hc]
    have hu := noteUndo_pnOnly v p o (.param (0x3F4 + 2 * k)) (Memory.num d.mem (ctxBase v + (0x3F4 + 2 * k)) 2 : Nat) d
    have hmem : (writeParam v p o (0x3F4 + 2 * k) val d).mem = Memory.setNum d.mem (ctxBase v + (0x3F4 + 2 * k)) 2 val := rfl
    have hbare (u : Nat) : ((writeParam v p o (0x3F4 + 2 * k) val d).voice u).bare = (b.voice u).bare := (hu.bare u).trans (h.bare u)
    have honly : writeParam v p o (0x3F4 + 2 * k) val d =
        { d with alc := (writeParam v p o (0x3F4 + 2 * k) val d).alc, mem := (writeParam v p o (0x3F4 + 2 * k) val d).mem } := rfl
    generalize writeParam v p o (0x3F4 + 2 * k) val d = e at hmem hbare honly
    refine ⟨?_, hbare, fun j hj => ?_, fun a ha => ?_⟩
    · rw [honly, h.only]
    · rw [hmem]
      by_cases hjk : j = k
      case pos =>
        rw [hjk, Nat.add_assoc, Memory.num_setNum, if_pos ⟨Nat.lt_succ_self k, hc⟩]
        exact Nat.mod_eq_of_lt hval
      case neg =>
        rw [Memory.num_of_bytes (m := d.mem) fun i hi => Memory.byte_setNum _ _ _ _ _ (by omega), h.slot j hj]
        exact ite_of_iff (and_congr_left fun _ => by omega) rfl rfl
    · rw [hmem, Memory.byte_setNum _ _ _ _ _ (by omega)]
      exact h.other a ha

theorem writePnv_slots (v p o c : Nat) {val : Nat} (hval : val < 65536) (b : Block) :
    SlotsWritten b v c val 4 (writePnv v p o c val b) := by
  have h (k : Nat) (hk : k ≤ 4) : SlotsWritten b v c val k ((List.range k).foldl (fun acc j =>
      if Memory.num acc.mem (ctxBase v + 0x3F0 + j) 1 = c ∧ c ≠ 255 then writeParam v p o (0x3F4 + 2 * j) val acc else acc) b) := by
    induction k with
    | zero => exact SlotsWritten.start b v c val
    | succ k ih =>
      rw [List.range_succ, List.foldl_append]
      exact (ih (Nat.le_of_succ_le hk)).next hk hval p o
  exact h 4 (Nat.le_refl 4)

theorem Ev.bits_lt (e : Ev) : e.bits 15 0 < 65536 := Nat.mod_lt _ (by decide)

/-! #### An event for one voice (R55, R57, R82) -/

/-- The event-apply card of an event for one voice is queued, and that is all. -/
theorem queueApply_eq {i : Nat} {x : Timed} (b : Block) {ignore : Bool}
    (h : ((b.voice i).detached && (x.ev.op == 3 || x.ev.op == 5 || x.ev.op == 7)) = ignore) : queueApply i x b =
      { b with dlr := { b.dlr with applies := b.dlr.applies ++
        [{ voice := i, op := x.ev.op, data := x.ev.data, offset := x.offset, ignore := ignore, cmd := (b.voice i).cmdNo }] } } := by
  unfold queueApply
  rw [h]
  rfl

/-- Nothing but a register has changed. -/
theorem stale_alc (b : Block) : (stale b).alc = b.alc ∧ (stale b).mem = b.mem ∧ (stale b).dlr = b.dlr ∧ (stale b).efe = b.efe ∧
    (stale b).sys = b.sys :=
  ⟨Block.bump_alc _ _ _, Block.bump_mem _ _ _, Block.bump_dlr _ _ _, Block.bump_efe _ _ _, Block.bump_sys _ _ _⟩

/-- A released event for one voice that is in use brings it a card. -/
theorem card_acts {s : State} {op : Nat} {x : Timed} {rest : List Timed} {f : Timed → Block → Block} (hlive : s.live) (hq : s.blk.quiet)
    (hfront : s.front op x rest) {ignore : Bool}
    (hi : ((s.blk.voice x.ev.index).detached && (op == 3 || op == 5 || op == 7)) = ignore)
    (hf : f x (s.blk.popped rest) = queueApply x.ev.index x (s.blk.popped rest)) :
    ∃ t, s.run (onReleased op f) = .next t ∧ t.blk.efe = { s.blk.efe with released := rest, units := t.blk.efe.units } ∧
      t.blk.alc = s.blk.alc ∧ t.blk.mem = s.blk.mem ∧ sameRegsBut [CVO_STAT] s t ∧
      t.blk.dlr = { s.blk.dlr with applies := s.blk.dlr.applies ++
        [{ voice := x.ev.index, op := op, data := x.ev.data, offset := x.offset, ignore := ignore, cmd := (s.blk.voice x.ev.index).cmdNo }] } := by
  obtain ⟨-, hop⟩ := id hfront
  refine released_acts hlive hq hfront (hf.trans (queueApply_eq _ (ignore := ignore) (by rw [hop]; exact hi))) rfl rfl fun t ha => ?_
  refine ⟨ha.alc, ha.mem, fun a h => ha.rd a fun e => h (by rw [e]; exact List.mem_singleton.mpr rfl), ha.dlr.trans ?_⟩
  rw [hop]
  rfl

/-- A released event for one voice that is free is lost and counted. -/
theorem stale_acts {s : State} {op : Nat} {x : Timed} {rest : List Timed} {f : Timed → Block → Block} (hlive : s.live) (hq : s.blk.quiet)
    (hfront : s.front op x rest) (hf : f x (s.blk.popped rest) = stale (s.blk.popped rest)) :
    ∃ t, s.run (onReleased op f) = .next t ∧ t.blk.efe = { s.blk.efe with released := rest, units := t.blk.efe.units } ∧
      t.blk.alc = s.blk.alc ∧ t.blk.mem = s.blk.mem ∧ t.blk.dlr = s.blk.dlr ∧
      t.blk.get EFE_CNT_stale = min EFE_CNT_stale.max (s.blk.get EFE_CNT_stale + 1) := by
  obtain ⟨halc, hmem, hdlr, hefe, hsys⟩ := stale_alc (s.blk.popped rest)
  refine released_acts hlive hq hfront hf hsys (by rw [hefe]; rfl) fun t ha => ?_
  refine ⟨ha.alc.trans halc, ha.mem.trans hmem, ha.dlr.trans hdlr, ?_⟩
  have hrd := ha.rd EFE_CNT_stale.addr (by decide)
  calc t.blk.get EFE_CNT_stale = (stale (s.blk.popped rest)).get EFE_CNT_stale := congrArg EFE_CNT_stale.of hrd
    _ = _ := Block.get_bump _ rfl 1

theorem perNoteEvent_voice {op : Nat} {x : Timed} {b : Block} (hk : x.ev.kind = 1) (hs : (b.voice x.ev.index).st ≠ .free) :
    perNoteEvent op x b = queueApply x.ev.index x b := (if_pos hk).trans (if_neg fun e => hs (beq_iff_eq.mp e))

theorem perNoteEvent_stale {op : Nat} {x : Timed} {b : Block} (hk : x.ev.kind = 1) (hs : (b.voice x.ev.index).st = .free) :
    perNoteEvent op x b = stale b := (if_pos hk).trans (if_pos (beq_iff_eq.mpr hs))

theorem param_voice {x : Timed} {b : Block} (hs : (b.voice x.ev.index).st ≠ .free) : param x b = queueApply x.ev.index x b :=
  if_neg fun e => hs (beq_iff_eq.mp e)

theorem param_stale {x : Timed} {b : Block} (hs : (b.voice x.ev.index).st = .free) : param x b = stale b := if_pos (beq_iff_eq.mpr hs)

theorem noteOff_stale {x : Timed} {b : Block} (hk : x.ev.kind = 1) (hs : (b.voice x.ev.index).st = .free) : noteOff x b = stale b :=
  (if_pos hk).trans (if_pos (beq_iff_eq.mpr hs))

theorem kill_stale {x : Timed} {b : Block} (hk : x.ev.kind = 1) (hs : (b.voice x.ev.index).st = .free) : kill x b = stale b :=
  (if_pos hk).trans (if_pos (beq_iff_eq.mpr hs))

end Sys2Proof.Machine

namespace Sys2Proof.Machine

/-! ### NOTE_OFF of a voice, KILL, BUS_PARAM and CV_SET (R105, R127, R261, R297) -/

/-- A NOTE_OFF to a sounding voice releases it and queues its card. -/
structure VoiceOff (b : Block) (i : Nat) (x : Timed) (c : Block) : Prop where
  only : c = { b with alc := c.alc, dlr := c.dlr }
  st : (c.voice i).st = .released
  relFrame : (c.voice i).relFrame = b.pickNo * b.pick + b.lOut + x.offset
  applies : c.dlr.applies =
    b.dlr.applies ++ [{ voice := i, op := x.ev.op, data := x.ev.data, offset := x.offset, cmd := (b.voice i).cmdNo }]
  others : ∀ u, u ≠ i → c.voice u = b.voice u

theorem queueFor_dlr (a : Apply) (c : Option VoiceCmd) (b : Block) :
    (queueFor a c b).dlr = { b.dlr with applies := b.dlr.applies ++ [{ a with cmd := (b.voice a.voice).cmdNo }] } := by
  cases c with
  | none => rfl
  | some c => rfl

theorem voice_queueFor_some (a : Apply) (c : VoiceCmd) (b : Block) (u : Nat) :
    (queueFor a (some c) b).voice u = if u = a.voice then (b.voice a.voice).ask c a.offset b else b.voice u := Block.voice_setVoice b a.voice _ u

theorem noteOffVoice_releases {i : Nat} {x : Timed} {b : Block} (hs : (b.voice i).st = .sounding) : VoiceOff b i x (noteOffVoice i x b) := by
  have hoff : noteOffVoice i x b = queueFor { voice := i, op := x.ev.op, data := x.ev.data, offset := x.offset }
      (some { releaseCmd with ready := false })
      (b.setVoice i { b.voice i with st := .released, relFrame := b.pickNo * b.pick + b.lOut + x.offset }) :=
    (if_neg fun e => VState.noConfusion (hs.symm.trans (beq_iff_eq.mp e))).trans (if_pos (beq_iff_eq.mpr hs))
  rw [hoff]
  refine ⟨rfl, ?_, ?_, ?_, fun u hu => ?_⟩
  · rw [voice_queueFor_some, if_pos rfl, Block.voice_setVoice_same]
    rfl
  · rw [voice_queueFor_some, if_pos rfl, Block.voice_setVoice_same]
    rfl
  · rw [queueFor_dlr, Block.voice_setVoice_same]
    rfl
  · rw [voice_queueFor_some, if_neg hu, Block.voice_setVoice_ne b i _ hu]

/-! #### Fades -/

/-- A voice whose fade is asked for, over a length, in a pick (R105, R124). -/
def Voice.faded (x : Voice) (len pick : Nat) : Voice :=
  match x.st with
  | .free | .booked => x
  | .fading => if len < x.fadeLen - x.fadePos then { x with fadeLen := x.fadePos + len } else x
  | _ => { x with st := .fading, fadeLen := len, fadePos := 0, fadePick := pick }

section
variable (x : Voice) (len pick : Nat)

theorem Voice.faded_of_plays (h : x.st = .sounding ∨ x.st = .released) :
    x.faded len pick = { x with st := .fading, fadeLen := len, fadePos := 0, fadePick := pick } := by
  unfold Voice.faded
  rcases h with h | h <;> rw [h]

theorem Voice.faded_of_fading (h : x.st = .fading) :
    x.faded len pick = if len < x.fadeLen - x.fadePos then { x with fadeLen := x.fadePos + len } else x := by
  unfold Voice.faded
  rw [h]

/-- A fade that is asked for again is not shortened again. -/
theorem Voice.faded_faded : (x.faded len pick).faded len pick = x.faded len pick := by
  have again (y : Voice) (hy : y.st = .fading) (hl : ¬ len < y.fadeLen - y.fadePos) : y.faded len pick = y :=
    (y.faded_of_fading len pick hy).trans (if_neg hl)
  cases hs : x.st with
  | free | booked =>
    have hx : x.faded len pick = x := by
      unfold Voice.faded
      rw [hs]
    rw [hx, hx]
  | sounding =>
    rw [x.faded_of_plays len pick (Or.inl hs)]
    exact again _ rfl (Nat.lt_irrefl len)
  | released =>
    rw [x.faded_of_plays len pick (Or.inr hs)]
    exact again _ rfl (Nat.lt_irrefl len)
  | fading =>
    rw [x.faded_of_fading len pick hs]
    by_cases hl : len < x.fadeLen - x.fadePos
    case pos =>
      rw [if_pos hl]
      exact again _ hs (Nat.not_lt.mpr (by simp only; omega))
    case neg =>
      rw [if_neg hl]
      exact again x hs hl

theorem Voice.faded_next : (x.faded len pick).next = x.next := by
  unfold Voice.faded
  cases hs : x.st <;> simp only
  split <;> rfl

theorem Voice.faded_part : (x.faded len pick).part = x.part := by
  unfold Voice.faded
  cases hs : x.st <;> simp only
  split <;> rfl

theorem Voice.faded_unbooked (h : x.st ≠ .booked) : (x.faded len pick).st ≠ .booked := by
  unfold Voice.faded
  cases hs : x.st with
  | free =>
    rw [hs]
    exact VState.noConfusion
  | booked => exact absurd hs h
  | sounding => exact VState.noConfusion
  | released => exact VState.noConfusion
  | fading =>
    dsimp only
    split
    · exact VState.noConfusion
    · exact h

end

/-- No voice is booked, nor waits for another's context. -/
def Block.unbooked (b : Block) : Prop := ∀ v, (b.voice v).next = none ∧ (b.voice v).st ≠ .booked

theorem dropBooked_eq {v : Nat} {b : Block} (hn : (b.voice v).next = none) (hs : (b.voice v).st ≠ .booked) : dropBooked v b = b := by
  unfold dropBooked
  dsimp only
  rw [hn]
  exact if_neg hs

/-- The fades of a set of voices, each over its own length. -/
structure Faded (b : Block) (S : Nat → Prop) [DecidablePred S] (data : Nat) (c : Block) : Prop where
  only : AlcOnly b c
  parts : c.alc.parts = b.alc.parts
  voice : ∀ u, c.voice u = if S u then (b.voice u).faded (killFade b u data) b.pickNo else b.voice u

theorem startFade_fading {v len : Nat} {b : Block} (h : (b.voice v).st = .fading) : startFade v len b =
    if len < (b.voice v).fadeLen - (b.voice v).fadePos then
      b.setVoice v { b.voice v with fadeLen := (b.voice v).fadePos + len }
    else b := by
  unfold startFade
  dsimp only
  rw [h]

theorem startFade_eq {v len : Nat} {b : Block} (hn : (b.voice v).next = none) (hs : (b.voice v).st ≠ .booked) :
    startFade v len b = b ∧ (b.voice v).faded len b.pickNo = b.voice v ∨
    startFade v len b = b.setVoice v ((b.voice v).faded len b.pickNo) := by
  have plays (h : (b.voice v).st = .sounding ∨ (b.voice v).st = .released) :
      dropBooked v (b.setVoice v { b.voice v with st := .fading, fadeLen := len, fadePos := 0, fadePick := b.pickNo }) =
        b.setVoice v ((b.voice v).faded len b.pickNo) := by
    rw [(b.voice v).faded_of_plays len b.pickNo h]
    refine dropBooked_eq ?_ ?_ <;> rw [Block.voice_setVoice_same]
    · exact hn
    · exact VState.noConfusion
  cases h : (b.voice v).st with
  | free =>
    refine Or.inl ⟨?_, ?_⟩
    · unfold startFade
      dsimp only
      rw [h]
    · unfold Voice.faded
      rw [h]
  | booked => exact absurd h hs
  | sounding =>
    refine Or.inr ((Eq.trans ?_ (plays (Or.inl h))))
    unfold startFade
    dsimp only
    rw [h]
  | released =>
    refine Or.inr ((Eq.trans ?_ (plays (Or.inr h))))
    unfold startFade
    dsimp only
    rw [h]
  | fading =>
    rw [startFade_fading h, (b.voice v).faded_of_fading len b.pickNo h]
    by_cases hl : len < (b.voice v).fadeLen - (b.voice v).fadePos
    case pos =>
      rw [if_pos hl, if_pos hl]
      exact Or.inr rfl
    case neg =>
      rw [if_neg hl, if_neg hl]
      exact Or.inl ⟨rfl, rfl⟩

theorem startFade_faded {v data : Nat} {b : Block} (hn : (b.voice v).next = none) (hs : (b.voice v).st ≠ .booked) :
    Faded b (· = v) data (startFade v (killFade b v data) b) := by
  rcases startFade_eq (len := killFade b v data) hn hs with ⟨he, hv⟩ | he
  · rw [he]
    refine ⟨AlcOnly.refl b, rfl, fun u => ?_⟩
    by_cases hu : u = v
    case pos =>
      rw [if_pos hu, hu]
      exact hv.symm
    case neg => rw [if_neg hu]
  · rw [he]
    refine ⟨AlcOnly.setVoice b v _, rfl, fun u => ?_⟩
    rw [Block.voice_setVoice]
    by_cases hu : u = v
    case pos => rw [if_pos hu, if_pos hu, hu]
    case neg => rw [if_neg hu, if_neg hu]

section
variable {b c : Block} {S : Nat → Prop} [DecidablePred S] {data : Nat} (h : Faded b S data c)
include h

theorem Faded.voicePart (u : Nat) : (c.voice u).part = (b.voice u).part := by
  rw [h.voice u]
  split
  · exact Voice.faded_part _ _ _
  · rfl

theorem Faded.killFade (u : Nat) : killFade c u data = killFade b u data := by
  unfold Machine.killFade Block.part
  rw [h.voicePart u, h.parts]

theorem Faded.pickNo : c.pickNo = b.pickNo := (congrArg Block.pickNo h.only).trans rfl

theorem Faded.unbooked (hb : b.unbooked) : c.unbooked := by
  intro v
  obtain ⟨hn, hs⟩ := hb v
  rw [h.voice v]
  split
  · exact ⟨(Voice.faded_next _ _ _).trans hn, Voice.faded_unbooked _ _ _ hs⟩
  · exact ⟨hn, hs⟩

end

/-- Faded one after the other: a voice that is listed twice is faded once. -/
theorem faded_foldl (data : Nat) (l : List (Nat × Voice)) {b : Block} (hb : b.unbooked) :
    Faded b (· ∈ l.map (·.1)) data (l.foldl (fun acc kv => startFade kv.1 (killFade acc kv.1 data) acc) b) := by
  induction l generalizing b with
  | nil => exact ⟨AlcOnly.refl b, rfl, fun u => (if_neg List.not_mem_nil).symm⟩
  | cons kv l ih =>
    have h1 : Faded b (· = kv.1) data (startFade kv.1 (killFade b kv.1 data) b) := startFade_faded (hb kv.1).1 (hb kv.1).2
    have h2 := ih (h1.unbooked hb)
    rw [List.foldl_cons]
    generalize startFade kv.1 (killFade b kv.1 data) b = b1 at h1 h2
    generalize l.foldl (fun acc kv => startFade kv.1 (killFade acc kv.1 data) acc) b1 = c at h2
    refine ⟨h1.only.trans h2.only, h2.parts.trans h1.parts, fun u => ?_⟩
    rw [h2.voice u, h1.killFade u, h1.pickNo, h1.voice u, List.map_cons]
    by_cases hu : u = kv.1
    case pos =>
      have hm : u ∈ kv.1 :: l.map (·.1) := hu ▸ List.mem_cons_self
      rw [if_pos hu, Voice.faded_faded, ite_self, if_pos hm]
    case neg =>
      rw [if_neg hu]
      exact ite_of_iff (by rw [List.mem_cons, or_iff_right hu]) rfl rfl

/-! #### BUS_PARAM -/

theorem foldl_range_id {α : Type} {f : α → Nat → α} {a : α} {n : Nat} (h : ∀ i, i < n → f a i = a) : (List.range n).foldl f a = a := by
  induction n with
  | zero => rfl
  | succ n ih =>
    rw [List.range_succ, List.foldl_append, ih fun i hi => h i (Nat.lt_succ_of_lt hi)]
    exact h n (Nat.lt_succ_self n)

/-- Of a loop over a range, one step counts. -/
theorem foldl_range_one {α : Type} {f : α → Nat → α} {a : α} {n l : Nat} (hl : l < n) (h1 : ∀ i, i < n → i ≠ l → f a i = a)
    (h2 : ∀ i, i < n → i ≠ l → f (f a l) i = f a l) : (List.range n).foldl f a = f a l := by
  induction n with
  | zero => exact absurd hl (Nat.not_lt_zero l)
  | succ n ih =>
    rw [List.range_succ, List.foldl_append]
    by_cases hn : l = n
    case pos =>
      rw [foldl_range_id fun i hi => h1 i (Nat.lt_succ_of_lt hi) (by omega), hn]
      rfl
    case neg =>
      rw [ih (by omega) (fun i hi => h1 i (Nat.lt_succ_of_lt hi)) fun i hi => h2 i (Nat.lt_succ_of_lt hi)]
      exact h2 n (Nat.lt_succ_self n) fun e => hn e.symm

/-- What a BUS_PARAM does on loom `l`. -/
def busParamOn (x : Timed) (b : Block) (l : Nat) : Block :=
  if (entryFor b l x.ev.index).isNone then b
  else if busInService b l x.ev.index then
    { b with mix := { b.mix with deferred := b.mix.deferred ++ [(l, x.ev.index, x.ev.bits 9 0, x.ev.bits 31 16)] } }
  else busParamWrite l x.ev.index (x.ev.bits 9 0) (x.ev.bits 31 16) b

theorem entryFor_busParamOn (x : Timed) (b : Block) (l i bus : Nat) : entryFor (busParamOn x b l) i bus = entryFor b i bus := by
  have hw (o v : Nat) : entryFor (busParamWrite l x.ev.index o v b) i bus = entryFor b i bus := by
    unfold busParamWrite
    split <;> rfl
  unfold busParamOn
  split
  · rfl
  · split
    · rfl
    · exact hw _ _

theorem busParamOn_none {x : Timed} {b : Block} {l : Nat} (h : entryFor b l x.ev.index = none) : busParamOn x b l = b :=
  if_pos (Option.isNone_iff_eq_none.mpr h)

theorem busParam_one {x : Timed} {b : Block} {l : Nat} (hl : l < 4)
    (h : ∀ l', l' < 4 → l' ≠ l → entryFor b l' x.ev.index = none) : busParam x b = busParamOn x b l :=
  foldl_range_one (f := busParamOn x) hl (fun i hi hne => busParamOn_none (h i hi hne))
    fun i hi hne => busParamOn_none ((entryFor_busParamOn x b l i _).trans (h i hi hne))

theorem busParamOn_write {x : Timed} {b : Block} {l : Nat} {e : Entry} (he : entryFor b l x.ev.index = some e)
    (hs : busInService b l x.ev.index = false) : busParamOn x b l =
      { b with mem := Memory.setNum b.mem (loomBase l + parBase b l e.ix + x.ev.bits 9 0) 2 (x.ev.bits 31 16) } := by
  unfold busParamOn busParamWrite
  rw [he, hs]
  rfl

theorem busParamOn_wait {x : Timed} {b : Block} {l : Nat} {e : Entry} (he : entryFor b l x.ev.index = some e)
    (hs : busInService b l x.ev.index = true) : busParamOn x b l =
      { b with mix := { b.mix with deferred := b.mix.deferred ++ [(l, x.ev.index, x.ev.bits 9 0, x.ev.bits 31 16)] } } := by
  unfold busParamOn
  rw [he, hs]
  rfl

/-! #### CV_SET -/

theorem cvSet_push {x : Timed} {b : Block} (hs : cvSrc b (x.ev.index % 32) = 0) (hon : b.on (CVO_CH_CFG_en (x.ev.index % 32))) :
    cvSet x b = cvPush (x.ev.index % 32)
      { frame := b.pickNo * b.pick + b.lOut + x.offset, src := 0, value := BitVec.ofNat 32 (x.ev.bits 15 0), bypass := x.ev.oflags % 2 == 1
        good := true } b := by
  unfold cvSet
  dsimp only
  rw [hs, hon]
  rfl

theorem cvChan_setCvChan (n : Nat) (c : CvChan) (b : Block) (k : Nat) : cvChan (setCvChan n c b) k = if k = n then c else cvChan b k :=
  FMap.get_set _ _ _ _ _

end Sys2Proof.Machine

namespace Sys2Proof.Machine

/-! ### NOTE_ON (R114–R121) -/

/-- A harness has room for a voice of a group: R119's conditions hold of it, and it has a slot beyond the reserve. -/
def hasRoom (b : Block) (g : Group) (h : Nat) : Prop := h < 32 ∧ fits b g h = true ∧ b.get VAL_CFG_slot_rsv < (freeSlots b h).length

/-- What is left of a harness's cycles (R119). -/
def slackOf (b : Block) (h : Nat) : Int := capA b h - (admitted b h : Nat)

/-- The better of two harnesses, the earlier one where they are equal. -/
def keepBest (slack : Nat → Int) : Option Nat → Nat → Option Nat
  | none, h => some h
  | some k, h => if slack k < slack h then some h else some k

/-- The search keeps one that none exceeds. -/
theorem foldl_keepBest_some (slack : Nat → Int) (l : List Nat) (k : Nat) : ∃ h, l.foldl (keepBest slack) (some k) = some h ∧
    (h = k ∨ h ∈ l) ∧ slack k ≤ slack h ∧ ∀ h' ∈ l, slack h' ≤ slack h := by
  induction l generalizing k with
  | nil => exact ⟨k, rfl, Or.inl rfl, Int.le_refl _, fun _ h => absurd h List.not_mem_nil⟩
  | cons a l ih =>
    rw [List.foldl_cons, keepBest]
    by_cases ha : slack k < slack a
    case pos =>
      obtain ⟨h, hh, hmem, hle, hall⟩ := ih a
      rw [if_pos ha]
      refine ⟨h, hh, Or.inr (List.mem_cons.mpr hmem), by omega, fun h' hm => ?_⟩
      rcases List.mem_cons.mp hm with rfl | hm
      · exact hle
      · exact hall h' hm
    case neg =>
      obtain ⟨h, hh, hmem, hle, hall⟩ := ih k
      rw [if_neg ha]
      refine ⟨h, hh, hmem.imp_right (List.mem_cons_of_mem a), hle, fun h' hm => ?_⟩
      rcases List.mem_cons.mp hm with rfl | hm
      · omega
      · exact hall h' hm

theorem foldl_keepBest (slack : Nat → Int) {l : List Nat} (hl : l ≠ []) :
    ∃ h, l.foldl (keepBest slack) none = some h ∧ h ∈ l ∧ ∀ h' ∈ l, slack h' ≤ slack h := by
  cases l with
  | nil => exact absurd rfl hl
  | cons a l =>
    obtain ⟨h, hh, hmem, hle, hall⟩ := foldl_keepBest_some slack l a
    refine ⟨h, hh, List.mem_cons.mpr hmem, fun h' hm => ?_⟩
    rcases List.mem_cons.mp hm with rfl | hm
    · exact hle
    · exact hall h' hm

/-- The harnesses with room, ascending. -/
def roomy (b : Block) (g : Group) : List Nat :=
  (List.range 32).filter fun h => fits b g h && decide (b.get VAL_CFG_slot_rsv < (freeSlots b h).length)

theorem mem_roomy {b : Block} {g : Group} {h : Nat} : h ∈ roomy b g ↔ hasRoom b g h := by
  unfold roomy
  rw [List.mem_filter, List.mem_range, Bool.and_eq_true, decide_eq_true_iff]
  exact Iff.rfl

theorem foldl_of_eq {α β : Type} {f g : α → β → α} (h : ∀ a x, f a x = g a x) (a : α) (l : List β) : l.foldl f a = l.foldl g a := by
  rw [show f = g from funext fun a => funext (h a)]

theorem tryPlace_eq (g : Group) (nt : Note) (ext : EvExt) (u : Nat) (b : Block) : tryPlace g nt ext u b =
    ((roomy b g).foldl (keepBest (slackOf b)) none).bind fun h =>
      (freeSlots b h).head?.map fun c => putVoice g nt ext u (256 * h + c) b := by
  unfold tryPlace
  dsimp only
  rw [foldl_of_eq (g := keepBest (slackOf b)) ?step]
  case step =>
    intro acc h
    cases acc <;> rfl
  cases hbest : (roomy b g).foldl (keepBest (slackOf b)) none with
  | none =>
    unfold roomy at hbest
    rw [hbest]
    rfl
  | some h =>
    unfold roomy at hbest
    rw [hbest]
    rfl

/-- A voice goes into the lowest free slot of the harness with the most slack among those with room. -/
theorem tryPlace_best {g : Group} {b : Block} (nt : Note) (ext : EvExt) (u : Nat) (hroom : ∃ h, hasRoom b g h) :
    ∃ h k, hasRoom b g h ∧ (freeSlots b h).head? = some k ∧ (∀ h', hasRoom b g h' → slackOf b h' ≤ slackOf b h) ∧
      tryPlace g nt ext u b = some (putVoice g nt ext u (256 * h + k) b) := by
  obtain ⟨h0, hh0⟩ := hroom
  obtain ⟨h, hbest, hin, hall⟩ := foldl_keepBest (slackOf b) (List.ne_nil_of_mem (mem_roomy.mpr hh0))
  have hr := mem_roomy.mp hin
  obtain ⟨k, hk⟩ : ∃ k, (freeSlots b h).head? = some k := by
    cases hs : freeSlots b h with
    | nil => exact absurd (hs ▸ hr.2.2) (Nat.not_lt_zero _)
    | cons k l => exact ⟨k, rfl⟩
  refine ⟨h, k, hr, hk, fun h' hh' => hall h' (mem_roomy.mpr hh'), ?_⟩
  rw [tryPlace_eq, hbest, Option.bind_some, hk]
  rfl

/-! #### The voice that starts -/

theorem FMap.mem_ins_self {α : Type} (k : Nat) (v : α) (m : FMap α) : (k, v) ∈ FMap.ins k v m := by
  induction m with
  | nil => exact List.mem_cons_self
  | cons a m ih =>
    unfold FMap.ins
    split
    · exact List.mem_cons_self
    · exact List.mem_cons_of_mem _ ih

theorem FMap.mem_set_self {α : Type} [DecidableEq α] {d : Nat → α} {k : Nat} {v : α} (h : v ≠ d k) (m : FMap α) :
    (k, v) ∈ FMap.set d m k v := by
  unfold FMap.set
  rw [if_neg h]
  exact FMap.mem_ins_self k v _

/-- The one voice of a group has started in context `v`: it sounds, has taken a unit, and its event-apply card is queued. -/
structure VoiceStarted (b : Block) (g : Group) (nt : Note) (v : Nat) (c : Block) : Prop where
  only : c = { b with alc := c.alc, dlr := c.dlr, efe := c.efe }
  st : (c.voice v).st = .sounding
  note : (c.voice v).note = g.note
  place : (c.voice v).part = nt.part ∧ (c.voice v).key = nt.key ∧ (c.voice v).layer = g.ix ∧ (c.voice v).template = g.ly.template ∧
    (c.voice v).prog = g.ly.prog
  time : (c.voice v).startFrame = nt.startFrame ∧ (c.voice v).startPick = g.pick ∧ (c.voice v).offset = g.offset
  sums : (c.voice v).cost = g.cost ∧ (c.voice v).charged = true
  others : ∀ u, u ≠ v → c.voice u = b.voice u
  listed : (v, c.voice v) ∈ c.alc.voices
  notes : c.alc.notes = b.alc.notes
  started : c.alc.started = b.alc.started + 1
  efe : c.efe = (takeUnit g.pick (v / 256) b).efe
  applies : ∃ a, c.dlr.applies = b.dlr.applies ++ [a] ∧ a.voice = v ∧ a.op = 1 ∧ a.init = true ∧ a.offset = g.offset ∧ a.data = noteData nt

/-- What a voice that starts is. -/
structure StartsAs (g : Group) (nt : Note) (x : Voice) : Prop where
  st : x.st = .sounding
  note : x.note = g.note
  place : x.part = nt.part ∧ x.key = nt.key ∧ x.layer = g.ix ∧ x.template = g.ly.template ∧ x.prog = g.ly.prog
  time : x.startFrame = nt.startFrame ∧ x.startPick = g.pick ∧ x.offset = g.offset
  sums : x.cost = g.cost ∧ x.charged = true

theorem startOf_startsAs (b : Block) (g : Group) (nt : Note) (ext : EvExt) (u : Nat) :
    StartsAs g nt ((startOf b g nt ext u).voice b .sounding g.cost g.bytes) :=
  ⟨rfl, rfl, ⟨rfl, rfl, rfl, rfl, rfl⟩, ⟨rfl, rfl, rfl⟩, ⟨rfl, rfl⟩⟩

theorem StartsAs.ask {g : Group} {nt : Note} {x : Voice} (h : StartsAs g nt x) (c : VoiceCmd) (o : Nat) (b : Block) :
    StartsAs g nt (x.ask c o b) := ⟨h.st, h.note, h.place, h.time, h.sums⟩

/-- The block once a voice has its context and its unit, before its card is queued. -/
structure ContextTaken (b : Block) (g : Group) (v : Nat) (x : Voice) (c : Block) : Prop where
  only : c = { b with alc := c.alc, efe := c.efe }
  voice : ∀ u, c.voice u = if u = v then x else b.voice u
  notes : c.alc.notes = b.alc.notes
  started : c.alc.started = b.alc.started + 1
  efe : c.efe = (takeUnit g.pick (v / 256) b).efe

theorem queueStart_card (v : Nat) (x : Voice) (nt : Note) (retrig init : Bool) (b : Block) :
    ∃ a cmd, queueStart v x nt retrig init b = queueFor a (some cmd) b ∧ a.voice = v ∧ a.op = 1 ∧ a.init = init ∧ a.offset = x.offset ∧
      a.data = noteData nt := ⟨_, _, rfl, rfl, rfl, rfl, rfl, rfl⟩

theorem queueStart_starts {b c : Block} {g : Group} {nt : Note} {v : Nat} {x : Voice} (hx : StartsAs g nt x)
    (hc : ContextTaken b g v x c) : VoiceStarted b g nt v (queueStart v x nt false true c) := by
  obtain ⟨a, cmd, heq, hav, hop, hinit, hoff, hdata⟩ := queueStart_card v x nt false true c
  rw [heq]
  have hcv : c.voice a.voice = x := (hc.voice a.voice).trans (if_pos hav)
  have hv : (queueFor a (some cmd) c).voice v = x.ask cmd a.offset c := by
    rw [voice_queueFor_some, if_pos hav.symm, hcv]
  have hs : StartsAs g nt ((queueFor a (some cmd) c).voice v) := by
    rw [hv]
    exact hx.ask cmd a.offset c
  have hd : x.ask cmd a.offset c ≠ {} := fun e => VState.noConfusion (((hx.ask cmd a.offset c).st.symm.trans (congrArg Voice.st e)))
  refine ⟨?_, hs.st, hs.note, hs.place, hs.time, hs.sums, fun u hu => ?_, ?_, hc.notes, hc.started, hc.efe, ?_⟩
  · have hq : queueFor a (some cmd) c = { c with alc := (queueFor a (some cmd) c).alc, dlr := (queueFor a (some cmd) c).dlr } := rfl
    generalize queueFor a (some cmd) c = d at hq
    have hefe : d.efe = c.efe := (congrArg Block.efe hq).trans rfl
    rw [hefe]
    exact hq.trans (congrArg (fun y : Block => { y with alc := d.alc, dlr := d.dlr }) hc.only)
  · rw [voice_queueFor_some, if_neg (by rw [hav]; exact hu), hc.voice u, if_neg hu]
  · rw [hv]
    have hl : (queueFor a (some cmd) c).alc.voices = FMap.set (fun _ => ({} : Voice)) c.alc.voices v (x.ask cmd a.offset c) := by
      rw [← hcv, ← hav]
      rfl
    rw [hl]
    exact FMap.mem_set_self hd _
  · refine ⟨{ a with cmd := (c.voice a.voice).cmdNo }, ?_, hav, hop, hinit, hoff.trans hx.time.2.2, hdata⟩
    rw [queueFor_dlr, hc.only]

theorem putVoice_starts {g : Group} (hb : g.book = false) (nt : Note) (ext : EvExt) (u v : Nat) (b : Block) :
    VoiceStarted b g nt v (putVoice g nt ext u v b) := by
  unfold putVoice
  dsimp only
  rw [hb, if_neg Bool.false_ne_true, if_neg Bool.false_ne_true]
  exact queueStart_starts (startOf_startsAs b g nt ext u) ⟨rfl, fun w => Block.voice_setVoice b v ((startOf b g nt ext u).voice b .sounding g.cost g.bytes) w, rfl, rfl, rfl⟩

end Sys2Proof.Machine

namespace Sys2Proof.Machine

/-! #### The plan of one layer and one voice (R114, R117–R121) -/

/-- A group of one voice that finds room needs no stealing and no reuse. -/
theorem planGroup_one {g : Group} {nt : Note} {ext : EvExt} {b c : Block} (stealing : Bool) (hr : (b.part nt.part).retrig = 0)
    (hu : g.ly.unison = 1) (hp : tryPlace g nt ext 0 b = some c) : planGroup g nt ext stealing b = some c := by
  have hplace : placeAll (tryPlace g nt ext) 1 b = some c := hp
  unfold planGroup
  dsimp only
  rw [hr, hu, hplace, if_neg (by decide)]

theorem within256_some {c : Block} (h : c.alc.started ≤ 256) : within256 (some c) = some c := by
  unfold within256
  rw [Option.filter_some, if_pos (decide_eq_true h)]

/-- A plan of one layer that is placed stands, atomic or not. -/
theorem planNote_one {k : Nat} {nt : Note} {ext : EvExt} {pick o : Nat} {book : Bool} {il : Nat × Layer} {b c : Block}
    (hp : planLayer k nt ext pick o book il b = some c) (hs : c.alc.started ≤ 256) :
    planNote k nt ext pick o book [il] b = ([il.1], c) := by
  unfold planNote
  by_cases ha : (b.part nt.part).atomic
  case pos =>
    rw [if_pos ha, List.foldl_cons, List.foldl_nil, Option.bind_some, hp, within256_some hs]
    rfl
  case neg =>
    rw [if_neg ha, List.foldl_cons, List.foldl_nil, hp, within256_some hs]
    rfl

theorem planLayer_of_cost {k : Nat} {nt : Note} {ext : EvExt} {pick o c : Nat} {book : Bool} {il : Nat × Layer} {b : Block}
    (hc : admitCost b il.2.prog = some c) : planLayer k nt ext pick o book il b =
      planGroup { note := k, ix := il.1, ly := il.2, pick := pick, offset := o, cost := c, bytes := b.tmplBytes il.2.prog il.2.template
                  book := book } nt ext (!book) b := by
  unfold planLayer
  rw [hc]

/-- A note that has started holds its voice. -/
theorem VoiceStarted.held {b c : Block} {g : Group} {nt : Note} {v : Nat} (h : VoiceStarted b g nt v c) :
    (noteVoices c g.note).isEmpty = false := by
  refine List.isEmpty_eq_false_iff.mpr (List.ne_nil_of_mem (a := (v, c.voice v)) ?_)
  refine List.mem_filter.mpr ⟨List.mem_filter.mpr ⟨h.listed, ?_⟩, ?_⟩
  · show ((c.voice v).st != .free) = true
    rw [h.st]
    rfl
  · show ((c.voice v).note == g.note || _) = true
    rw [h.note, beq_self_eq_true, Bool.true_or]

/-- The group of a one-layer NOTE_ON. -/
def soloGroup (b : Block) (k : Nat) (x : Timed) (j : Nat) (ly : Layer) (c : Nat) : Group :=
  { note := k, ix := j, ly := ly, pick := b.pickNo, offset := x.offset, cost := c, bytes := b.tmplBytes ly.prog ly.template
    book := false }

/-- A NOTE_ON of one layer and one voice that finds room starts it (R119). -/
theorem startLayers_one {b : Block} {x : Timed} {k j c : Nat} {ly : Layer} {nt : Note} (hr : (b.part nt.part).retrig = 0)
    (hu : ly.unison = 1) (hc : admitCost b ly.prog = some c) (hs : b.alc.started < 256)
    (hroom : ∃ h, hasRoom b (soloGroup b k x j ly c) h) :
    ∃ h i d, hasRoom b (soloGroup b k x j ly c) h ∧ (freeSlots b h).head? = some i ∧
      (∀ h', hasRoom b (soloGroup b k x j ly c) h' → slackOf b h' ≤ slackOf b h) ∧
      VoiceStarted b (soloGroup b k x j ly c) nt (256 * h + i) d ∧
      startLayers k nt x [(j, ly)] b = setLastPitch nt.part nt.key ly.template (attrOf x.ev.ext) d := by
  obtain ⟨h, i, hh, hi, hbest, hput⟩ := tryPlace_best nt x.ev.ext 0 hroom
  have hst := putVoice_starts (g := soloGroup b k x j ly c) rfl nt x.ev.ext 0 (256 * h + i) b
  have hpl : planLayer k nt x.ev.ext b.pickNo x.offset false (j, ly) b = _ :=
    (planLayer_of_cost hc).trans (planGroup_one true hr hu hput)
  generalize putVoice (soloGroup b k x j ly c) nt x.ev.ext 0 (256 * h + i) b = d at hst hpl
  have hplan := planNote_one hpl (by rw [hst.started]; exact hs)
  refine ⟨h, i, d, hh, hi, hbest, hst, ?_⟩
  unfold startLayers
  dsimp only
  rw [hplan]
  dsimp only
  rw [show (noteVoices d k).isEmpty = false from hst.held, if_neg Bool.false_ne_true]
  rfl

/-- The block with the number of a note that begins taken. -/
def numbered (nt : Note) (b : Block) : Block := (newNote nt b).2

theorem numbered_note (nt : Note) (b : Block) : (numbered nt b).note b.alc.nextNote = some nt :=
  Block.note_setNote_same b b.alc.nextNote (some nt)

theorem startNote_of_open {x : Timed} {ls : List (Nat × Layer)} {b : Block} (h : admissionOpen b = true) :
    startNote x ls b = startLayers b.alc.nextNote (noteOf x) x ls (numbered (noteOf x) b) := by
  unfold startNote
  rw [h]
  rfl

theorem unpool_of_none {stamp : Nat} {b : Block} (h : ∀ q ∈ b.alc.pooled, q.ev.stamp ≠ stamp) : unpool stamp b = b := by
  unfold unpool
  rw [List.filter_eq_self.mpr fun q hq => bne_iff_ne.mpr (h q hq)]
  rfl

/-- A NOTE_ON that is not pooled, of a POLY part and without a note ID, whose key and velocity match layers. -/
theorem noteOn_solo {x : Timed} {b : Block} {il : Nat × Layer} (hp : ∀ q ∈ b.alc.pooled, q.ev.stamp ≠ x.stamp)
    (hm : (b.part x.ev.part).mode = 0) (hid : x.ev.bits 23 16 = 0)
    (hl : matching b x.ev.part x.ev.key (x.ev.bits 15 0) = [il]) : noteOn x b = startNote x [il] b := by
  have hfind : (b.alc.pooled.find? fun q => q.ev.stamp == x.stamp && !q.booking) = none :=
    List.find?_eq_none.mpr fun q hq e => hp q hq (beq_iff_eq.mp (Bool.and_eq_true_iff.mp e).1)
  unfold noteOn
  rw [hfind]
  dsimp only
  rw [unpool_of_none hp]
  unfold noteOnAt
  dsimp only
  rw [if_pos hm]
  unfold polyOn endSameId
  rw [hid, if_pos rfl]
  dsimp only
  unfold admitNote
  rw [hl]

end Sys2Proof.Machine

namespace Sys2Proof.Machine

/-! #### Every kind of released event -/

/-- A command takes the released event in front, and a fact holds of the state after it. -/
def State.actsThen (s : State) (rest : List Timed) (c : Instr) (F : State → Prop) : Prop :=
  ∃ t, exec c s = .next t ∧ t.blk.efe = { s.blk.efe with released := rest, units := t.blk.efe.units } ∧ F t

/-- Nothing of a state but one voice has changed, as far as voices and memory go. -/
def State.otherVoices (s : State) (v : Nat) (t : State) : Prop := (∀ u, u ≠ v → t.blk.voice u = s.blk.voice u) ∧ t.blk.mem = s.blk.mem

section
variable {b : Block}

theorem mem_freeSlots_lt {h k : Nat} (hk : (freeSlots b h).head? = some k) : k < 256 := by
  have hm : k ∈ freeSlots b h := List.mem_of_head? hk
  have hv : k < b.vh := List.mem_range.mp (List.mem_filter.mp hm).1
  have hle : b.vh ≤ 256 := by
    unfold Block.vh
    split
    · exact Nat.le_refl 256
    · exact Nat.min_le_left _ _
  omega

theorem unitsUsed_takeUnit (n h : Nat) : unitsUsed (takeUnit n h b) n h = unitsUsed b n h + 1 :=
  FMap.get_set_same (fun _ => 0) b.efe.units (n * 32 + h) (unitsUsed b n h + 1)

theorem unitsUsed_of_efe {c : Block} (h : c.efe = b.efe) (n k : Nat) : unitsUsed c n k = unitsUsed b n k := by
  unfold unitsUsed
  rw [h]

end

theorem efe_of_popped {b c : Block} {rest : List Timed} (h : c.efe = (b.popped rest).efe) :
    c.efe = { b.efe with released := rest, units := c.efe.units } := by
  rw [h]
  rfl

section
variable {s : State} {x : Timed} {rest : List Timed} (hlive : s.live) (hq : s.blk.quiet)
include hlive hq

/-- A NOTE_ON of one layer and one voice (R115, R119). -/
theorem noteOn_acts (hfront : s.front 1 x rest) {j c : Nat} {ly : Layer} (hp : ∀ q ∈ s.blk.alc.pooled, q.ev.stamp ≠ x.stamp)
    (hm : (s.blk.part x.ev.part).mode = 0) (hr : (s.blk.part x.ev.part).retrig = 0) (hid : x.ev.bits 23 16 = 0)
    (hl : matching s.blk x.ev.part x.ev.key (x.ev.bits 15 0) = [(j, ly)]) (hu : ly.unison = 1) (hopen : admissionOpen s.blk = true)
    (hc : admitCost s.blk ly.prog = some c) (hs : s.blk.alc.started < 256)
    (hroom : ∃ h, hasRoom s.blk (soloGroup s.blk s.blk.alc.nextNote x j ly c) h) :
    s.actsThen rest .noteOn fun t => ∃ h k, hasRoom s.blk (soloGroup s.blk s.blk.alc.nextNote x j ly c) h ∧
      (freeSlots s.blk h).head? = some k ∧
      (∀ h', hasRoom s.blk (soloGroup s.blk s.blk.alc.nextNote x j ly c) h' →
        capA s.blk h' - (admitted s.blk h' : Nat) ≤ capA s.blk h - (admitted s.blk h : Nat)) ∧
      (((t.blk.voice (256 * h + k)).st = .sounding ∧ (t.blk.voice (256 * h + k)).note = s.blk.alc.nextNote ∧
        (t.blk.voice (256 * h + k)).part = x.ev.part ∧ (t.blk.voice (256 * h + k)).key = x.ev.key ∧
        (t.blk.voice (256 * h + k)).layer = j ∧ (t.blk.voice (256 * h + k)).template = ly.template ∧
        (t.blk.voice (256 * h + k)).prog = ly.prog ∧ (t.blk.voice (256 * h + k)).startFrame = x.frame.getD 0 ∧
        (t.blk.voice (256 * h + k)).startPick = s.blk.pickNo ∧ (t.blk.voice (256 * h + k)).offset = x.offset ∧
        (t.blk.voice (256 * h + k)).cost = c ∧ (t.blk.voice (256 * h + k)).charged = true) ∧
      s.otherVoices (256 * h + k) t) ∧ t.blk.note s.blk.alc.nextNote = some (noteOf x) ∧ t.blk.alc.started = s.blk.alc.started + 1 ∧
      unitsUsed t.blk s.blk.pickNo h = unitsUsed s.blk s.blk.pickNo h + 1 ∧
      ∃ a, t.blk.dlr.applies = s.blk.dlr.applies ++ [a] ∧ a.voice = 256 * h + k ∧ a.op = 1 ∧ a.init = true ∧ a.offset = x.offset ∧
        a.data = BitVec.ofNat 32 (x.ev.bits 15 0) := by
  have hsolo := (noteOn_solo (b := s.blk.popped rest) hp hm hid hl).trans (startNote_of_open hopen)
  obtain ⟨h, k, d, hh, hk, hbest, hst, heq⟩ := startLayers_one (b := numbered (noteOf x) (s.blk.popped rest)) (x := x)
    (k := s.blk.alc.nextNote) (j := j) (nt := noteOf x) hr hu hc hs hroom
  have hk256 : (256 * h + k) / 256 = h := by
    have hlt := mem_freeSlots_lt hk
    omega
  have hnote : d.note s.blk.alc.nextNote = some (noteOf x) :=
    (congrArg (FMap.get (fun _ => none) · s.blk.alc.nextNote) hst.notes).trans (numbered_note (noteOf x) (s.blk.popped rest))
  have hend := hsolo.trans heq
  have honly : setLastPitch (noteOf x).part (noteOf x).key ly.template (attrOf x.ev.ext) d =
      { d with alc := (setLastPitch (noteOf x).part (noteOf x).key ly.template (attrOf x.ev.ext) d).alc } := rfl
  have hvs : (setLastPitch (noteOf x).part (noteOf x).key ly.template (attrOf x.ev.ext) d).alc.voices = d.alc.voices := rfl
  have hns : (setLastPitch (noteOf x).part (noteOf x).key ly.template (attrOf x.ev.ext) d).alc.notes = d.alc.notes := rfl
  have hss : (setLastPitch (noteOf x).part (noteOf x).key ly.template (attrOf x.ev.ext) d).alc.started = d.alc.started := rfl
  generalize setLastPitch (noteOf x).part (noteOf x).key ly.template (attrOf x.ev.ext) d = e at hend honly hvs hns hss
  have hefe : e.efe = (takeUnit s.blk.pickNo h (numbered (noteOf x) (s.blk.popped rest))).efe := by
    rw [AlcOnly.efe honly, hst.efe, hk256]
    rfl
  have hdonly := hst.only
  refine released_acts hlive hq hfront hend ?sys ?efe fun t ha => ?_
  case sys => exact (AlcOnly.sys honly).trans ((congrArg Block.sys hdonly).trans rfl)
  case efe =>
    rw [hefe]
    rfl
  have hv (u : Nat) : t.blk.voice u = d.voice u := (ha.voice u).trans (congrArg (FMap.get (fun _ => ({} : Voice)) · u) hvs)
  obtain ⟨a, happ, hav, hop, hinit, hoff, hdata⟩ := hst.applies
  obtain ⟨hpart, hkey, hlayer, htmpl, hprog⟩ := hst.place
  obtain ⟨hframe, hpick, hoffset⟩ := hst.time
  obtain ⟨hcost, hcharged⟩ := hst.sums
  refine ⟨h, k, hh, hk, hbest, ⟨?voice, fun u hu => (hv u).trans (hst.others u hu), ?mem⟩, ?note, ?started, ?unit, a, ?applies, hav, hop,
    hinit, hoff, ?data⟩
  case voice =>
    rw [hv]
    exact ⟨hst.st, hst.note, hpart, hkey, hlayer, htmpl, hprog, hframe, hpick, hoffset, hcost, hcharged⟩
  case mem => exact ha.mem.trans ((AlcOnly.mem honly).trans ((congrArg Block.mem hdonly).trans rfl))
  case note => exact (ha.note _).trans ((congrArg (FMap.get (fun _ => none) · s.blk.alc.nextNote) hns).trans hnote)
  case started => exact (congrArg Alloc.started ha.alc).trans (hss.trans hst.started)
  case unit => exact (unitsUsed_of_efe (ha.efe.trans hefe) _ _).trans (unitsUsed_takeUnit _ _)
  case applies => exact (congrArg Dealer.applies (ha.dlr.trans (AlcOnly.dlr honly))).trans happ
  case data =>
    have hz : noteData (noteOf x) = BitVec.ofNat 32 (x.ev.bits 15 0 + x.ev.bits 23 16 * 65536) := rfl
    rw [hdata, hz, hid, Nat.zero_mul, Nat.add_zero]

end

end Sys2Proof.Machine

namespace Sys2Proof.Machine

theorem perNoteValue_control (v p o c val : Nat) (b : Block) : perNoteValue 5 v p o c val b = writePnv v p o c val b := rfl

theorem pickNo_popped (b : Block) (rest : List Timed) : (b.popped rest).pickNo = b.pickNo := rfl

section
variable {s : State} {x : Timed} {rest : List Timed} (hlive : s.live) (hq : s.blk.quiet)
include hlive hq

/-- A NOTE_OFF of a POLY part ends the note that it finds, or a pedal keeps it (R127, R129). -/
theorem noteOff_acts (hfront : s.front 2 x rest) {k : Nat} {nt : Note} (hkind : x.ev.kind ≠ 1) (hm : (s.blk.part x.ev.part).mode = 0)
    (hf : findNote s.blk x.ev.part x.ev.key (x.ev.bits 23 16) = some k) (hk : s.blk.note k = some nt) (hr : nt.released = false)
    (hp : pedalHolds s.blk nt = false) :
    s.actsThen rest .noteOff (s.noteEnded k nt (x.ev.bits 15 0) x.offset) := by
  have hend : noteOff x (s.blk.popped rest) = _ := noteOff_endNote hkind hm hf
  refine note_acts hlive hq hfront ?_ fun t _ ht => ht
  rw [hend]
  exact endNote_releases ⟨AlcOnly.refl _, rfl, fun _ _ => rfl⟩ hk hr (Or.inl hp)

theorem noteOff_held_acts (hfront : s.front 2 x rest) {k : Nat} {nt : Note} (hkind : x.ev.kind ≠ 1) (hm : (s.blk.part x.ev.part).mode = 0)
    (hf : findNote s.blk x.ev.part x.ev.key (x.ev.bits 23 16) = some k) (hk : s.blk.note k = some nt) (hr : nt.released = false)
    (hp : pedalHolds s.blk nt = true) :
    s.actsThen rest .noteOff fun t =>
      t.blk.note k = some { nt with released := true, relVel := x.ev.bits 15 0, sustained := true } ∧
      t.blk.alc = { s.blk.alc with notes := t.blk.alc.notes } ∧ t.blk.mem = s.blk.mem := by
  have hend : noteOff x (s.blk.popped rest) = _ := (noteOff_endNote (b := s.blk.popped rest) hkind hm hf).trans (endNote_held hk hr hp)
  refine released_acts hlive hq hfront hend rfl rfl fun t ha => ⟨?_, ?_, ha.mem⟩
  · exact (ha.note k).trans (Block.note_setNote_same _ k _)
  · rw [ha.alc]
    rfl

/-- A NOTE_OFF to a sounding voice. -/
theorem noteOff_voice_acts (hfront : s.front 2 x rest) (hkind : x.ev.kind = 1) (hs : (s.blk.voice x.ev.index).st = .sounding) :
    s.actsThen rest .noteOff fun t => ((t.blk.voice x.ev.index).st = .released ∧
      (t.blk.voice x.ev.index).relFrame = s.blk.pickNo * s.blk.pick + s.blk.lOut + x.offset ∧
      t.blk.dlr.applies = s.blk.dlr.applies ++
        [{ voice := x.ev.index, op := 2, data := x.ev.data, offset := x.offset, cmd := (s.blk.voice x.ev.index).cmdNo }]) ∧
      s.otherVoices x.ev.index t := by
  obtain ⟨-, hop⟩ := id hfront
  have hv : VoiceOff (s.blk.popped rest) x.ev.index x (noteOff x (s.blk.popped rest)) := by
    rw [show noteOff x (s.blk.popped rest) = _ from if_pos hkind]
    exact noteOffVoice_releases hs
  generalize hc : noteOff x (s.blk.popped rest) = c at hv
  have hefe : c.efe = (s.blk.popped rest).efe := (congrArg Block.efe hv.only).trans rfl
  refine released_acts hlive hq hfront hc ((congrArg Block.sys hv.only).trans rfl) (efe_of_popped hefe) fun t ha => ?_
  refine ⟨⟨?_, ?_, ?_⟩, fun u hu => (ha.voice u).trans (hv.others u hu), ha.mem.trans ((congrArg Block.mem hv.only).trans rfl)⟩
  · rw [ha.voice]
    exact hv.st
  · rw [ha.voice]
    exact hv.relFrame
  · rw [ha.dlr, hv.applies, hop]
    rfl

/-- Pressures of a note's voices (R56). -/
theorem pressure_acts (hfront : s.front 3 x rest) (hkind : x.ev.kind ≠ 1) :
    s.actsThen rest .polyPressure fun t => t.blk.mem = s.blk.mem ∧ ∀ v, (t.blk.voice v).bare = (s.blk.voice v).bare ∧
      (t.blk.voice v).pnBend = (s.blk.voice v).pnBend ∧ (t.blk.voice v).pressure =
        if v ∈ (addressed s.blk x.ev.part x.ev.key (x.ev.bits 23 16)).map (·.1) then x.ev.bits 15 0 else (s.blk.voice v).pressure := by
  have hp := pressure_foldl x.ev.part 0 (x.ev.bits 15 0) x.offset (addressed s.blk x.ev.part x.ev.key (x.ev.bits 23 16)) (s.blk.popped rest)
  have he : perNoteEvent 3 x (s.blk.popped rest) = _ := perNoteEvent_note hkind _
  refine released_acts hlive hq hfront he hp.pn.only.sys (efe_of_popped hp.pn.only.efe) fun t ha => ?_
  · refine ⟨ha.mem.trans hp.pn.only.mem, fun v => ?_⟩
    rw [ha.voice]
    exact ⟨hp.pn.bare v, hp.bend v, hp.value v⟩

/-- Per-note bends of a note's voices (R56). -/
theorem pnBend_acts (hfront : s.front 7 x rest) (hkind : x.ev.kind ≠ 1) :
    s.actsThen rest .pnBend fun t => t.blk.mem = s.blk.mem ∧ ∀ v, (t.blk.voice v).bare = (s.blk.voice v).bare ∧
      (t.blk.voice v).pressure = (s.blk.voice v).pressure ∧ (t.blk.voice v).pnBend =
        if v ∈ (addressed s.blk x.ev.part x.ev.key (x.ev.bits 23 16)).map (·.1) then x.ev.bits 15 0 else (s.blk.voice v).pnBend := by
  have hp := bend_foldl x.ev.part 0 (x.ev.bits 15 0) x.offset (addressed s.blk x.ev.part x.ev.key (x.ev.bits 23 16)) (s.blk.popped rest)
  have he : perNoteEvent 7 x (s.blk.popped rest) = _ := perNoteEvent_note hkind _
  refine released_acts hlive hq hfront he hp.pn.only.sys (efe_of_popped hp.pn.only.efe) fun t ha => ?_
  · refine ⟨ha.mem.trans hp.pn.only.mem, fun v => ?_⟩
    rw [ha.voice]
    exact ⟨hp.pn.bare v, hp.pressure v, hp.value v⟩

/-- A per-note controller of a note of one voice (R203). -/
theorem pnControl_acts (hfront : s.front 5 x rest) (hkind : x.ev.kind ≠ 1) {v : Nat} {y : Voice}
    (ha : addressed s.blk x.ev.part x.ev.key (x.ev.bits 23 16) = [(v, y)]) :
    s.actsThen rest .pnControl fun t =>
      (∀ j, j < 4 → Memory.num t.blk.mem (ctxBase v + 0x3F4 + 2 * j) 2 =
        if Memory.num s.blk.mem (ctxBase v + 0x3F0 + j) 1 = x.ev.bits 31 24 ∧ x.ev.bits 31 24 ≠ 255 then x.ev.bits 15 0
        else Memory.num s.blk.mem (ctxBase v + 0x3F4 + 2 * j) 2) ∧
      (∀ a, a < ctxBase v + 0x3F4 ∨ ctxBase v + 0x3FC ≤ a → Memory.byte t.blk.mem a = Memory.byte s.blk.mem a) ∧
      ∀ u, (t.blk.voice u).bare = (s.blk.voice u).bare := by
  have hs := writePnv_slots v s.blk.pickNo x.offset (x.ev.bits 31 24) (Ev.bits_lt x.ev) (s.blk.popped rest)
  have hpop : addressed (s.blk.popped rest) x.ev.part x.ev.key (x.ev.bits 23 16) = [(v, y)] := ha
  have he : perNoteEvent 5 x (s.blk.popped rest) = mirror x.ev.part (.pnCtl v (x.ev.bits 31 24)) (x.ev.bits 15 0 : Int) x.offset
      (writePnv v s.blk.pickNo x.offset (x.ev.bits 31 24) (x.ev.bits 15 0) (s.blk.popped rest)) := by
    rw [perNoteEvent_note hkind, hpop, List.foldl_cons, List.foldl_nil, if_pos rfl, perNoteValue_control, pickNo_popped]
    rfl
  generalize writePnv v s.blk.pickNo x.offset (x.ev.bits 31 24) (x.ev.bits 15 0) (s.blk.popped rest) = d at hs he
  have honly := hs.only
  have hefe : d.efe = (s.blk.popped rest).efe := (congrArg Block.efe honly).trans rfl
  refine released_acts hlive hq hfront he ((congrArg Block.sys honly).trans rfl) (efe_of_popped (c := d) hefe) fun t ht =>
    ⟨fun j hj => ?slot, fun a h => ?other, fun u => ?bare⟩
  case slot =>
    rw [ht.mem]
    exact (hs.slot j hj).trans (ite_of_iff (and_iff_right hj) rfl rfl)
  case other =>
    rw [ht.mem]
    exact hs.other a h
  case bare =>
    rw [ht.voice]
    exact hs.bare u

/-- A pedal that kept the one note of its part goes up (R129). -/
theorem pedal_up_acts (hfront : s.front 0x12 x rest) {k : Nat} {nt : Note} (hw : x.ev.bits 1 0 = 0)
    (h1 : 0x8000 ≤ (s.blk.part x.ev.part).sustain) (h2 : x.ev.bits 31 16 < 0x8000) (hn : partNotes s.blk x.ev.part = [(k, nt)])
    (hk : s.blk.note k = some nt) (hs : nt.sustained = true) (hl : nt.latched = false) :
    s.actsThen rest .pedal fun t =>
      (t.blk.part x.ev.part).sustain = x.ev.bits 31 16 ∧ s.noteEnded k nt nt.relVel x.offset t := by
  have he : pedal x (s.blk.popped rest) = _ :=
    (pedal_eq _).trans ((congrArg (fun w => setPedal x.ev.part w (x.ev.bits 31 16) x.offset (s.blk.popped rest)) hw).trans
      (setPedal_up h1 h2 hn hs hl))
  have hmoved := PartWork.setMirror (s.blk.popped rest) x.ev.part { s.blk.part x.ev.part with sustain := x.ev.bits 31 16 } .sustain
    (x.ev.bits 31 16 : Nat) x.offset
  have hbefore : BeforeRelease (s.blk.popped rest) k (mirror x.ev.part .sustain (x.ev.bits 31 16 : Nat) x.offset
      ((s.blk.popped rest).setPart x.ev.part { s.blk.part x.ev.part with sustain := x.ev.bits 31 16 })) := ⟨rfl, rfl, fun _ _ => rfl⟩
  have hk' : (mirror x.ev.part .sustain (x.ev.bits 31 16 : Nat) x.offset
      ((s.blk.popped rest).setPart x.ev.part { s.blk.part x.ev.part with sustain := x.ev.bits 31 16 })).note k = some nt := hk
  have hrel := releaseNote_releases hbefore hk' x.offset
  have hparts := releaseNote_parts k x.offset (mirror x.ev.part .sustain (x.ev.bits 31 16 : Nat) x.offset
      ((s.blk.popped rest).setPart x.ev.part { s.blk.part x.ev.part with sustain := x.ev.bits 31 16 }))
  refine note_acts hlive hq hfront (he ▸ hrel) fun t ht hend => ⟨?_, hend⟩
  rw [ht.part, he]
  exact congrArg Part.sustain ((congrArg (FMap.get (fun _ => ({} : Part)) · x.ev.part) hparts).trans hmoved.part)

/-- ALL_OFF ends the one note of its part (R131). -/
theorem allOff_acts (hfront : s.front 0x0B x rest) {k : Nat} {nt : Note} (hkind : x.ev.kind ≠ 3) (hn : partNotes s.blk x.ev.part = [(k, nt)])
    (hk : s.blk.note k = some nt) (hb : nt.booked = false) (hr : nt.released = false) (hf : noteFading s.blk k = false)
    (hp : x.ev.oflags % 2 = 1 ∨ pedalHolds s.blk nt = false) :
    s.actsThen rest .allOff fun t => s.noteEnded k nt 0x8000 x.offset t ∧ (t.blk.part x.ev.part).keys = [] := by
  have he : allOff x (s.blk.popped rest) = _ :=
    (if_neg hkind).trans (allOffPart_one (x.ev.oflags % 2 == 1) (b := s.blk.popped rest) hn hb hf)
  have hend : NoteReleased (s.blk.popped rest) k nt 0x8000 x.offset
      (endNote k 0x8000 x.offset (x.ev.oflags % 2 == 1) (s.blk.popped rest)) :=
    endNote_releases ⟨AlcOnly.refl _, rfl, fun _ _ => rfl⟩ hk hr (hp.symm.imp_right fun h => beq_iff_eq.mpr h)
  generalize endNote k 0x8000 x.offset (x.ev.oflags % 2 == 1) (s.blk.popped rest) = d at he hend
  refine note_acts hlive hq hfront (he ▸ hend.setPart _ _) fun t ht hd => ⟨hd, ?_⟩
  rw [ht.part, he, Block.part_setPart_same]

/-- KILL of one voice (R105). -/
theorem kill_voice_acts (hfront : s.front 0x0A x rest) (hkind : x.ev.kind = 1)
    (hs : (s.blk.voice x.ev.index).st = .sounding ∨ (s.blk.voice x.ev.index).st = .released)
    (hn : (s.blk.voice x.ev.index).next = none) :
    s.actsThen rest .kill fun t => ((t.blk.voice x.ev.index).st = .fading ∧
      (t.blk.voice x.ev.index).fadeLen = killFade s.blk x.ev.index (x.ev.bits 9 0) ∧ (t.blk.voice x.ev.index).fadePos = 0 ∧
      (t.blk.voice x.ev.index).fadePick = s.blk.pickNo) ∧ s.otherVoices x.ev.index t := by
  have hnf : (s.blk.voice x.ev.index).st ≠ .free ∧ (s.blk.voice x.ev.index).st ≠ .booked := by
    rcases hs with h | h <;> rw [h] <;> exact ⟨VState.noConfusion, VState.noConfusion⟩
  have he : kill x (s.blk.popped rest) = _ := (if_pos hkind).trans (if_neg fun e => hnf.1 (beq_iff_eq.mp e))
  have hfd : Faded (s.blk.popped rest) (· = x.ev.index) (x.ev.bits 9 0) _ := startFade_faded hn hnf.2
  refine released_acts hlive hq hfront he hfd.only.sys (efe_of_popped hfd.only.efe) fun t ht => ?_
  · have hv (u : Nat) := (ht.voice u).trans (hfd.voice u)
    refine ⟨?_, fun u hu => (hv u).trans (if_neg hu), ht.mem.trans hfd.only.mem⟩
    rw [((hv _).trans (if_pos rfl)).trans (Voice.faded_of_plays (s.blk.voice x.ev.index) _ s.blk.pickNo hs)]
    exact ⟨rfl, rfl, rfl, rfl⟩

/-- KILL of a part, or of every voice. -/
theorem kill_all_acts (hfront : s.front 0x0A x rest) (hkind : x.ev.kind ≠ 1) (hb : s.blk.unbooked) :
    s.actsThen rest .kill fun t => t.blk.mem = s.blk.mem ∧ ∀ v,
      (v ∈ ((voicesOf s.blk).filter fun kv => x.ev.kind == 3 || kv.2.part == x.ev.part).map (·.1) →
        (s.blk.voice v).st = .sounding ∨ (s.blk.voice v).st = .released →
        (t.blk.voice v).st = .fading ∧ (t.blk.voice v).fadeLen = killFade s.blk v (x.ev.bits 9 0) ∧ (t.blk.voice v).fadePos = 0 ∧
        (t.blk.voice v).fadePick = s.blk.pickNo) ∧
      (v ∉ ((voicesOf s.blk).filter fun kv => x.ev.kind == 3 || kv.2.part == x.ev.part).map (·.1) → t.blk.voice v = s.blk.voice v) := by
  have he : kill x (s.blk.popped rest) = _ := if_neg hkind
  have hfd := faded_foldl (x.ev.bits 9 0) ((voicesOf s.blk).filter fun kv => x.ev.kind == 3 || kv.2.part == x.ev.part)
    (b := s.blk.popped rest) hb
  refine released_acts hlive hq hfront he hfd.only.sys (efe_of_popped hfd.only.efe) fun t ht => ?_
  · have hv (u : Nat) := (ht.voice u).trans (hfd.voice u)
    refine ⟨ht.mem.trans hfd.only.mem, fun v => ⟨fun hin hs => ?_, fun hout => (hv v).trans (if_neg hout)⟩⟩
    rw [((hv v).trans (if_pos hin)).trans (Voice.faded_of_plays (s.blk.voice v) _ s.blk.pickNo hs)]
    exact ⟨rfl, rfl, rfl, rfl⟩

/-- BUS_PARAM of a bus that runs on one loom (R261). -/
theorem busParam_acts (hfront : s.front 0x0C x rest) {l : Nat} {e : Entry} (hl : l < 4) (he : entryFor s.blk l x.ev.index = some e)
    (ho : ∀ l', l' < 4 → l' ≠ l → entryFor s.blk l' x.ev.index = none) :
    (busInService s.blk l x.ev.index = false → s.actsThen rest .busParam fun t => t.blk.mix = s.blk.mix ∧
      t.blk.mem = Memory.setNum s.blk.mem (loomBase l + parBase s.blk l e.ix + x.ev.bits 9 0) 2 (x.ev.bits 31 16)) ∧
    (busInService s.blk l x.ev.index = true → s.actsThen rest .busParam fun t => t.blk.mem = s.blk.mem ∧
      t.blk.mix = { s.blk.mix with deferred := s.blk.mix.deferred ++ [(l, x.ev.index, x.ev.bits 9 0, x.ev.bits 31 16)] }) := by
  have hone : busParam x (s.blk.popped rest) = _ := busParam_one hl ho
  refine ⟨fun hs => ?_, fun hs => ?_⟩
  · exact released_acts hlive hq hfront (hone.trans (busParamOn_write (b := s.blk.popped rest) he hs)) rfl rfl fun t ht => ⟨ht.mix, ht.mem⟩
  · exact released_acts hlive hq hfront (hone.trans (busParamOn_wait (b := s.blk.popped rest) he hs)) rfl rfl fun t ht => ⟨ht.mem, ht.mix⟩

/-- CV_SET of a channel that plays events (R297). -/
theorem cvSet_acts (hfront : s.front 0x0D x rest) (hs : cvSrc s.blk (x.ev.index % 32) = 0) (hon : s.blk.on (CVO_CH_CFG_en (x.ev.index % 32))) :
    let n := x.ev.index % 32
    let e : CvEntry := { frame := s.blk.pickNo * s.blk.pick + s.blk.lOut + x.offset, src := 0, value := BitVec.ofNat 32 (x.ev.bits 15 0)
                         bypass := x.ev.oflags % 2 == 1, good := true }
    s.actsThen rest .cvSet fun t =>
      cvChan t.blk n = { cvChan s.blk n with
        entries := ((cvChan s.blk n).entries.filter fun y => !(y.frame == e.frame && y.src == 0)) ++ [e] } ∧
      (∀ k, k ≠ n → cvChan t.blk k = cvChan s.blk k) ∧ t.blk.mem = s.blk.mem ∧ sameRegsBut [CVO_STAT] s t := by
  intro n e
  have he : cvSet x (s.blk.popped rest) = cvPush n e (s.blk.popped rest) := cvSet_push hs hon
  refine released_acts hlive hq hfront he rfl rfl fun t ht => ?_
  have hc (k : Nat) : cvChan t.blk k = cvChan (cvPush n e (s.blk.popped rest)) k := by
    unfold cvChan
    rw [ht.cvo]
  refine ⟨?_, fun k hk => ?_, ht.mem, fun a h => ht.rd a fun h' => h (by rw [h']; exact List.mem_singleton.mpr rfl)⟩
  · rw [hc]
    exact (cvChan_setCvChan n _ _ n).trans (if_pos rfl)
  · rw [hc]
    exact (cvChan_setCvChan n _ _ k).trans (if_neg hk)

end

end Sys2Proof.Machine

namespace Sys2Proof.Machine

/-- Settles O25: each command takes its event, and each kind's effect is the lemma named for it. -/
theorem releasedEventsAct : Obligations.ReleasedEventsAct := by
  unfold Obligations.ReleasedEventsAct
  refine ⟨fun s x rest hlive => ?taken, fun s x rest hlive hq => ?effects⟩
  case taken =>
    have taken {op : Nat} (f : Timed → Block → Block) (hf : s.front op x rest) := run_onReleased hlive hf f
    exact ⟨taken _, taken _, taken _, taken _, taken _, taken _, taken _, taken _, taken _, taken _, taken _, taken _, taken _, taken _⟩
  case effects =>
    refine ⟨?noteOn, ?noteOff, ?noteOffVoice, ?perNote, ⟨?inUse, ?free⟩, ?control, ?pitchBend, ⟨?sustain, ?sostenuto, ?soft, ?pedalUp⟩,
      ⟨?tuneTable, ?tuneFine, ?tuneBoth⟩, ⟨?killVoice, ?killAll, ?allOff⟩, ?busParam, ?cvSet⟩
    case noteOn => exact fun j ly c hp hm hr hid hl hu ho hc hs hroom hf => noteOn_acts hlive hq hf hp hm hr hid hl hu ho hc hs hroom
    case noteOff =>
      exact fun k nt hkind hm hf hk hr => ⟨fun hp hfront => noteOff_acts hlive hq hfront hkind hm hf hk hr hp,
        fun hp hfront => noteOff_held_acts hlive hq hfront hkind hm hf hk hr hp⟩
    case noteOffVoice => exact fun hkind hs hf => noteOff_voice_acts hlive hq hf hkind hs
    case perNote =>
      exact fun hkind => ⟨fun hf => pressure_acts hlive hq hf hkind, fun hf => pnBend_acts hlive hq hf hkind,
        fun v y ha hf => pnControl_acts hlive hq hf hkind ha⟩
    case inUse =>
      refine fun hs => ⟨fun hf => card_acts hlive hq hf ?_ (param_voice hs), fun hkind => ⟨fun hf => ?_, fun hf => ?_, fun hf => ?_⟩⟩
      · exact Bool.and_false _
      all_goals exact card_acts hlive hq hf (Bool.and_true _) (perNoteEvent_voice hkind hs)
    case free =>
      exact fun hs => ⟨fun hf => stale_acts hlive hq hf (param_stale hs), fun hkind =>
        ⟨fun hf => stale_acts hlive hq hf (noteOff_stale hkind hs), fun hf => stale_acts hlive hq hf (perNoteEvent_stale hkind hs),
          fun hf => stale_acts hlive hq hf (perNoteEvent_stale hkind hs), fun hf => stale_acts hlive hq hf (perNoteEvent_stale hkind hs),
          fun hf => stale_acts hlive hq hf (kill_stale hkind hs)⟩⟩
    case control =>
      intro hext hf
      refine part_acts hlive hq hf ?_
      rw [control_sets hext]
      exact PartWork.setMirror _ _ _ _ _ _
    case pitchBend => exact fun hf => part_acts hlive hq hf (PartWork.setMirror _ _ _ _ _ _)
    case sustain =>
      intro hw hmoves hf
      refine part_acts hlive hq hf ?_
      rw [pedal_eq, hw, setPedal_sustain (b := s.blk.popped rest) hmoves]
      exact PartWork.setMirror _ _ _ _ _ _
    case sostenuto =>
      intro hw hmoves hf
      refine part_acts hlive hq hf ?_
      rw [pedal_eq, hw, setPedal_sostenuto (b := s.blk.popped rest) hmoves]
      exact PartWork.setMirror _ _ _ _ _ _
    case soft =>
      intro hw hf
      refine part_acts hlive hq hf ?_
      rw [pedal_eq, hw]
      exact PartWork.setMirror _ _ _ _ _ _
    case pedalUp => exact fun k nt hw h1 h2 hn hk hs hl hf => pedal_up_acts hlive hq hf hw h1 h2 hn hk hs hl
    case tuneTable =>
      intro hfl hf
      refine part_acts hlive hq hf ?_
      rw [tune_table hfl]
      exact PartWork.set _ _ _
    case tuneFine =>
      intro hfl hf
      refine part_acts hlive hq hf ?_
      rw [tune_fine hfl]
      exact PartWork.setMirror _ _ _ _ _ _
    case tuneBoth => exact fun hfl hf => part_acts hlive hq hf (tune_both hfl)
    case killVoice => exact fun hkind hs hn hf => kill_voice_acts hlive hq hf hkind hs hn
    case killAll => exact fun hkind hb hf => kill_all_acts hlive hq hf (by omega) hb
    case allOff => exact fun k nt hkind hn hk hb hr hfd hp hf => allOff_acts hlive hq hf hkind hn hk hb hr hfd hp
    case busParam =>
      exact fun l e hl he ho => ⟨fun hs hf => (busParam_acts hlive hq hf hl he ho).1 hs, fun hs hf => (busParam_acts hlive hq hf hl he ho).2 hs⟩
    case cvSet => exact fun hs hon hf => cvSet_acts hlive hq hf hs hon

end Sys2Proof.Machine

namespace Sys2Proof.Machine

/-! ### What leaves the compute die's reset alone (R375)

No register access and no section of an image releases the compute die from its reset, or puts it there: a write of SYS_RST only asks for
that. One equation for each function of the model that a write of a register can reach. -/

@[simp] theorem held_ite (p : Prop) [Decidable p] (b c : Block) :
    (if p then b else c).sys.held = if p then b.sys.held else c.sys.held := apply_ite (fun x : Block => x.sys.held) p b c

/-- What every step of a loop leaves alone, the loop leaves alone. -/
theorem foldl_keeps {α β γ : Type} {F : β → γ} {f : β → α → β} (h : ∀ b x, F (f b x) = F b) (l : List α) (b : β) :
    F (l.foldl f b) = F b := by
  induction l generalizing b with
  | nil => rfl
  | cons x l ih => exact (ih (f b x)).trans (h b x)

theorem held_foldl {α : Type} {f : Block → α → Block} (h : ∀ b x, (f b x).sys.held = b.sys.held) (l : List α) (b : Block) :
    (l.foldl f b).sys.held = b.sys.held := foldl_keeps (F := fun c : Block => c.sys.held) h l b

section
variable (b : Block)

/-! #### The time base and the events -/

@[simp] theorem writeZones_held (g : Nat) (v : Word) : (writeZones g v b).sys.held = b.sys.held := by simp [writeZones]
@[simp] theorem setRunning_held (n v : Nat) : (setRunning n v b).sys.held = b.sys.held := rfl
@[simp] theorem timerReload_held (n : Nat) (v : Word) : (timerReload n v b).sys.held = b.sys.held := by simp [timerReload]
@[simp] theorem askStop_held : (askStop b).sys.held = b.sys.held := by simp [askStop]
@[simp] theorem writeTempo_held (v : Word) : (writeTempo v b).sys.held = b.sys.held := by simp [writeTempo]
@[simp] theorem writeTempoCfg_held (v : Word) : (writeTempoCfg v b).sys.held = b.sys.held := by simp [writeTempoCfg]
@[simp] theorem compareFire_held (n : Nat) : (compareFire n b).sys.held = b.sys.held := by simp [compareFire]
@[simp] theorem compareArm_held (n : Nat) (v : Long) : (compareArm n v b).sys.held = b.sys.held := by simp [compareArm]
@[simp] theorem compareCfg_held (n : Nat) (v : Word) : (compareCfg n v b).sys.held = b.sys.held := by simp [compareCfg]
@[simp] theorem captureTake_held (n : Nat) : (captureTake n b).sys.held = b.sys.held := by simp [captureTake]
@[simp] theorem refCfgWrite_held (v : Word) : (refCfgWrite v b).sys.held = b.sys.held := by simp [refCfgWrite]
@[simp] theorem toutCfgWrite_held (v : Word) : (toutCfgWrite v b).sys.held = b.sys.held := by simp [toutCfgWrite]

@[simp] theorem efeCtlWrite_held (v : Word) : (efeCtlWrite v b).sys.held = b.sys.held := by
  unfold efeCtlWrite
  dsimp only
  rw [Block.setNum_sys, held_foldl fun c n => setRunning_held c n 0]

@[simp] theorem statusRead_held (n : Nat) : (statusRead n b).2.sys.held = b.sys.held := by
  unfold statusRead
  split <;> rfl

@[simp] theorem markRead_held : (markRead b).2.sys.held = b.sys.held := by
  unfold markRead
  split <;> rfl

/-! #### The Dealer, the shuttles and the queries -/

@[simp] theorem queryCommand_held (v : Word) : (queryCommand v b).sys.held = b.sys.held := by simp [queryCommand]
@[simp] theorem setCard_held (c : Card) : (setCard c b).sys.held = b.sys.held := rfl
@[simp] theorem noteDepth_held (d l t : Nat) : (noteDepth d l t b).sys.held = b.sys.held := rfl
@[simp] theorem noteSlack_held (l : Nat) (x : Int) : (noteSlack l x b).sys.held = b.sys.held := rfl
@[simp] theorem noteLateSlack_held (c : Card) (t : Nat) : (noteLateSlack c t b).sys.held = b.sys.held := by simp [noteLateSlack]
@[simp] theorem noteBusEnd_held (l t : Nat) : (noteBusEnd l t b).sys.held = b.sys.held := by simp [noteBusEnd]
@[simp] theorem checkGate_held (l t : Nat) : (checkGate l t b).sys.held = b.sys.held := by simp [checkGate]

@[simp] theorem releaseHeld_held (flow t : Nat) : (releaseHeld flow t b).sys.held = b.sys.held := by
  unfold releaseHeld
  split <;> simp

@[simp] theorem finishCard_held (c : Card) (x : Status) (t : Nat) : (finishCard c x t b).sys.held = b.sys.held := by simp [finishCard]
@[simp] theorem cancelResult_held (r : Nat) : (cancelResult r b).sys.held = b.sys.held := by simp [cancelResult]

@[simp] theorem dlrCancel_held (v : Word) (t : Nat) : (dlrCancel v t b).sys.held = b.sys.held := by
  unfold dlrCancel
  dsimp only
  split
  · simp
  · split
    · simp
    · split
      · simp
      · split <;> simp

@[simp] theorem snapPend_held (x t : Nat) : (snapPend x t b).sys.held = b.sys.held := by simp [snapPend]
@[simp] theorem snapRequest_held : (snapRequest b).sys.held = b.sys.held := by simp [snapRequest]
@[simp] theorem snapCancel_held : (snapCancel b).sys.held = b.sys.held := by simp [snapCancel]
@[simp] theorem tapRequest_held (v : Word) : (tapRequest v b).sys.held = b.sys.held := by simp [tapRequest]

/-! #### The mix and the outputs -/

@[simp] theorem liveWrite_held (v : Word) : (liveWrite v b).sys.held = b.sys.held := by simp [liveWrite]
@[simp] theorem setLane_held (l : Nat) (x : Lane) : (setLane l x b).sys.held = b.sys.held := rfl
@[simp] theorem setInput_held (l : Nat) (x : Lane) : (setInput l x b).sys.held = b.sys.held := rfl
@[simp] theorem cromRead_held : (cromRead b).2.sys.held = b.sys.held := by simp [cromRead]

@[simp] theorem askSet_held (a set k : Nat) : (askSet a set k b).2.2.sys.held = b.sys.held := by
  unfold askSet
  split
  · simp
  · split <;> simp

@[simp] theorem laneWrite_held (l : Nat) (v : Word) : (laneWrite l v b).sys.held = b.sys.held := by
  unfold laneWrite
  dsimp only
  split <;> simp

@[simp] theorem inputWrite_held (l : Nat) (v : Word) : (inputWrite l v b).sys.held = b.sys.held := by
  unfold inputWrite
  dsimp only
  split <;> simp

@[simp] theorem writeTails_held : (writeTails b).sys.held = b.sys.held := by
  unfold writeTails
  exact held_foldl (fun c _ => held_foldl (by exact fun _ _ => rfl) _ c) _ b

@[simp] theorem computeLout_held : (computeLout b).sys.held = b.sys.held := by simp [computeLout]
@[simp] theorem setCvChan_held (n : Nat) (c : CvChan) : (setCvChan n c b).sys.held = b.sys.held := rfl
@[simp] theorem cvIgnored_held : (cvIgnored b).sys.held = b.sys.held := by simp [cvIgnored]
@[simp] theorem cvEnable_held (n : Nat) : (cvEnable n b).sys.held = b.sys.held := rfl
@[simp] theorem cvCfgWrite_held (n : Nat) (v : Word) : (cvCfgWrite n v b).sys.held = b.sys.held := by simp [cvCfgWrite]
@[simp] theorem cvValWrite_held (n : Nat) (v : Word) : (cvValWrite n v b).sys.held = b.sys.held := by simp [cvValWrite]
@[simp] theorem setSapPort_held (n : Nat) (p : SapPort) : (setSapPort n p b).sys.held = b.sys.held := rfl
@[simp] theorem sapPending_held (n : Nat) : (sapPending n b).sys.held = b.sys.held := rfl
@[simp] theorem sapCfgWrite_held (n : Nat) (v : Word) : (sapCfgWrite n v b).sys.held = b.sys.held := by simp [sapCfgWrite]
@[simp] theorem sapCtlWrite_held (n : Nat) (v : Word) : (sapCtlWrite n v b).sys.held = b.sys.held := by simp [sapCtlWrite]

/-! #### Memory and DMA -/

@[simp] theorem noteDecode_held (a m i : Nat) (w c : Bool) : (noteDecode a m i w c b).sys.held = b.sys.held := by simp [noteDecode]
@[simp] theorem bankPending_held (n : Nat) (on : Bool) : (bankPending n on b).sys.held = b.sys.held := by simp [bankPending]
@[simp] theorem bankWrite_held (n : Nat) (v : Word) : (bankWrite n v b).sys.held = b.sys.held := by simp [bankWrite]
@[simp] theorem dmaFinish_held (c r e n : Nat) : (dmaFinish c r e n b).sys.held = b.sys.held := by simp [dmaFinish]
@[simp] theorem dmaStart_held (c : Nat) : (dmaStart c b).sys.held = b.sys.held := by simp [dmaStart]

@[simp] theorem dmaAbort_held (c : Nat) : (dmaAbort c b).sys.held = b.sys.held := by
  unfold dmaAbort
  split <;> simp

@[simp] theorem dmaCtlWrite_held (c : Nat) (v : Word) : (dmaCtlWrite c v b).sys.held = b.sys.held := by simp [dmaCtlWrite]
@[simp] theorem resetMaster_held (m n : Nat) : (resetMaster m n b).sys.held = b.sys.held := by simp [resetMaster]

/-! #### Power and the formats -/

@[simp] theorem noteGovWrite_held : (noteGovWrite b).sys.held = b.sys.held := rfl

@[simp] theorem governor_held : (governor b).sys.held = b.sys.held := by
  unfold governor
  dsimp only
  split <;> simp

@[simp] theorem recompute_held : (recompute b).sys.held = b.sys.held := by simp [recompute, held_foldl]

/-! #### The ring -/

@[simp] theorem setWeft_held (f : Weft → Weft) : (setWeft f b).sys.held = b.sys.held := rfl
@[simp] theorem wsend_held (x : WSend) : (wsend x b).sys.held = b.sys.held := rfl
@[simp] theorem probe_held : (probe b).sys.held = b.sys.held := rfl
@[simp] theorem enumStart_held : (enumStart b).sys.held = b.sys.held := by simp [enumStart]
@[simp] theorem weftWrapOk_held : (weftWrapOk b).sys.held = b.sys.held := by simp [weftWrapOk]
@[simp] theorem unwrapSend_held : (unwrapSend b).sys.held = b.sys.held := by simp [unwrapSend]
@[simp] theorem weftCtl_held (v : Word) : (weftCtl v b).sys.held = b.sys.held := by simp [weftCtl]
@[simp] theorem setD_held (d : Nat) : (setD d b).sys.held = b.sys.held := by simp [setD]
@[simp] theorem updateD_held : (updateD b).sys.held = b.sys.held := by simp [updateD]
@[simp] theorem bootBroadcast_held (n : Nat) : (bootBroadcast n b).sys.held = b.sys.held := by simp [bootBroadcast]

@[simp] theorem tunFinish_held (r : Nat) (d : Option Nat) : (tunFinish r d b).sys.held = b.sys.held := by
  unfold tunFinish
  dsimp only
  split <;> simp

@[simp] theorem tunCtl_held (v : Word) : (tunCtl v b).sys.held = b.sys.held := by simp [tunCtl]

/-! #### The system and the mailbox -/

@[simp] theorem doorbellClear_held : (doorbellClear b).sys.held = b.sys.held := rfl
@[simp] theorem sysRst_held (v : Word) : (sysRst v b).sys.held = b.sys.held := by simp [sysRst]
@[simp] theorem bootLenWrite_held (v : Word) : (bootLenWrite v b).sys.held = b.sys.held := by simp [bootLenWrite]
@[simp] theorem sysKick_held (m : Nat) (v : Word) : (sysKick m v b).sys.held = b.sys.held := by simp [sysKick]
@[simp] theorem formatNow_held : (formatNow b).sys.held = b.sys.held := by simp [formatNow]
@[simp] theorem sysCfgWrite_held (v : Word) : (sysCfgWrite v b).sys.held = b.sys.held := by simp [sysCfgWrite]
@[simp] theorem spiErrClear_held (v hw : Word) : (spiErrClear v hw b).sys.held = b.sys.held := by simp [spiErrClear]
@[simp] theorem unquarWrite_held (v : Word) : (unquarWrite v b).sys.held = b.sys.held := by simp [unquarWrite]
@[simp] theorem setMb_held (m : Option MbCmd) : (setMb m b).sys.held = b.sys.held := rfl

@[simp] theorem mbFinish_held (x : Nat) (r : List Byte) : (mbFinish x r b).sys.held = b.sys.held := by
  unfold mbFinish
  split <;> simp

@[simp] theorem mbGo_held : (mbGo b).sys.held = b.sys.held := by simp [mbGo]

@[simp] theorem mbCancel_held : (mbCancel b).sys.held = b.sys.held := by
  unfold mbCancel
  split <;> simp

@[simp] theorem mbCtl_held (v : Word) : (mbCtl v b).sys.held = b.sys.held := by simp [mbCtl]

/-! #### Security -/

@[simp] theorem trngDraw_held : (trngDraw b).2.sys.held = b.sys.held := rfl

@[simp] theorem trngRead_held : (trngRead b).2.sys.held = b.sys.held := by
  unfold trngRead
  split <;> rfl

@[simp] theorem dropNonce_held : (dropNonce b).sys.held = b.sys.held := by simp [dropNonce, held_foldl]
@[simp] theorem challenge_held : (challenge b).sys.held = b.sys.held := by simp [challenge, held_foldl]
@[simp] theorem unlockResult_held (r : Nat) : (unlockResult r b).sys.held = b.sys.held := by simp [unlockResult]
@[simp] theorem openScopes_held : (openScopes b).sys.held = b.sys.held := by simp [openScopes]
@[simp] theorem refuseResponse_held : (refuseResponse b).sys.held = b.sys.held := by simp [refuseResponse]
@[simp] theorem submitUnlock_held : (submitUnlock b).sys.held = b.sys.held := by simp [submitUnlock]
@[simp] theorem unlockWrite_held (v : Word) : (unlockWrite v b).sys.held = b.sys.held := by simp [unlockWrite]

/-! #### Accesses to registers -/

@[simp] theorem setRdShadow_held (m : Nat) (v : Word) : (setRdShadow m v b).sys.held = b.sys.held := rfl
@[simp] theorem setWrShadow_held (m : Nat) (v : Word) : (setWrShadow m v b).sys.held = b.sys.held := rfl
@[simp] theorem clearRc_held (h : RegHit) (hw : Nat) : (clearRc h hw b).sys.held = b.sys.held := by simp [clearRc]
@[simp] theorem tblRead_held : (tblRead b).2.sys.held = b.sys.held := by simp [tblRead]
@[simp] theorem writeCodes_held (h : RegHit) (v hw : Nat) : (writeCodes h v hw b).sys.held = b.sys.held := by simp [writeCodes]
@[simp] theorem setHw_held (h : RegHit) (hw : Nat) : (setHw h hw b).sys.held = b.sys.held := by simp [setHw]

end

end Sys2Proof.Machine

namespace Sys2Proof.Machine

section
variable (b : Block)

@[simp] theorem readHit_held (m : Nat) (h : RegHit) (hw : Word) : (readHit m h hw b).2.sys.held = b.sys.held := by
  unfold readHit
  dsimp only
  repeat' split
  all_goals simp

@[simp] theorem regRead_held (m a : Nat) (hw : Word) : (regRead m a hw b).2.sys.held = b.sys.held := by
  unfold regRead
  split <;> simp

/-- What an effect of its own, if a write has one, does to the reset. -/
def HeldKept (b : Block) (o : Option Block) : Prop := ∀ c, o = some c → c.sys.held = b.sys.held

section
variable {b}

theorem HeldKept.none : HeldKept b none := fun _ h => absurd h (Option.some_ne_none _).symm

theorem HeldKept.some {c : Block} (h : c.sys.held = b.sys.held) : HeldKept b (some c) := fun _ e => Option.some.inj e ▸ h

theorem HeldKept.map {α : Type} {f : α → Block} (h : ∀ x, (f x).sys.held = b.sys.held) (o : Option α) : HeldKept b (o.map f) := by
  cases o with
  | none => exact HeldKept.none
  | some x => exact HeldKept.some (h x)

theorem HeldKept.or {o p : Option Block} (ho : HeldKept b o) (hp : HeldKept b p) : HeldKept b (o.or p) := by
  cases o with
  | none => exact hp
  | some c => exact ho

theorem HeldKept.ite {p : Prop} [Decidable p] {c : Block} {o : Option Block} (hc : c.sys.held = b.sys.held) (ho : HeldKept b o) :
    HeldKept b (if p then .some c else o) := by
  split
  · exact HeldKept.some hc
  · exact ho

end

theorem writeSingle_held (m k : Nat) (v hw : Word) : HeldKept b (writeSingle m k v hw b) := by
  unfold writeSingle
  dsimp only
  repeat' refine HeldKept.ite (by simp) ?_
  exact HeldKept.none

theorem writeElement_held (k : Nat) (v : Word) (h : RegHit) : HeldKept b (writeElement k v h b) := by
  unfold writeElement
  repeat' refine HeldKept.or (HeldKept.map (fun n => by simp) _) ?_
  exact HeldKept.map (fun c => by simp) _

@[simp] theorem writeWord_held (m : Nat) (h : RegHit) (v hw : Word) : (writeWord m h v hw b).sys.held = b.sys.held := by
  have hk := (writeSingle_held b m h.key v hw).or (writeElement_held b h.key v h)
  unfold writeWord
  split
  · rename_i c hc
    rw [setHw_held, hk c hc]
  · simp

@[simp] theorem writePair_held (h : RegHit) (v : Long) : (writePair h v b).sys.held = b.sys.held := by
  unfold writePair
  split <;> simp

@[simp] theorem regWrite_held (m a : Nat) (v hw : Word) : (regWrite m a v hw b).sys.held = b.sys.held := by
  unfold regWrite
  split <;> simp

@[simp] theorem periphBase_held (m a n i : Nat) (v : Option Word) (hw : Word) : (periphBase m a n i v hw b).2.sys.held = b.sys.held := by
  unfold periphBase
  split
  · simp
  · split
    · rfl
    · split <;> simp

@[simp] theorem localTunnel_held : (localTunnel b).sys.held = b.sys.held := by
  unfold localTunnel
  dsimp only
  split <;> simp

@[simp] theorem periphAccess_held (m a n i : Nat) (v : Option Word) (hw : Word) : (periphAccess m a n i v hw b).2.sys.held = b.sys.held := by
  unfold periphAccess
  dsimp only
  split <;> simp

/-! #### The sections of an image (R384) -/

@[simp] theorem mirror_held (p : Nat) (f : MirrorField) (v : Int) (o : Nat) : (mirror p f v o b).sys.held = b.sys.held := rfl

@[simp] theorem releaseNote_held (k o : Nat) : (releaseNote k o b).sys.held = b.sys.held := by
  unfold releaseNote
  split
  · rfl
  · exact congrArg Sys.held ((voicesReleased_foldl _ o _ _).only.sys)

@[simp] theorem setPedal_held (p w d o : Nat) : (setPedal p w d o b).sys.held = b.sys.held := by
  unfold setPedal
  dsimp only
  split
  · simp [held_foldl]
  · simp [held_foldl]
  · simp


@[simp] theorem ctlDefaults_held (p o : Nat) : (ctlDefaults p o b).sys.held = b.sys.held := by
  unfold ctlDefaults
  dsimp only
  rw [setPedal_held, setPedal_held, setPedal_held, mirror_held, held_foldl fun c _ => mirror_held c p _ _ o, Block.setPart_sys]

@[simp] theorem derivePools_held : (derivePools b).sys.held = b.sys.held := by simp [derivePools, held_foldl]
@[simp] theorem checkPools_held : (checkPools b).sys.held = b.sys.held := by simp [checkPools]

@[simp] theorem setWords_held (s : List Byte) (l : SectWords) : (setWords s l b).sys.held = b.sys.held := by
  unfold setWords
  exact held_foldl (fun c x => congrArg Sys.held (Block.setNum_sys c _ _)) l b

@[simp] theorem selectNow_held : (selectNow b).sys.held = b.sys.held := by simp [selectNow]
@[simp] theorem setDvPort_held (i : Nat) (p : DvPort) : (setDvPort i p b).sys.held = b.sys.held := rfl
@[simp] theorem setDvCtx_held (i v : Nat) (c : DvContext) : (setDvCtx i v c b).sys.held = b.sys.held := rfl
@[simp] theorem legacyPorts_held (s : List Byte) : (legacyPorts s b).sys.held = b.sys.held := by simp [legacyPorts, held_foldl]

variable (s : List Byte)

@[simp] theorem applySec_held : (applySec s b).sys.held = b.sys.held := rfl
@[simp] theorem applySys_held : (applySys s b).sys.held = b.sys.held := setWords_held b s _
@[simp] theorem applyPwr_held : (applyPwr s b).sys.held = b.sys.held := setWords_held b s _
@[simp] theorem applyTime_held : (applyTime s b).sys.held = b.sys.held := by simp [applyTime, held_foldl]
@[simp] theorem applyTuningTables_held : (applyTuningTables s b).sys.held = b.sys.held := rfl
@[simp] theorem applyVparam_held : (applyVparam s b).sys.held = b.sys.held := rfl
@[simp] theorem applyAlloc_held : (applyAlloc s b).sys.held = b.sys.held := by simp [applyAlloc, held_foldl]
@[simp] theorem applyChain_held : (applyChain s b).sys.held = b.sys.held := by simp [applyChain, held_foldl]
@[simp] theorem applyMix_held : (applyMix s b).sys.held = b.sys.held := by simp [applyMix, held_foldl]
@[simp] theorem applyDealer_held : (applyDealer s b).sys.held = b.sys.held := setWords_held b s _
@[simp] theorem applySap_held : (applySap s b).sys.held = b.sys.held := by simp [applySap, held_foldl]
@[simp] theorem applyCvo_held : (applyCvo s b).sys.held = b.sys.held := by simp [applyCvo, held_foldl]
@[simp] theorem applyWeft_held : (applyWeft s b).sys.held = b.sys.held := by simp [applyWeft, held_foldl]
@[simp] theorem applyEvents_held : (applyEvents s b).sys.held = b.sys.held := by simp [applyEvents, held_foldl]
@[simp] theorem applyLegacy_held : (applyLegacy s b).sys.held = b.sys.held := by simp [applyLegacy, held_foldl]
@[simp] theorem applyRegs_held : (applyRegs s b).sys.held = b.sys.held := by simp [applyRegs, held_foldl]

end

end Sys2Proof.Machine

namespace Sys2Proof.Machine

/-! #### Start-up on an image (R376, R384–R386) -/

section
variable (b : Block)

@[simp] theorem applySection_held (ty : Nat) (s : List Byte) : (applySection ty s b).sys.held = b.sys.held := by
  unfold applySection
  split <;> simp

@[simp] theorem recover_held (c x : Nat) : (recover c x b).sys.held = b.sys.held := by simp [recover]
@[simp] theorem showDram_held (i : Bool) (u m : Nat) : (showDram b i u m).sys.held = b.sys.held := by simp [showDram]

@[simp] theorem placeWaves_held : (placeWaves b).sys.held = b.sys.held := by
  unfold placeWaves
  dsimp only
  refine held_foldl (fun c l => foldl_keeps (F := fun x : Nat × Block => x.2.sys.held) (fun x w => ?_) _ (waveBase c l, c)) _ b
  split <;> rfl

@[simp] theorem applyAll_held (t : List Sect) (secs : FMap (List Byte)) : (applyAll t secs b).sys.held = b.sys.held := by
  unfold applyAll
  simp [held_foldl]

@[simp] theorem loadSamples_held (t : List Sect) (img : List Byte) : (loadSamples t img b).2.sys.held = b.sys.held := by
  unfold loadSamples
  dsimp only
  split
  · simp
  · simp

@[simp] theorem startDealer_held : (startDealer b).sys.held = b.sys.held := by simp [startDealer]

@[simp] theorem bootImage_held (img : List Byte) (size : Nat) (push : Bool) : (bootImage img size push b).sys.held = b.sys.held := by
  unfold bootImage
  dsimp only
  split
  · simp
  · split
    · rename_i t secs _ _ c hc
      have hl := loadSamples_held (applyAll t secs ((b.put SYS_STAT_step 6).put SEC_STAT_bypass_armed 0)) t img
      rw [hc] at hl
      simpa using hl
    · rename_i t secs _ _ c hc
      have hl := loadSamples_held (applyAll t secs ((b.put SYS_STAT_step 6).put SEC_STAT_bypass_armed 0)) t img
      rw [hc] at hl
      simpa using hl

@[simp] theorem pushBoot_held : (pushBoot b).sys.held = b.sys.held := by simp [pushBoot]

@[simp] theorem clearRequests_held : (clearRequests b).sys.held = b.sys.held := rfl

@[simp] theorem mpReset_held (n : Nat) : (mpReset n b).sys.held = b.sys.held := by
  unfold mpReset
  dsimp only
  split <;> simp

@[simp] theorem computeReset_held (k : Bool) : (computeReset k b).sys.held = true := by simp [computeReset]

end

section
variable {b : Block} (h : b.sys.held = true)
include h

theorem performResets_keepsReset (n : Nat) : (performResets n b).sys.held = true := by
  unfold performResets
  dsimp only
  split
  · simp
  · split <;> simp [h]

theorem performRequests_keepsReset (n : Nat) : (performRequests n b).sys.held = true := by
  have h1 := performResets_keepsReset h n
  unfold performRequests
  dsimp only
  split <;> rw [clearRequests_held]
  · exact performResets_keepsReset ((pushBoot_held _).trans h1) n
  · exact h1

/-- What follows a command does not release the compute die from its reset. -/
theorem finish_keepsReset (n : Nat) : (finish n b).sys.held = true := by
  have h1 := performRequests_keepsReset h n
  unfold finish
  obtain ⟨p, x, e⟩ := msixUpdate_form (cvSafe (!(performRequests n b).tbu.holds.isEmpty) (performRequests n b))
  rw [e]
  exact h1

end

end Sys2Proof.Machine

namespace Sys2Proof.Machine

/-! ### Start-up, resets and the host's buses (R375–R378, R391–R398, R406) -/

theorem hostRegs_plain : plainReg SYS_RST = true ∧ plainReg SYS_BOOT_LEN = true ∧ plainReg SYS_KICK = true := by decide

/-- A write of SYS_RST with its key asks for the resets that it names (R375). -/
theorem sysRst_run {m : Nat} {v : Word} {b : Block} (hm : accessMade m SYS_RST b = true) (hk : v.toNat / 65536 = 0xC1A5) :
    writeReg m SYS_RST v 0 b = wrote m (fun b =>
      { b with sys := { b.sys with reqChip := b.sys.reqChip || v.getLsbD 0, reqMp := b.sys.reqMp || v.getLsbD 1 } }) b := by
  refine writeReg_of_single hostRegs_plain.1 hm (no_hw _) ?_
  show some (sysRst v b) = _
  unfold sysRst
  rw [if_pos hk]

/-- A length that SYS_BOOT_LEN takes starts the push that is awaited (R378). -/
theorem bootLen_run {m : Nat} {v : Word} {b : Block} (hm : accessMade m SYS_BOOT_LEN b = true) (h0 : 0 < v.toNat % 2 ^ 30)
    (h1 : v.toNat % 2 ^ 30 ≤ 0x20000000) : writeReg m SYS_BOOT_LEN v 0 b = wrote m (fun b =>
      { b.put SYS_BOOT_LEN_bytes (v.toNat % 2 ^ 30) with sys := { b.sys with reqBoot := b.sys.reqBoot || b.on SYS_STAT_push_wait } }) b := by
  refine writeReg_of_single hostRegs_plain.2.1 hm (no_hw _) ?_
  show some (bootLenWrite v b) = _
  unfold bootLenWrite
  rw [if_neg (by omega)]

/-- A kick (R406). -/
theorem sysKick_run {m : Nat} {v : Word} {b : Block} (hm : accessMade m SYS_KICK b = true) : writeReg m SYS_KICK v 0 b =
    wrote m (fun b => if m = 0 ∧ v.toNat % 65536 = 0x6B1C then { b with rel := { b.rel with wdRun := 0 } } else b) b :=
  writeReg_of_single hostRegs_plain.2.2 hm (no_hw _) rfl

/-! #### SPI and PCIe -/

/-- A READ of one word (R391). -/
theorem spiRead_one (a : Nat) (e : Ecc) (b : Block) : spiRead a 1 none e b =
    setResp 1 { data := [(transact { master := 1 } a 4 0 none e 0 none (spiPhase b)).1.data.getD 0 0] }
      (spiNote (transact { master := 1 } a 4 0 none e 0 none (spiPhase b)).1 (transact { master := 1 } a 4 0 none e 0 none (spiPhase b)).2) := by
  have h0 : ¬ (decide (0x40000000 ≤ a ∧ a < 0x44000000) = true ∧ 0 < 0) := fun h => absurd h.2 (Nat.lt_irrefl 0)
  unfold spiRead
  dsimp only
  rw [show List.range 1 = [0] from rfl, List.foldl_cons, List.foldl_nil, if_neg h0]
  rfl

theorem spiErrClear_run (b : Block) : spiErrClear 1 0 b = (b.put HIF_SPI_STAT_err 0).put HIF_SPI_STAT_cause 0 := if_pos (by decide)

theorem bar0WriteTlp_words {o : Nat} {dws : List (Word × BitVec 4)} {b : Block} (h : o < 0x03FFF000) : bar0WriteTlp o dws b =
    (dws.foldl (fun (acc : Nat × Block) x => (acc.1 + 4, bar0Write acc.1 x.1 x.2 acc.2)) (o, b)).2 := if_neg (by omega)

theorem bar0WriteTlp_doorbell (o : Nat) (dws : List (Word × BitVec 4)) (b : Block) :
    bar0WriteTlp (0x03FFF000 + o) dws b = doorbellWrite o (dws.flatMap fun x => wordBytes x.1 x.2) b := by
  unfold bar0WriteTlp
  rw [if_pos (by omega), Nat.add_sub_cancel_left]

/-- A BAR2 read that the bridge makes at once (R397). -/
theorem bar2Read_made {a n x : Nat} {e : Ecc} {b : Block} (hd : b.bit BMX_MSTAT_draining 2 = false) (hx : bar2Addr b a n = some x) :
    bar2Read a n e b = setResp 2 (memAccess { master := 2 } x n 0 none e none b).1
      (if (memAccess { master := 2 } x n 0 none e none b).1.err then pcieErr HIF_PCIE_ERR_ca (memAccess { master := 2 } x n 0 none e none b).2
        else (memAccess { master := 2 } x n 0 none e none b).2) := by
  unfold bar2Read bridgeBurst
  rw [hx, hd]
  rfl

/-- The control DWORD of a vector is written with its mask bit clear (R398). -/
theorem msixWrite_unmask (v : Nat) (b : Block) : msixWrite (4 * v + 3) 0 0xF b =
    if msixMasked b v then
      Machine.msixUnmask v { b with sys := { b.sys with msix := FMap.set (fun k => if k % 4 = 3 then 1 else 0) b.sys.msix (4 * v + 3) 0 } }
    else { b with sys := { b.sys with msix := FMap.set (fun k => if k % 4 = 3 then 1 else 0) b.sys.msix (4 * v + 3) 0 } } := by
  have hmask : BitVec.ofNat 32 (leNat ((List.range 4).map fun i => if (0xF : BitVec 4).getLsbD i then 0xFF else 0)) = BitVec.allOnes 32 := by
    decide
  have hy : ((msixWord b (4 * v + 3) &&& ~~~ BitVec.allOnes 32) ||| ((0 : Word) &&& BitVec.allOnes 32)) &&& 1 = 0 := by simp
  have hk : (4 * v + 3) % 4 = 3 := by omega
  have hv : (4 * v + 3) / 4 = v := by omega
  unfold msixWrite
  dsimp only
  rw [hmask, if_pos hk, hy, hv]
  refine ite_of_iff ?_ rfl rfl
  rw [and_iff_right hk]
  exact and_iff_left (by decide)

end Sys2Proof.Machine

namespace Sys2Proof.Machine

/-! #### The release of the reset (R376–R378, R451) -/

theorem strapsOf_lt (r : Release) : strapsOf r < 16 := by
  unfold strapsOf
  exact Nat.or_lt_two_pow (n := 4) (Nat.or_lt_two_pow (Nat.and_lt_two_pow _ r.straps.2.1.isLt) (Nat.and_lt_two_pow _ r.straps.2.2.isLt))
    (Nat.and_lt_two_pow _ r.straps.2.2.isLt)

/-- What step 3 leaves beside the registers: the compute die runs, and the fuses are those burned. -/
structure Stepped (r : Release) (b c : Block) : Prop where
  sys : c.sys = { b.sys with held := false, testEn := false, burnBad := r.burnBad, releaseT := b.now }
  fuses : c.sec.fuses = b.sec.burned

/-- Effects on the registers alone. -/
theorem Stepped.of_eq {r : Release} {b c d : Block} (h : Stepped r b c) (hsys : d.sys = c.sys) (hsec : d.sec = c.sec) : Stepped r b d :=
  ⟨hsys.trans h.sys, (congrArg Sec.fuses hsec).trans h.fuses⟩

theorem loadFuses_sys (b : Block) : (loadFuses b).sys = b.sys ∧ (loadFuses b).sec.fuses = b.sec.burned := by
  unfold loadFuses
  simp

/-- The registers that step 3 sets from the retired shuttles. -/
def retireShown (b : Block) : Block :=
  (List.range 160).foldl (fun acc k => if acc.rel.fused.contains k then acc.setBit (REL_RETIRE_retired (k / 32)) (k % 32) else acc) b

theorem retireShown_keeps (b : Block) : (retireShown b).sys = b.sys ∧ (retireShown b).sec = b.sec := by
  unfold retireShown
  generalize List.range 160 = l
  refine ⟨foldl_keeps (F := Block.sys) (fun c k => ?_) l b, foldl_keeps (F := Block.sec) (fun c k => ?_) l b⟩
  · split
    · exact Block.setBit_sys c _ _
    · rfl
  · split
    · exact Block.setBit_sec c _ _
    · rfl

theorem releaseStep3_steps (r : Release) (b : Block) : Stepped r b (releaseStep3 r b) := by
  obtain ⟨hsys, hfuses⟩ := loadFuses_sys (b.put SYS_STAT_step 3)
  have h1 : Stepped r b (setSys (fun s => { s with held := false, testEn := false, burnBad := r.burnBad, releaseT := b.now })
      (loadFuses (b.put SYS_STAT_step 3))) := by
    refine ⟨?_, hfuses⟩
    rw [Block.setSys_sys, hsys, Block.put_sys]
  unfold releaseStep3
  dsimp only
  generalize setSys (fun s => { s with held := false, testEn := false, burnBad := r.burnBad, releaseT := b.now })
    (loadFuses (b.put SYS_STAT_step 3)) = c at h1
  have h2 : Stepped r b (((c.put HIF_PCIID_vendor b.sec.vendor).put MEM_STAT_bist_done 1).put SEC_TRNG_STAT_ready 1) :=
    h1.of_eq (by simp) (by simp)
  generalize ((c.put HIF_PCIID_vendor b.sec.vendor).put MEM_STAT_bist_done 1).put SEC_TRNG_STAT_ready 1 = d at h2
  have h3 : Stepped r b (if d.get PWR_RAIL_fcore = 0 then d.put PWR_RAIL_fcore 1200 else d) := by
    split
    · exact h2.of_eq (Block.put_sys _ _ _) (Block.put_sec _ _ _)
    · exact h2
  generalize (if d.get PWR_RAIL_fcore = 0 then d.put PWR_RAIL_fcore 1200 else d) = e at h3
  have h4 := h3.of_eq (retireShown_keeps e).1 (retireShown_keeps e).2
  unfold retireShown at h4
  split
  · exact h4.of_eq (by simp) (by simp)
  · exact h4.of_eq (by simp) (by simp)

/-- The block once step 6 has begun with trained DRAM and straps that name a push. -/
def awaitingPush (r : Release) (d : Fin 5 × Bool × Fin 5) (c : Block) : Block :=
  let b1 := (((c.put WFT_STAT_root (strapsOf r / 8)).put SYS_STAT_step 4).put SYS_STAT_bootsel (bootOf r))
  let b2 := { b1 with mm := { b1.mm with bistFail := r.bist.map fun x : Fin 512 => x.val } }
  ((releaseStep5 d (b2.put SYS_STAT_step 5)).put SYS_STAT_step 6).put SYS_STAT_push_wait 1

theorem releaseReset_push {r : Release} {d : Fin 5 × Bool × Fin 5} {b : Block} (hh : b.sys.held = true) (hp : b.pwr.powered = true)
    (ht : r.testEn = false) (hb : bootOf r = 2 ∨ bootOf r = 3) (hd : r.dram = some d) (hbad : r.trngBad = false) :
    releaseReset r b = awaitingPush r d (releaseStep3 r b) := by
  have h1 : ¬ ((!b.sys.held) = true ∨ (!b.pwr.powered) = true) := by
    rw [hh, hp]
    decide
  have h5 : ¬ 5 ≤ bootOf r := by omega
  have hle : ¬ bootOf r ≤ 1 := by omega
  have h3 : bootOf r ≤ 3 := by omega
  unfold releaseReset
  rw [if_neg h1, ht, if_neg Bool.false_ne_true]
  dsimp only
  rw [if_neg h5, if_neg fun h => hle h.1, hd]
  dsimp only
  rw [hbad, if_neg Bool.false_ne_true, if_neg hle, if_pos h3]
  rfl

theorem awaitingPush_keeps (r : Release) (d : Fin 5 × Bool × Fin 5) (c : Block) :
    (awaitingPush r d c).sys = c.sys ∧ (awaitingPush r d c).sec = c.sec := by
  unfold awaitingPush releaseStep5 showDram
  simp

theorem get_with_mm (b : Block) (x : Mem) (f : Fld) : ({ b with mm := x } : Block).get f = b.get f := rfl

theorem awaitingPush_shows (r : Release) (d : Fin 5 × Bool × Fin 5) (c : Block) :
    (awaitingPush r d c).get SYS_STAT_step = 6 ∧ (awaitingPush r d c).get SYS_STAT_bootsel = bootOf r ∧
    (awaitingPush r d c).get SYS_STAT_push_wait = 1 ∧ (awaitingPush r d c).get DRC_STAT_trained = 1 ∧
    (awaitingPush r d c).get DRC_STAT_rate = d.1.val ∧ (awaitingPush r d c).get WFT_STAT_root = strapsOf r / 8 := by
  have hroot : strapsOf r / 8 % 2 ^ WFT_STAT_root.width = strapsOf r / 8 := by
    have h := strapsOf_lt r
    exact Nat.mod_eq_of_lt (show strapsOf r / 8 < 2 by omega)
  have hsel : bootOf r % 2 ^ SYS_STAT_bootsel.width = bootOf r := Nat.mod_mod _ 8
  have hrate : d.1.val % 2 ^ DRC_STAT_rate.width = d.1.val := Nat.mod_eq_of_lt (Nat.lt_of_lt_of_le d.1.isLt (by decide))
  unfold awaitingPush releaseStep5 showDram
  dsimp only
  refine ⟨?_, ?_, ?_, ?_, ?_, ?_⟩ <;> simp (disch := decide) only [Block.get_put_disjoint, Block.get_put, get_with_mm]
  · rfl
  · exact hsel
  · rfl
  · rfl
  · exact hrate
  · exact hroot

end Sys2Proof.Machine

namespace Sys2Proof.Machine

/-- A push boot source leaves the compute die waiting for its image. -/
theorem release_awaits {r : Release} {d : Fin 5 × Bool × Fin 5} {s : State} (hh : s.blk.sys.held = true) (hp : s.blk.pwr.powered = true)
    (ht : r.testEn = false) (hb : bootOf r = 2 ∨ bootOf r = 3) (hd : r.dram = some d) (hbad : r.trngBad = false) (hq : s.blk.quiet) :
    ∃ t, exec (.computeResetRelease r) s = .next t ∧ t.blk.sys.held = false ∧ t.blk.get SYS_STAT_step = 6 ∧
      t.blk.get SYS_STAT_bootsel = bootOf r ∧ t.blk.on SYS_STAT_push_wait = true ∧ t.blk.on DRC_STAT_trained = true ∧
      t.blk.get DRC_STAT_rate = d.1.val ∧ t.blk.get WFT_STAT_root = strapsOf r / 8 ∧ t.blk.sec.fuses = s.blk.sec.burned ∧
      t.blk.sys.flash = s.blk.sys.flash := by
  obtain ⟨h3sys, h3fuses⟩ := releaseStep3_steps r s.blk
  have hrel := releaseReset_push hh hp ht hb hd hbad
  obtain ⟨hsys, hsec⟩ := awaitingPush_keeps r d (releaseStep3 r s.blk)
  obtain ⟨hstep, hsel, hwait, htrained, hrate, hroot⟩ := awaitingPush_shows r d (releaseStep3 r s.blk)
  generalize awaitingPush r d (releaseStep3 r s.blk) = c at hrel hsys hsec hstep hsel hwait htrained hrate hroot
  have hcsys := hsys.trans h3sys
  have hcq : c.quiet := by
    unfold Block.quiet at *
    rw [hcsys]
    exact hq
  refine ⟨_, ok_congr (g := fun _ => c) hrel, ?_, ?_, ?_, ?_, ?_, ?_, ?_, ?_, ?_⟩
  · exact (finish_sys 0 hcq Sys.held fun _ _ _ _ => rfl).trans ((congrArg Sys.held hcsys).trans rfl)
  · exact (finish_get 0 hcq (by decide)).trans hstep
  · exact (finish_get 0 hcq (by decide)).trans hsel
  · exact bne_iff_ne.mpr fun e => Nat.one_ne_zero (((finish_get 0 hcq (by decide)).trans hwait).symm.trans e)
  · exact bne_iff_ne.mpr fun e => Nat.one_ne_zero (((finish_get 0 hcq (by decide)).trans htrained).symm.trans e)
  · exact (finish_get 0 hcq (by decide)).trans hrate
  · exact (finish_get 0 hcq (by decide)).trans hroot
  · exact (congrArg Sec.fuses ((finish_sec 0 hcq).trans hsec)).trans h3fuses
  · exact (finish_sys 0 hcq Sys.flash fun _ _ _ _ => rfl).trans ((congrArg Sys.flash hcsys).trans rfl)

/-- A high TEST_EN holds the compute die in reset (R451), whatever a register write has asked for. -/
theorem release_testEn {r : Release} {s : State} (hh : s.blk.sys.held = true) (hp : s.blk.pwr.powered = true) (ht : r.testEn = true) :
    ∃ t, exec (.computeResetRelease r) s = .next t ∧ t.blk.sys.held = true := by
  have hrel : releaseReset r s.blk = setSys (fun s => { s with testEn := true }) s.blk := by
    unfold releaseReset
    rw [hh, hp, ht]
    rfl
  have hheld : (releaseReset r s.blk).sys.held = true := by
    rw [hrel, Block.setSys_sys]
    exact hh
  exact ⟨s.on (releaseReset r), rfl, finish_keepsReset hheld 0⟩

/-- Settles O58. -/
theorem hostCommands : Obligations.HostCommands := by
  unfold Obligations.HostCommands
  refine ⟨fun s => ⟨fun flash size sfdp vin iin => rfl, rfl, fun r hh hp => ⟨rfl, release_testEn hh hp, fun d ht hb hd hbad hq => ?awaits⟩⟩,
    fun m v s hlive => ⟨fun hm hk => ⟨?rst, fun n => ?mpReset⟩, fun hm h0 h1 => run_live_congr hlive (bootLen_run hm h0 h1),
      fun hm => run_live_congr hlive (sysKick_run hm)⟩,
    fun n s hlive => ⟨run_live hlive _, run_live hlive _⟩, fun s hlive => ⟨fun a words => run_live hlive _,
      fun a e => run_live_congr hlive (spiRead_one a.toNat e s.blk), run_live hlive _, run_live_congr hlive (spiErrClear_run _),
      fun events => run_live hlive _, run_live hlive _⟩,
    fun s hlive => ⟨fun o bes => run_live hlive _, fun o dws h => run_live_congr hlive (bar0WriteTlp_words h),
      fun o dws => run_live_congr hlive (bar0WriteTlp_doorbell o.toNat dws s.blk), fun a n e x hn hd hx => ?bar2,
      fun v => run_live_congr hlive (msixWrite_unmask v.val s.blk), fun up gen width l1 bme => run_live hlive _⟩⟩
  case awaits => exact release_awaits hh hp ht hb hd hbad hq
  case rst => exact run_live_congr hlive (sysRst_run hm hk)
  case mpReset => exact run_live_congr hlive (congrArg (performRequests n.toNat) (sysRst_run hm hk))
  case bar2 => exact run_live_congr hlive ((if_neg hn).trans (bar2Read_made hd hx))

end Sys2Proof.Machine
